-- ==== Sys2Proof/Word.lean ====
section
/-! DEFINITION. The words of the links: bytes, 16-bit and 32-bit fields (spec 01, R1). -/

namespace Sys2Proof

/-- One byte of a frame. -/
abbrev Byte := BitVec 8
/-- A two-byte field, most significant byte first on the links (R1). -/
abbrev Half := BitVec 16
/-- A four-byte field: length counts and the millisecond time base (R9, R185). -/
abbrev Quad := BitVec 32

end Sys2Proof
end

