-- ==== Sys2Proof/Config.lean ====
section
/-! DEFINITION. What the spec fixes for every TC-840 (sizes, limits, identity) and the one value it leaves free. -/

namespace Sys2Proof.Config

/-- FREE VALUE (log 13): a gap in tenth-µm where the spec states none. No body is visible to a proof;
the argument is the count of free values drawn so far. -/
opaque freeGap : Nat → Int

/-- Number of link ports (00 Conventions). -/
abbrev ports : Nat := 12
/-- Number of gauge channels (R63). -/
abbrev channels : Nat := 32
/-- Number of stand positions (R105). -/
abbrev stands : Nat := 8
/-- Number of spans (R82). -/
abbrev spans : Nat := 9
/-- Number of trip entries (R158). -/
abbrev entries : Nat := 64
/-- Blocks of the frame buffer (R41). -/
abbrev bufferBlocks : Nat := 512
/-- Entries of a normal queue (R46). -/
abbrev queueCapacity : Nat := 64
/-- Records of the trip log (R168). -/
abbrev logCapacity : Nat := 32
/-- Largest reply body in bytes (R14). -/
abbrev replyBody : Nat := 237
/-- Broadcast node number (R3). -/
abbrev broadcast : Byte := 255#8
/-- Entry index of a panel or management stop (R13). -/
abbrev noEntry : Nat := 255

end Sys2Proof.Config
end

