-- ==== Sys2Proof/Syntax.lean ====
section
/-! DEFINITION. Syntax: the enumerations and records of the spec, and `Instr`, one constructor per row of
spec/opcode_table.json. -/

namespace Sys2Proof

/-- What the receiver recognizes inside a burst (R19): a data symbol, or one of the non-data symbols that
do not end the burst (an idle symbol and an end delimiter do). -/
inductive Symbol where
  | data (nibble : BitVec 4)
  | startDelimiter
  | invalid
  deriving DecidableEq, Repr

/-- Port roles (R17), in the order that gives their codes (R173). -/
inductive Role where
  | line | stand | sensor | panel | disabled
  deriving DecidableEq, Repr

/-- Test modes (R30). -/
inductive TestMode where
  | none | localLoop | remoteLoop | pattern
  deriving DecidableEq, Repr

/-- The ten frame kinds (R5). -/
inductive FrameKind where
  | sample | status | setpoint | group | gap | stop | manage | reply | notice | pattern
  deriving DecidableEq, Repr

/-- Quality of a sample (R9). -/
inductive Quality where
  | raw | good | clamped | suspect | failed
  deriving DecidableEq, Repr

/-- Drive state of a STATUS (R10). -/
inductive DriveState where
  | ready | active | fault
  deriving DecidableEq, Repr

/-- Setpoint kinds (R11). -/
inductive SetpointKind where
  | preset | trim | move
  deriving DecidableEq, Repr

/-- Setpoint kinds a GROUP may carry (R7, R11). -/
inductive GroupKind where
  | trim | move
  deriving DecidableEq, Repr

/-- Stop classes above RELEASE (R13), in order of severity. `Option Severity` is a class field whose zero
code is RELEASE, NOTE or none (R173). -/
inductive Severity where
  | slow | fast | opened
  deriving DecidableEq, Repr

/-- Channel types (R63). -/
inductive ChannelType where
  | thickness | force | speed | tension | marker
  deriving DecidableEq, Repr

/-- Failure treatments (R63, R73). -/
inductive Treatment where
  | hold | mute
  deriving DecidableEq, Repr

/-- Hold modes (R105, R149). -/
inductive HoldMode where
  | latched | persistent
  deriving DecidableEq, Repr

/-- The sixteen condition kinds (section 9.1), in the order that gives their codes (R173). -/
inductive CondKind where
  | link | silent | babble | rate | storm | panel | stale | failed | high | low
  | moveFailed | following | hold | driveFault | scheduleMissing | trackLimit
  deriving DecidableEq, Repr

/-- One condition: its kind and the number of its port, channel, stand (1 to 8) or span (R155). -/
structure CondId where
  kind : CondKind
  source : Nat
  deriving DecidableEq, Repr

/-! ### Records of the setting store -/

/-- Port record (R17). -/
structure PortRecord where
  role : Role
  nodeLock : Bool
  reservation : Nat
  silenceTime : Nat
  stormWindow : Nat
  rising : Nat
  falling : Nat
  deriving DecidableEq, Repr

/-- Part-wide record of the PORTS section (R51): own node, aging time in s, static bindings (node, port). -/
structure PartWide where
  own : Nat
  aging : Nat
  bindings : List (Nat × Nat)
  deriving DecidableEq, Repr

/-- Channel record (R63). `table` holds the breakpoints (raw, engineering). -/
structure ChannelRecord where
  enabled : Bool
  node : Nat
  point : Nat
  type : ChannelType
  table : List (Int × Int)
  engMin : Int
  engMax : Int
  stepLimit : Nat
  lengthLimit : Nat
  rejectLimit : Nat
  staleTime : Nat
  treatment : Treatment
  high : Option Int
  low : Option Int
  deriving DecidableEq, Repr

/-- Span record (R82). `gauge` is a channel and its distance d in mm. -/
structure SpanRecord where
  enabled : Bool
  upstream : Nat
  downstream : Nat
  length : Nat
  segment : Nat
  capacity : Nat
  push : Nat
  pop : Nat
  gauge : Option (Nat × Nat)
  marker : Option Nat
  deriving DecidableEq, Repr

/-- Stand record (R105). `extras` are the extra stop nodes (node, port). -/
structure StandRecord where
  configured : Bool
  node : Nat
  port : Nat
  extras : List (Nat × Nat)
  force : Nat
  modulus : Nat
  zero : Int
  limLo : Int
  limHi : Int
  openPos : Int
  rateStep : Nat
  moveStep : Nat
  band : Nat
  moveTime : Nat
  biteOn : Nat
  biteOff : Nat
  followLimit : Nat
  followCount : Nat
  holdMode : HoldMode
  holdTime : Nat
  deriving DecidableEq, Repr

/-- Pass record (R107). -/
structure PassRecord where
  id : Nat
  entryThickness : Int
  exitThickness : Int
  preset : Int
  winLo : Int
  winHi : Int
  kFb : Nat
  kFf : Nat
  kMon : Nat
  corrLimit : Nat
  trimLimit : Nat
  deriving DecidableEq, Repr

/-- Trip entry record (R158). `cls = none` is NOTE. -/
structure TripEntryRecord where
  enabled : Bool
  cond : CondId
  delay : Nat
  cls : Option Severity
  mask : Byte
  deriving DecidableEq, Repr

/-! ### Fields of the frames the units read -/

/-- SAMPLE payload (R9). -/
structure SampleFields where
  point : Byte
  raw : Int
  lengthCount : Quad
  eng : Int
  quality : Quality
  deriving DecidableEq, Repr

/-- STATUS payload (R10). -/
structure StatusFields where
  actual : Int
  echo : Int
  drive : DriveState
  deriving DecidableEq, Repr

/-- SETPOINT payload (R11). `stand` is the stand number less one, so 1 to 8 are the values R7 admits. -/
structure SetpointFields where
  stand : Fin 8
  sequence : Byte
  kind : SetpointKind
  value : Int
  deriving DecidableEq, Repr

/-- GROUP payload (R11). -/
structure GroupFields where
  sequence : Byte
  mask : Byte
  kind : GroupKind
  value : Int
  deriving DecidableEq, Repr

/-- STOP payload of a panel (R13); `cls = none` is RELEASE. -/
structure StopFields where
  cls : Option Severity
  mask : Byte
  entry : Byte
  count : Byte
  deriving DecidableEq, Repr

/-- Where a frame came from: its arrival port and its source node (R1, R52). -/
structure Origin where
  port : Fin 12
  source : Byte
  deriving DecidableEq, Repr

/-- Where a management request came from: its arrival port, its source node and its tag (R14). -/
structure Arrival where
  port : Fin 12
  source : Byte
  tag : Byte
  deriving DecidableEq, Repr

/-- Which byte of a burst makes the receiver claim a block (R42). -/
inductive ClaimByte where
  | first | byte129
  deriving DecidableEq, Repr

/-- A decoded management request addressed to the part (R14, R173). Numbers and codes that the owner
judges (RANGE) are kept as they were sent. -/
inductive Request where
  | identify (clear : Bool)
  | readPort (clear : Bool) (port : Nat)
  | readChannel (clear : Bool) (channel : Nat)
  | readStand (clear : Bool) (stand : Nat)
  | readSpan (clear : Bool) (span first : Nat)
  | readTripLog (clear : Bool) (first : Nat)
  | readNodeTable (first : Nat)
  | loadPort (port : Nat) (record : PortRecord)
  | loadPartWide (record : PartWide)
  | loadChannel (channel : Nat) (record : ChannelRecord)
  | loadStand (stand : Nat) (record : StandRecord) (pass : Option PassRecord)
  | loadSpan (span : Nat) (record : SpanRecord)
  | loadPassCurrent (stand : Nat) (pass : PassRecord)
  | loadPassNext (stand : Nat) (pass : PassRecord)
  | loadTripEntry (entry : Nat) (record : TripEntryRecord)
  | loadTripInterval (interval : Nat)
  | bindNode (node port : Nat)
  | unbindNode (node : Nat)
  | admitStand (stand : Nat)
  | bypass (stand : Nat)
  | switchPass (stand : Nat)
  | clearHold (stand : Nat)
  | stop (cls : Nat) (mask : Byte)
  | resetTrip (mask : Byte)
  | flushSpan (span : Nat)
  | setPortTest (port mode : Nat)
  | injectError (port : Nat)
  | storeEnable
  | storeDisable
  | storeSave (sec : Nat)
  | storeErase (sec : Nat)
  | storeProtect (value : Nat)
  | restart
  deriving DecidableEq, Repr

/-- The commands: one constructor per row of spec/opcode_table.json. The events of a port, channel, stand or
entry name it by a `Fin`, so that no command names a unit the part lacks; the stand of a timer event is its
number less one. -/
inductive Instr where
  | frameReceived (port : Fin 12) (symbols : List Symbol)
  | burstTruncated (port : Fin 12)
  | runawayBurst (port : Fin 12)
  | energyDetected (port : Fin 12)
  | energyLost (port : Fin 12)
  | idleRunComplete (port : Fin 12)
  | holdPeriodExpiry (port : Fin 12)
  | babbleQuietExpiry (port : Fin 12)
  | silenceTimeout (port : Fin 12)
  | rateWindowEnd (port : Fin 12) (symbols : Nat)
  | stormWindowEnd (port : Fin 12)
  | transmitBegin (port : Fin 12)
  | transmitEnd (port : Fin 12)
  | nodeTableAging
  | sample (port : Fin 12) (dest source : Byte) (fields : SampleFields)
  | status (port : Fin 12) (dest source : Byte) (fields : StatusFields)
  | setpoint (port : Origin) (fields : SetpointFields)
  | group (port : Origin) (fields : GroupFields)
  | panelStop (port : Origin) (fields : StopFields)
  | unknownRequest (a : Arrival) (code : Byte) (body : List Byte)
  | identify (a : Arrival)
  | identifyClear (a : Arrival)
  | readPort (a : Arrival) (port : Nat)
  | readPortClear (a : Arrival) (port : Nat)
  | readChannel (a : Arrival) (channel : Nat)
  | readChannelClear (a : Arrival) (channel : Nat)
  | readStand (a : Arrival) (stand : Nat)
  | readStandClear (a : Arrival) (stand : Nat)
  | readSpan (a : Arrival) (span first : Nat)
  | readSpanClear (a : Arrival) (span first : Nat)
  | readTripLog (a : Arrival) (first : Nat)
  | readTripLogClear (a : Arrival) (first : Nat)
  | readNodeTable (a : Arrival) (first : Nat)
  | loadPort (a : Arrival) (port : Nat) (record : PortRecord)
  | loadPortPartWide (a : Arrival) (record : PartWide)
  | bindNode (a : Arrival) (node port : Nat)
  | unbindNode (a : Arrival) (node : Nat)
  | loadChannel (a : Arrival) (channel : Nat) (record : ChannelRecord)
  | loadSpan (a : Arrival) (span : Nat) (record : SpanRecord)
  | flushSpan (a : Arrival) (span : Nat)
  | loadStand (a : Arrival) (stand : Nat) (record : StandRecord) (pass : Option PassRecord)
  | loadPassCurrent (a : Arrival) (stand : Nat) (pass : PassRecord)
  | loadPassNext (a : Arrival) (stand : Nat) (pass : PassRecord)
  | admitStand (a : Arrival) (stand : Nat)
  | bypass (a : Arrival) (stand : Nat)
  | switchPass (a : Arrival) (stand : Nat)
  | clearHold (a : Arrival) (stand : Nat)
  | loadTripEntry (a : Arrival) (entry : Nat) (record : TripEntryRecord)
  | loadTripEntryPartWide (a : Arrival) (interval : Nat)
  | stopRequest (a : Arrival) (cls : Nat) (mask : Byte)
  | resetTrip (a : Arrival) (mask : Byte)
  | setPortTest (a : Arrival) (port mode : Nat)
  | injectError (a : Arrival) (port : Nat)
  | storeEnable (a : Arrival)
  | storeDisable (a : Arrival)
  | storeSave (a : Arrival) (sec : Nat)
  | storeErase (a : Arrival) (sec : Nat)
  | storeProtect (a : Arrival) (value : Nat)
  | restart (a : Arrival)
  | staleTimerExpiry (channel : Fin 32)
  | moveTimeout (stand : Fin 8)
  | holdTimerExpiry (stand : Fin 8)
  | tripDelayExpiry (entry : Fin 64)
  | repeatTimerExpiry (stand : Fin 8)
  | storeSaveComplete (verified : Bool)
  | storeEraseComplete
  | storeProtectComplete (verified : Bool)
  | powerOn
  | powerLoss
  | resetInputAssert
  | resetInputRelease
  | brownOut
  | startUpReadComplete
  | receiverBlockClaim (port : Fin 12) (byte : ClaimByte)
  | timeBaseTick
  deriving DecidableEq, Repr

end Sys2Proof
end

