-- ==== Sys2Proof/Machine/Arith.lean ====
section
/-! DEFINITION. The arithmetic the spec uses everywhere: saturating counters (R38), exact division rounded to the
nearest integer with halves away from zero (R66, R126), clamping and saturation (R126), fixed-size tables. -/

namespace Sys2Proof.Machine

/-- A 32-bit saturating counter takes one event (R38). -/
def bump (n : Nat) : Nat := if n < 4294967295 then n + 1 else n

/-- `n / d` rounded to the nearest integer, a half away from zero (R126); `d` is positive wherever the spec divides. -/
def roundDiv (n d : Int) : Int :=
  if 0 ≤ n then (2 * n + d) / (2 * d) else -((2 * (-n) + d) / (2 * d))

/-- Clamp to the range `lo` to `hi` (R126). -/
def clampTo (lo hi x : Int) : Int := if x < lo then lo else if hi < x then hi else x

/-- Saturate at `±n` (R126). -/
def saturate (n x : Int) : Int := clampTo (-n) n x

/-- Saturate to the range of a signed 32-bit value (R130). -/
def saturate32 (x : Int) : Int := clampTo (-2147483648) 2147483647 x

/-- Read place `i` of a table, `d` outside it. -/
def getAt {α : Type} {n : Nat} (v : Vector α n) (d : α) (i : Nat) : α := v[i]?.getD d

/-- Write place `i` of a table; nothing outside it. -/
def setAt {α : Type} {n : Nat} (v : Vector α n) (i : Nat) (x : α) : Vector α n := v.setIfInBounds i x

/-- Is the stand numbered `n` (1 to 8) in the mask, lowest bit for stand 1 (R13)? -/
def inMask (mask : Byte) (n : Nat) : Bool := n != 0 && mask.getLsbD (n - 1)

/-- The mask of one stand. -/
def maskOf (n : Nat) : Byte := if n = 0 then 0#8 else BitVec.ofNat 8 (2 ^ (n - 1))

/-- The mask of a list of stands. -/
def maskOfList (l : List Nat) : Byte := l.foldl (fun m n => m ||| maskOf n) 0#8

/-- The stand numbers in increasing order. -/
def standNumbers : List Nat := [1, 2, 3, 4, 5, 6, 7, 8]

/-- The timer part of a millisecond tick (R185): the milliseconds left of a running timer. -/
def tickTimer (t : Option Nat) : Option Nat := t.map (· - 1)

/-- Order of severity (R13): the more severe of two classes. -/
def severityRank : Severity → Nat
  | .slow => 1
  | .fast => 2
  | .opened => 3

end Sys2Proof.Machine
end

