-- ==== Sys2Proof/Machine/Frames.lean ====
section
/-! DEFINITION. Link frames (chapter 1): shape, check code, kinds, payloads, the eight arrival tests, and the pattern
sequence. -/

namespace Sys2Proof.Machine

/-! ### Check code (R2) -/

/-- One message bit of the check code (R2). -/
def crcBit (r : Half) (b : Bool) : Half := if r.msb != b then (r <<< 1) ^^^ 0x1021#16 else r <<< 1

/-- One byte of the check code, most significant bit first (R2). -/
def crcByte (r : Half) (b : Byte) : Half :=
  [7, 6, 5, 4, 3, 2, 1, 0].foldl (fun r i => crcBit r (b.getLsbD i)) r

/-- The check code of a message (R2). -/
def checkCode (l : List Byte) : Half := l.foldl crcByte 0xFFFF#16

/-! ### Fields -/

/-- One-byte field. -/
def put8 (n : Nat) : List Byte := [BitVec.ofNat 8 n]
/-- Two-byte field, most significant byte first (R1). -/
def put16 (n : Nat) : List Byte := [BitVec.ofNat 8 (n / 256), BitVec.ofNat 8 n]
/-- Four-byte unsigned field (R1). -/
def put32 (n : Nat) : List Byte :=
  [BitVec.ofNat 8 (n / 16777216), BitVec.ofNat 8 (n / 65536), BitVec.ofNat 8 (n / 256), BitVec.ofNat 8 n]
/-- Four-byte signed field, two's complement (R1). -/
def putInt (z : Int) : List Byte := put32 (BitVec.ofInt 32 z).toNat
/-- Yes and no (R173). -/
def putBool (b : Bool) : List Byte := put8 (if b then 1 else 0)
/-- Optional field: a presence byte, then the field or zeros of its full size (R172). -/
def putOpt {α : Type} (size : Nat) (f : α → List Byte) : Option α → List Byte
  | none => 0#8 :: List.replicate size 0#8
  | some x => 1#8 :: f x
/-- List: a count byte, then its items (R172). -/
def putList {α : Type} (f : α → List Byte) (l : List α) : List Byte := put8 l.length ++ l.flatMap f

/-- Read a one-byte field. -/
def get8 : List Byte → Option (Nat × List Byte)
  | b :: r => some (b.toNat, r)
  | [] => none
/-- Read a two-byte field. -/
def get16 : List Byte → Option (Nat × List Byte)
  | a :: b :: r => some (a.toNat * 256 + b.toNat, r)
  | _ => none
/-- Read a four-byte unsigned field. -/
def get32 : List Byte → Option (Nat × List Byte)
  | a :: b :: c :: d :: r => some (a.toNat * 16777216 + b.toNat * 65536 + c.toNat * 256 + d.toNat, r)
  | _ => none
/-- Read a four-byte signed field. -/
def getInt (l : List Byte) : Option (Int × List Byte) :=
  (get32 l).map fun x => ((BitVec.ofNat 32 x.1).toInt, x.2)
/-- Read yes or no; any other code is none of the field's (R173). -/
def getBool : List Byte → Option (Bool × List Byte)
  | b :: r => if b = 0#8 then some (false, r) else if b = 1#8 then some (true, r) else none
  | [] => none
/-- Read an optional field (R172); an absent one occupies its full size. -/
def getOpt {α : Type} (size : Nat) (g : List Byte → Option (α × List Byte)) (l : List Byte) :
    Option (Option α × List Byte) :=
  match getBool l with
  | some (false, r) => if size ≤ r.length then some (none, r.drop size) else none
  | some (true, r) => (g r).map fun x => (some x.1, x.2)
  | none => none
/-- Read `k` items. -/
def getMany {α : Type} (g : List Byte → Option (α × List Byte)) : Nat → List Byte → Option (List α × List Byte)
  | 0, l => some ([], l)
  | k + 1, l =>
    match g l with
    | none => none
    | some (x, r) => (getMany g k r).map fun y => (x :: y.1, y.2)
/-- Read a list (R172). -/
def getList {α : Type} (g : List Byte → Option (α × List Byte)) (l : List Byte) : Option (List α × List Byte) :=
  match get8 l with
  | none => none
  | some (k, r) => getMany g k r

/-! ### Codes of the enumerated fields (R173, chapter 1) -/

/-- Code of an optional class: 0 RELEASE, NOTE or none (R13, R173). -/
def classCode : Option Severity → Nat
  | none => 0
  | some .slow => 1
  | some .fast => 2
  | some .opened => 3
/-- Class of a code (R13). -/
def classOf : Nat → Option (Option Severity)
  | 0 => some none
  | 1 => some (some .slow)
  | 2 => some (some .fast)
  | 3 => some (some .opened)
  | _ => none
/-- Frame kind code (R5). -/
def kindCode : FrameKind → Nat
  | .sample => 0x11 | .status => 0x12 | .setpoint => 0x21 | .group => 0x22 | .gap => 0x23
  | .stop => 0x31 | .manage => 0x41 | .reply => 0x42 | .notice => 0x43 | .pattern => 0x51
/-- Frame kind of a code (R5). -/
def kindOf : Nat → Option FrameKind
  | 0x11 => some .sample | 0x12 => some .status | 0x21 => some .setpoint | 0x22 => some .group | 0x23 => some .gap
  | 0x31 => some .stop | 0x41 => some .manage | 0x42 => some .reply | 0x43 => some .notice | 0x51 => some .pattern
  | _ => none
/-- Quality code (R9). -/
def qualityCode : Quality → Nat
  | .raw => 0 | .good => 1 | .clamped => 2 | .suspect => 3 | .failed => 4
/-- Quality of a code (R7: above 4 fails). -/
def qualityOf : Nat → Option Quality
  | 0 => some .raw | 1 => some .good | 2 => some .clamped | 3 => some .suspect | 4 => some .failed
  | _ => none
/-- Drive state code (R10). -/
def driveCode : DriveState → Nat
  | .ready => 0 | .active => 1 | .fault => 2
/-- Drive state of a code (R7: above 2 fails). -/
def driveOf : Nat → Option DriveState
  | 0 => some .ready | 1 => some .active | 2 => some .fault
  | _ => none
/-- Setpoint kind code (R11). -/
def setpointCode : SetpointKind → Nat
  | .preset => 1 | .trim => 2 | .move => 3
/-- Setpoint kind of a code (R7: 0 or above 3 fails). -/
def setpointOf : Nat → Option SetpointKind
  | 1 => some .preset | 2 => some .trim | 3 => some .move
  | _ => none
/-- The setpoint kind of a group kind (R11). -/
def groupSetpoint : GroupKind → SetpointKind
  | .trim => .trim
  | .move => .move
/-- Group kind of a code (R7: other than 2 or 3 fails). -/
def groupKindOf : Nat → Option GroupKind
  | 2 => some .trim | 3 => some .move
  | _ => none

/-! ### Frames -/

/-- A frame: header and payload. Its payload length and its check code are functions of these (R1, R2). -/
structure Frame where
  dest : Byte
  source : Byte
  kind : FrameKind
  payload : List Byte
  deriving DecidableEq, Repr

/-- Header and payload in the order sent (R1). -/
def Frame.message (f : Frame) : List Byte :=
  [f.dest, f.source, BitVec.ofNat 8 (kindCode f.kind), BitVec.ofNat 8 f.payload.length] ++ f.payload

/-- The frame as it stands on the line, check code included, high byte first (R1, R2). -/
def Frame.bytes (f : Frame) : List Byte := f.message ++ put16 (checkCode f.message).toNat

/-- Length of the frame in bytes (R1). -/
def Frame.size (f : Frame) : Nat := f.payload.length + 6

/-- Does the payload length suit the kind (R5, test 6)? -/
def lengthSuits : FrameKind → Nat → Bool
  | .sample, n => n == 14
  | .status, n => n == 9
  | .setpoint, n => n == 7
  | .group, n => n == 7
  | .gap, n => n == 7
  | .stop, n => n == 4
  | .manage, n => 2 ≤ n && n ≤ 240
  | .reply, n => 3 ≤ n && n ≤ 240
  | .notice, n => 6 ≤ n && n ≤ 240
  | .pattern, n => n == 66

/-- Are source and destination allowed (R6, test 7)? `own` is the own node number. -/
def addressesAllowed (own : Nat) (k : FrameKind) (dest source : Byte) : Bool :=
  match k with
  | .pattern => dest == 0#8 && source == 0#8
  | _ => source != 0#8 && source != Config.broadcast && source.toNat != own && dest != 0#8

/-! ### Payloads -/

/-- SAMPLE payload bytes (R9). -/
def putSample (f : SampleFields) : List Byte :=
  [f.point] ++ putInt f.raw ++ put32 f.lengthCount.toNat ++ putInt f.eng ++ put8 (qualityCode f.quality)
/-- SAMPLE payload fields (R9). -/
def getSample (l : List Byte) : Option SampleFields := do
  let (point, l) ← get8 l
  let (raw, l) ← getInt l
  let (len, l) ← get32 l
  let (eng, l) ← getInt l
  let (q, _) ← get8 l
  let quality ← qualityOf q
  some ⟨BitVec.ofNat 8 point, raw, BitVec.ofNat 32 len, eng, quality⟩
/-- STATUS payload bytes (R10). -/
def putStatus (f : StatusFields) : List Byte := putInt f.actual ++ putInt f.echo ++ put8 (driveCode f.drive)
/-- STATUS payload fields (R10). -/
def getStatus (l : List Byte) : Option StatusFields := do
  let (actual, l) ← getInt l
  let (echo, l) ← getInt l
  let (d, _) ← get8 l
  let drive ← driveOf d
  some ⟨actual, echo, drive⟩
/-- SETPOINT payload fields (R11); a stand of 0 or above 8 fails test 8 (R7). -/
def getSetpoint (l : List Byte) : Option SetpointFields := do
  let (stand, l) ← get8 l
  let (sequence, l) ← get8 l
  let (k, l) ← get8 l
  let (value, _) ← getInt l
  let kind ← setpointOf k
  if h : stand - 1 < 8 ∧ stand ≠ 0 then some ⟨⟨stand - 1, h.1⟩, BitVec.ofNat 8 sequence, kind, value⟩ else none
/-- GROUP payload fields (R11). -/
def getGroup (l : List Byte) : Option GroupFields := do
  let (sequence, l) ← get8 l
  let (mask, l) ← get8 l
  let (k, l) ← get8 l
  let (value, _) ← getInt l
  let kind ← groupKindOf k
  some ⟨BitVec.ofNat 8 sequence, BitVec.ofNat 8 mask, kind, value⟩
/-- STOP payload fields (R13). -/
def getStop (l : List Byte) : Option StopFields := do
  let (c, l) ← get8 l
  let (mask, l) ← get8 l
  let (entry, l) ← get8 l
  let (count, _) ← get8 l
  let cls ← classOf c
  some ⟨cls, BitVec.ofNat 8 mask, BitVec.ofNat 8 entry, BitVec.ofNat 8 count⟩

/-- Do the enumerated fields of the kind hold defined codes (R7, test 8)? -/
def codesDefined (k : FrameKind) (payload : List Byte) : Bool :=
  match k with
  | .sample => (getSample payload).isSome
  | .status => (getStatus payload).isSome
  | .setpoint => (getSetpoint payload).isSome
  | .group => (getGroup payload).isSome
  | .gap => (payload.getD 5 0#8) &&& 0xC0#8 == 0#8
  | .stop => (getStop payload).isSome
  | .manage | .reply | .notice | .pattern => true

/-! ### Judging a frame at arrival (R4) -/

/-- The verdict of the eight tests (R4). -/
inductive Verdict where
  | malformed
  | check
  | valid (f : Frame)
  deriving DecidableEq, Repr

/-- The data symbols of a burst (R19). -/
def nibbles : List Symbol → List (BitVec 4)
  | [] => []
  | .data n :: r => n :: nibbles r
  | _ :: r => nibbles r

/-- Is every symbol between the delimiters a data symbol (R4, test 3)? -/
def allData : List Symbol → Bool
  | [] => true
  | .data _ :: r => allData r
  | _ :: _ => false

/-- Bytes of data symbols, the high-order half first (R1). -/
def pairUp : List (BitVec 4) → List Byte
  | h :: l :: r => (h ++ l) :: pairUp r
  | _ => []

/-- Tests 4 to 8 of R4 on the bytes of a frame whose check code matches. -/
def judgeFields (own : Nat) : List Byte → Verdict
  | dest :: source :: kind :: len :: rest =>
    let payload := rest.take (rest.length - 2)
    if len.toNat != payload.length then .malformed else
    match kindOf kind.toNat with
    | none => .malformed
    | some k =>
      if lengthSuits k payload.length && addressesAllowed own k dest source && codesDefined k payload then
        .valid ⟨dest, source, k, payload⟩
      else .malformed
  | _ => .malformed

/-- The eight tests of R4 in their order: more than 246 bytes, an odd number of data symbols or fewer than 6
bytes, a non-data symbol or a wrong check code, and then the fields. -/
def judge (own : Nat) (burst : List Symbol) : Verdict :=
  let ns := nibbles burst
  if 247 ≤ ns.length / 2 then .malformed
  else if ns.length % 2 = 1 || ns.length < 12 then .malformed
  else if !allData burst || checkCode (pairUp ns) != 0#16 then .check
  else judgeFields own (pairUp ns)

/-- The burst a frame makes on the line: every byte as two data symbols (R1). -/
def symbolsOf : List Byte → List Symbol
  | [] => []
  | b :: r => .data (b.extractLsb' 4 4) :: .data (b.extractLsb' 0 4) :: symbolsOf r

/-! ### Pattern sequence (R16) -/

/-- The next bit of the sequence: exclusive-or of the register's 15th and 14th bits (R16). -/
def patternBit (r : BitVec 15) : Bool := r.getLsbD 14 != r.getLsbD 13

/-- The register after one step: the new bit shifted in at the low end (R16). -/
def patternStep (r : BitVec 15) : BitVec 15 := (r <<< 1) ||| (BitVec.ofBool (patternBit r)).setWidth 15

/-- The next `k` output bits and the register after them. -/
def patternDraw : Nat → BitVec 15 → List Bool × BitVec 15
  | 0, r => ([], r)
  | k + 1, r =>
    let rest := patternDraw k (patternStep r)
    (patternBit r :: rest.1, rest.2)

/-- Bits to bytes, most significant bit first (R16). -/
def packBits : List Bool → List Byte
  | a :: b :: c :: d :: e :: f :: g :: h :: r =>
    BitVec.ofNat 8 (a.toNat * 128 + b.toNat * 64 + c.toNat * 32 + d.toNat * 16 + e.toNat * 8 + f.toNat * 4
      + g.toNat * 2 + h.toNat) :: packBits r
  | _ => []

/-- Bytes to bits, most significant bit first (R16). -/
def unpackBits (l : List Byte) : List Bool :=
  l.flatMap fun b => [7, 6, 5, 4, 3, 2, 1, 0].map fun i => b.getLsbD i

/-- A register loaded from the last 15 bits output (R35). -/
def patternLoad (l : List Bool) : BitVec 15 :=
  l.foldl (fun r b => (r <<< 1) ||| (BitVec.ofBool b).setWidth 15) 0#15

end Sys2Proof.Machine
end

