-- ==== Sys2Proof/Machine/Operands.lean ====
section
/-! DEFINITION. The encoding of records and of management requests (R172, R173): a record carries its fields in the
order of the table that defines it; the widths are those of log 8. -/

namespace Sys2Proof.Machine

/-! ### Codes -/

/-- Role code: position in R17's table (R173). -/
def roleCode : Role → Nat
  | .line => 0 | .stand => 1 | .sensor => 2 | .panel => 3 | .disabled => 4
/-- Role of a code. -/
def roleOf : Nat → Option Role
  | 0 => some .line | 1 => some .stand | 2 => some .sensor | 3 => some .panel | 4 => some .disabled
  | _ => none
/-- Test mode code: position in section 2.6 (R173). -/
def modeCode : TestMode → Nat
  | .none => 0 | .localLoop => 1 | .remoteLoop => 2 | .pattern => 3
/-- Test mode of a code. -/
def modeOf : Nat → Option TestMode
  | 0 => some .none | 1 => some .localLoop | 2 => some .remoteLoop | 3 => some .pattern
  | _ => Option.none
/-- Channel type code (R63, R173). -/
def typeCode : ChannelType → Nat
  | .thickness => 0 | .force => 1 | .speed => 2 | .tension => 3 | .marker => 4
/-- Channel type of a code. -/
def typeOf : Nat → Option ChannelType
  | 0 => some .thickness | 1 => some .force | 2 => some .speed | 3 => some .tension | 4 => some .marker
  | _ => none
/-- Failure treatment code (R63, R173). -/
def treatmentCode : Treatment → Nat
  | .hold => 0 | .mute => 1
/-- Failure treatment of a code. -/
def treatmentOf : Nat → Option Treatment
  | 0 => some .hold | 1 => some .mute
  | _ => none
/-- Hold mode code (R105, R173). -/
def holdModeCode : HoldMode → Nat
  | .latched => 0 | .persistent => 1
/-- Hold mode of a code. -/
def holdModeOf : Nat → Option HoldMode
  | 0 => some .latched | 1 => some .persistent
  | _ => none
/-- Condition kind code (R173). -/
def condCode : CondKind → Nat
  | .link => 0 | .silent => 1 | .babble => 2 | .rate => 3 | .storm => 4 | .panel => 5 | .stale => 6 | .failed => 7
  | .high => 8 | .low => 9 | .moveFailed => 10 | .following => 11 | .hold => 12 | .driveFault => 13
  | .scheduleMissing => 14 | .trackLimit => 15
/-- Condition kind of a code (R173); 16 REQUEST is no kind of an entry. -/
def condOf : Nat → Option CondKind
  | 0 => some .link | 1 => some .silent | 2 => some .babble | 3 => some .rate | 4 => some .storm | 5 => some .panel
  | 6 => some .stale | 7 => some .failed | 8 => some .high | 9 => some .low | 10 => some .moveFailed
  | 11 => some .following | 12 => some .hold | 13 => some .driveFault | 14 => some .scheduleMissing
  | 15 => some .trackLimit
  | _ => none

/-- An enumerated one-byte field: a code outside its table is none of its values (R173). -/
def getCode {α : Type} (f : Nat → Option α) (l : List Byte) : Option (α × List Byte) :=
  match get8 l with
  | none => none
  | some (n, r) => (f n).map fun x => (x, r)

/-- Two one-byte numbers: a node and a port (R51, R105). -/
def putPair (p : Nat × Nat) : List Byte := put8 p.1 ++ put8 p.2
/-- Read two one-byte numbers. -/
def getPair (l : List Byte) : Option ((Nat × Nat) × List Byte) := do
  let (a, l) ← get8 l
  let (b, l) ← get8 l
  some ((a, b), l)
/-- A breakpoint (R63). -/
def putPoint (p : Int × Int) : List Byte := putInt p.1 ++ putInt p.2
/-- Read a breakpoint. -/
def getPoint (l : List Byte) : Option ((Int × Int) × List Byte) := do
  let (a, l) ← getInt l
  let (b, l) ← getInt l
  some ((a, b), l)
/-- A gauge: channel and distance (R82). -/
def putGauge (g : Nat × Nat) : List Byte := put8 g.1 ++ put16 g.2
/-- Read a gauge. -/
def getGauge (l : List Byte) : Option ((Nat × Nat) × List Byte) := do
  let (a, l) ← get8 l
  let (b, l) ← get16 l
  some ((a, b), l)

/-! ### Records -/

/-- Port record bytes (R17). -/
def putPort (r : PortRecord) : List Byte :=
  put8 (roleCode r.role) ++ putBool r.nodeLock ++ put8 r.reservation ++ put8 r.silenceTime ++ put8 r.stormWindow
    ++ put16 r.rising ++ put16 r.falling
/-- Port record of bytes (R17). -/
def getPort (l : List Byte) : Option (PortRecord × List Byte) := do
  let (role, l) ← getCode roleOf l
  let (lock, l) ← getBool l
  let (res, l) ← get8 l
  let (sil, l) ← get8 l
  let (win, l) ← get8 l
  let (hi, l) ← get16 l
  let (lo, l) ← get16 l
  some (⟨role, lock, res, sil, win, hi, lo⟩, l)

/-- Part-wide record bytes (R51). -/
def putPartWide (r : PartWide) : List Byte := put8 r.own ++ put16 r.aging ++ putList putPair r.bindings
/-- Part-wide record of bytes (R51). -/
def getPartWide (l : List Byte) : Option (PartWide × List Byte) := do
  let (own, l) ← get8 l
  let (aging, l) ← get16 l
  let (b, l) ← getList getPair l
  some (⟨own, aging, b⟩, l)

/-- Channel record bytes (R63). -/
def putChannel (r : ChannelRecord) : List Byte :=
  putBool r.enabled ++ put8 r.node ++ put8 r.point ++ put8 (typeCode r.type) ++ putList putPoint r.table
    ++ putInt r.engMin ++ putInt r.engMax ++ put32 r.stepLimit ++ put32 r.lengthLimit ++ put8 r.rejectLimit
    ++ put16 r.staleTime ++ put8 (treatmentCode r.treatment) ++ putOpt 4 putInt r.high ++ putOpt 4 putInt r.low
/-- Channel record of bytes (R63). -/
def getChannel (l : List Byte) : Option (ChannelRecord × List Byte) := do
  let (en, l) ← getBool l
  let (node, l) ← get8 l
  let (point, l) ← get8 l
  let (ty, l) ← getCode typeOf l
  let (table, l) ← getList getPoint l
  let (mn, l) ← getInt l
  let (mx, l) ← getInt l
  let (step, l) ← get32 l
  let (len, l) ← get32 l
  let (rej, l) ← get8 l
  let (stale, l) ← get16 l
  let (tr, l) ← getCode treatmentOf l
  let (hi, l) ← getOpt 4 getInt l
  let (lo, l) ← getOpt 4 getInt l
  some (⟨en, node, point, ty, table, mn, mx, step, len, rej, stale, tr, hi, lo⟩, l)

/-- Span record bytes (R82). -/
def putSpan (r : SpanRecord) : List Byte :=
  putBool r.enabled ++ put8 r.upstream ++ put8 r.downstream ++ put16 r.length ++ put16 r.segment ++ put8 r.capacity
    ++ put8 r.push ++ put8 r.pop ++ putOpt 3 putGauge r.gauge ++ putOpt 1 put8 r.marker
/-- Span record of bytes (R82). -/
def getSpan (l : List Byte) : Option (SpanRecord × List Byte) := do
  let (en, l) ← getBool l
  let (up, l) ← get8 l
  let (down, l) ← get8 l
  let (len, l) ← get16 l
  let (seg, l) ← get16 l
  let (cap, l) ← get8 l
  let (push, l) ← get8 l
  let (pop, l) ← get8 l
  let (g, l) ← getOpt 3 getGauge l
  let (m, l) ← getOpt 1 get8 l
  some (⟨en, up, down, len, seg, cap, push, pop, g, m⟩, l)

/-- Stand record bytes (R105). -/
def putStand (r : StandRecord) : List Byte :=
  putBool r.configured ++ put8 r.node ++ put8 r.port ++ putList putPair r.extras ++ put8 r.force ++ put16 r.modulus
    ++ putInt r.zero ++ putInt r.limLo ++ putInt r.limHi ++ putInt r.openPos ++ put16 r.rateStep ++ put16 r.moveStep
    ++ put16 r.band ++ put16 r.moveTime ++ put16 r.biteOn ++ put16 r.biteOff ++ put32 r.followLimit
    ++ put8 r.followCount ++ put8 (holdModeCode r.holdMode) ++ put16 r.holdTime
/-- Stand record of bytes (R105). -/
def getStand (l : List Byte) : Option (StandRecord × List Byte) := do
  let (conf, l) ← getBool l
  let (node, l) ← get8 l
  let (port, l) ← get8 l
  let (ex, l) ← getList getPair l
  let (force, l) ← get8 l
  let (m, l) ← get16 l
  let (z, l) ← getInt l
  let (lo, l) ← getInt l
  let (hi, l) ← getInt l
  let (op, l) ← getInt l
  let (rate, l) ← get16 l
  let (move, l) ← get16 l
  let (band, l) ← get16 l
  let (mt, l) ← get16 l
  let (bon, l) ← get16 l
  let (boff, l) ← get16 l
  let (fl, l) ← get32 l
  let (fc, l) ← get8 l
  let (hm, l) ← getCode holdModeOf l
  let (ht, l) ← get16 l
  some (⟨conf, node, port, ex, force, m, z, lo, hi, op, rate, move, band, mt, bon, boff, fl, fc, hm, ht⟩, l)

/-- Pass record bytes (R107). -/
def putPass (r : PassRecord) : List Byte :=
  put8 r.id ++ putInt r.entryThickness ++ putInt r.exitThickness ++ putInt r.preset ++ putInt r.winLo
    ++ putInt r.winHi ++ put16 r.kFb ++ put16 r.kFf ++ put16 r.kMon ++ put16 r.corrLimit ++ put16 r.trimLimit
/-- Size of an encoded pass record. -/
def passSize : Nat := 31
/-- Pass record of bytes (R107). -/
def getPass (l : List Byte) : Option (PassRecord × List Byte) := do
  let (id, l) ← get8 l
  let (he, l) ← getInt l
  let (hx, l) ← getInt l
  let (s0, l) ← getInt l
  let (wl, l) ← getInt l
  let (wh, l) ← getInt l
  let (kfb, l) ← get16 l
  let (kff, l) ← get16 l
  let (kmon, l) ← get16 l
  let (cl, l) ← get16 l
  let (tl, l) ← get16 l
  some (⟨id, he, hx, s0, wl, wh, kfb, kff, kmon, cl, tl⟩, l)

/-- Trip entry record bytes (R158). -/
def putTripEntry (r : TripEntryRecord) : List Byte :=
  putBool r.enabled ++ put8 (condCode r.cond.kind) ++ put8 r.cond.source ++ put16 r.delay ++ put8 (classCode r.cls)
    ++ [r.mask]
/-- Trip entry record of bytes (R158). -/
def getTripEntry (l : List Byte) : Option (TripEntryRecord × List Byte) := do
  let (en, l) ← getBool l
  let (k, l) ← getCode condOf l
  let (src, l) ← get8 l
  let (delay, l) ← get16 l
  let (cls, l) ← getCode classOf l
  let (mask, l) ← get8 l
  some (⟨en, ⟨k, src⟩, delay, cls, BitVec.ofNat 8 mask⟩, l)

/-! ### Requests -/

/-- Outcome of decoding a MANAGE body (R171). -/
inductive Decoded where
  | unknown
  | badBody
  | ok (r : Request)
  deriving DecidableEq, Repr

/-- A body must be used up: any other length does not fit the request (R171). -/
def whole (x : Option (Request × List Byte)) : Decoded :=
  match x with
  | some (r, []) => .ok r
  | _ => .badBody

/-- A request with one number (R173). -/
def one (f : Nat → Request) (l : List Byte) : Decoded := whole ((get8 l).map fun x => (f x.1, x.2))
/-- A request with two numbers (R173). -/
def two (f : Nat → Nat → Request) (l : List Byte) : Decoded := whole do
  let (a, l) ← get8 l
  let (b, l) ← get8 l
  some (f a b, l)
/-- A read: form byte 0 or 1, then the number (R173). -/
def reading (f : Bool → Nat → Request) (l : List Byte) : Decoded := whole do
  let (c, l) ← getBool l
  let (n, l) ← get8 l
  some (f c n, l)
/-- A load: number, then record (R173). -/
def loading {α : Type} (g : List Byte → Option (α × List Byte)) (f : Nat → α → Request) (l : List Byte) : Decoded :=
  whole do
    let (n, l) ← get8 l
    let (r, l) ← g l
    some (f n r, l)
/-- A request without a body. -/
def bare (r : Request) (l : List Byte) : Decoded := whole (some (r, l))

/-- IDENTIFY: an empty body, or one byte that is 1 to clear (R174); 0 is not a value R174 gives, so it is refused
like any other. -/
def decodeIdentify : List Byte → Decoded
  | [] => .ok (.identify false)
  | [b] => if b = 1#8 then .ok (.identify true) else .badBody
  | _ => .badBody

/-- LOAD PORT: form byte 0 for a port, 1 for the part-wide record (R173). -/
def decodeLoadPort (l : List Byte) : Decoded :=
  match getBool l with
  | some (false, r) => loading getPort .loadPort r
  | some (true, r) => whole ((getPartWide r).map fun x => (.loadPartWide x.1, x.2))
  | none => .badBody

/-- LOAD TRIP ENTRY: form byte 0 for an entry, 1 for the repeat interval (R173). -/
def decodeLoadTripEntry (l : List Byte) : Decoded :=
  match getBool l with
  | some (false, r) => loading getTripEntry .loadTripEntry r
  | some (true, r) => one .loadTripInterval r
  | none => .badBody

/-- LOAD PASS: stand, target 0 CURRENT or 1 NEXT, record (R107, R173). -/
def decodeLoadPass (l : List Byte) : Decoded := whole do
  let (n, l) ← get8 l
  let (next, l) ← getBool l
  let (p, l) ← getPass l
  some (if next then .loadPassNext n p else .loadPassCurrent n p, l)

/-- LOAD STAND: stand, record, optional CURRENT pass (R106). -/
def decodeLoadStand (l : List Byte) : Decoded := whole do
  let (n, l) ← get8 l
  let (r, l) ← getStand l
  let (p, l) ← getOpt passSize getPass l
  some (.loadStand n r p, l)

/-- READ SPAN: form, span, first index (R104). -/
def decodeReadSpan (l : List Byte) : Decoded := whole do
  let (c, l) ← getBool l
  let (n, l) ← get8 l
  let (k, l) ← get8 l
  some (.readSpan c n k, l)

/-- The request of a code and a body (R14, R171, R173). -/
def decodeRequest (code : Nat) (l : List Byte) : Decoded :=
  match code with
  | 0x01 => decodeIdentify l
  | 0x10 => reading .readPort l
  | 0x11 => reading .readChannel l
  | 0x12 => reading .readStand l
  | 0x13 => decodeReadSpan l
  | 0x14 => reading .readTripLog l
  | 0x15 => reading (fun _ n => .readNodeTable n) l
  | 0x20 => decodeLoadPort l
  | 0x21 => loading getChannel .loadChannel l
  | 0x22 => decodeLoadStand l
  | 0x23 => loading getSpan .loadSpan l
  | 0x24 => decodeLoadPass l
  | 0x25 => decodeLoadTripEntry l
  | 0x26 => two .bindNode l
  | 0x27 => one .unbindNode l
  | 0x30 => one .admitStand l
  | 0x31 => one .bypass l
  | 0x32 => one .switchPass l
  | 0x33 => one .clearHold l
  | 0x34 => two (fun c m => .stop c (BitVec.ofNat 8 m)) l
  | 0x35 => one (fun m => .resetTrip (BitVec.ofNat 8 m)) l
  | 0x36 => one .flushSpan l
  | 0x40 => two .setPortTest l
  | 0x41 => one .injectError l
  | 0x50 => bare .storeEnable l
  | 0x51 => bare .storeDisable l
  | 0x52 => one .storeSave l
  | 0x53 => one .storeErase l
  | 0x54 => one .storeProtect l
  | 0x60 => bare .restart l
  | _ => .unknown

/-- The request code a request is answered under (R14). -/
def requestCode : Request → Nat
  | .identify _ => 0x01 | .readPort _ _ => 0x10 | .readChannel _ _ => 0x11 | .readStand _ _ => 0x12
  | .readSpan _ _ _ => 0x13 | .readTripLog _ _ => 0x14 | .readNodeTable _ => 0x15 | .loadPort _ _ => 0x20
  | .loadPartWide _ => 0x20 | .loadChannel _ _ => 0x21 | .loadStand _ _ _ => 0x22 | .loadSpan _ _ => 0x23
  | .loadPassCurrent _ _ => 0x24 | .loadPassNext _ _ => 0x24 | .loadTripEntry _ _ => 0x25
  | .loadTripInterval _ => 0x25 | .bindNode _ _ => 0x26 | .unbindNode _ => 0x27 | .admitStand _ => 0x30
  | .bypass _ => 0x31 | .switchPass _ => 0x32 | .clearHold _ => 0x33 | .stop _ _ => 0x34 | .resetTrip _ => 0x35
  | .flushSpan _ => 0x36 | .setPortTest _ _ => 0x40 | .injectError _ => 0x41 | .storeEnable => 0x50
  | .storeDisable => 0x51 | .storeSave _ => 0x52 | .storeErase _ => 0x53 | .storeProtect _ => 0x54 | .restart => 0x60

/-- The body that carries a request (R173): the sender's side, used to state that decoding reads it back. -/
def encodeRequest : Request → List Byte
  | .identify c => if c then [1#8] else []
  | .readPort c n => putBool c ++ put8 n
  | .readChannel c n => putBool c ++ put8 n
  | .readStand c n => putBool c ++ put8 n
  | .readSpan c n k => putBool c ++ put8 n ++ put8 k
  | .readTripLog c n => putBool c ++ put8 n
  | .readNodeTable n => putBool false ++ put8 n
  | .loadPort n r => putBool false ++ put8 n ++ putPort r
  | .loadPartWide r => putBool true ++ putPartWide r
  | .loadChannel n r => put8 n ++ putChannel r
  | .loadStand n r p => put8 n ++ putStand r ++ putOpt passSize putPass p
  | .loadSpan n r => put8 n ++ putSpan r
  | .loadPassCurrent n p => put8 n ++ putBool false ++ putPass p
  | .loadPassNext n p => put8 n ++ putBool true ++ putPass p
  | .loadTripEntry n r => putBool false ++ put8 n ++ putTripEntry r
  | .loadTripInterval n => putBool true ++ put8 n
  | .bindNode n p => put8 n ++ put8 p
  | .unbindNode n => put8 n
  | .admitStand n => put8 n
  | .bypass n => put8 n
  | .switchPass n => put8 n
  | .clearHold n => put8 n
  | .stop c m => put8 c ++ [m]
  | .resetTrip m => [m]
  | .flushSpan n => put8 n
  | .setPortTest p m => put8 p ++ put8 m
  | .injectError p => put8 p
  | .storeEnable => []
  | .storeDisable => []
  | .storeSave n => put8 n
  | .storeErase n => put8 n
  | .storeProtect n => put8 n
  | .restart => []

end Sys2Proof.Machine
end

