-- ==== Sys2Proof/Machine/State.lean ====
section
/-! DEFINITION. The state of the TC-840: everything the spec gives it, as plain data, and the state at reset. Levels the
spec defines as functions of other state (LINK, BABBLE, STORM, STALE, FAILED, HOLD, the output lines, the block counts
u_p and s) are computed from it in Machine/Flags.lean and Machine/Ops.lean, not stored twice. -/

namespace Sys2Proof.Machine

/-! ### Outcomes -/

/-- Faults: the spec names no event that stops the part, so there is none (safe: no command can fault). -/
inductive Fault where
  deriving DecidableEq, Repr

/-- Refusals. -/
inductive Refusal where
  /-- Raised by `exec` for a command that has no meaning yet (safe: the run stops); no arm of this model answers it. -/
  | notModelled (mnemonic : String)
  deriving DecidableEq, Repr

/-! ### Link ports (chapters 2 and 3) -/

/-- Link states (R21), in the order that gives their codes (R173). -/
inductive LinkState where
  | disabled | down | sync | up | babble
  deriving DecidableEq, Repr

/-- Where a held block was taken from (R41). -/
inductive BlockTag where
  | reserved (port : Nat)
  | shared
  deriving DecidableEq, Repr

/-- A burst being received (R19, R42): the blocks claimed so far and the short-of-buffer mark. `claims` counts the
claims made, granted or not. -/
structure Burst where
  tags : List BlockTag
  claims : Nat
  short : Bool
  deriving DecidableEq, Repr

/-- Pattern checker (R35). -/
structure Checker where
  inSync : Bool
  goodRun : Nat
  badRun : Nat
  register : BitVec 15
  deriving DecidableEq, Repr

/-- A stop order in a stop slot (R46). -/
structure StopOrder where
  cls : Severity
  mask : Byte
  entry : Nat
  count : Byte
  dest : Byte
  deriving DecidableEq, Repr

/-- A GAP command in a command slot (R46, R12). -/
structure GapCommand where
  command : Int
  pass : Nat
  flags : Byte
  stand : Nat
  dest : Byte
  deriving DecidableEq, Repr

/-- The frame a transmitter is sending, and the reference it holds on a stored frame (R49). -/
structure Sending where
  frame : Frame
  held : Option Nat
  deriving DecidableEq, Repr

/-- The twelve counters of a port (R38). -/
structure PortCounters where
  received : Nat := 0
  check : Nat := 0
  malformed : Nat := 0
  role : Nat := 0
  noRoute : Nat := 0
  conflict : Nat := 0
  storm : Nat := 0
  noBuffer : Nat := 0
  queueFull : Nat := 0
  sent : Nat := 0
  stopSent : Nat := 0
  patternErrors : Nat := 0
  deriving DecidableEq, Repr

/-- One link port (R17 to R50). `burst` is the burst being received from the line (R19); `loop` is there while the frame
the port sends goes into its own receiver, and holds what that receiver has taken of it (R32). -/
structure Port where
  record : PortRecord
  link : LinkState
  energy : Bool
  idleRun : Nat
  mode : TestMode
  burst : Option Burst
  loop : Option Burst
  silenceTimer : Option Nat
  silent : Bool
  rateLeft : Nat
  rateSpoiled : Bool
  rate : Bool
  limiting : Bool
  stormCount : Nat
  stormLeft : Nat
  panel : Bool
  checker : Checker
  patternRegister : BitVec 15
  patternIndex : Half
  injection : Bool
  stopSlot : Option StopOrder
  commandSlot : Option GapCommand
  queue : List Nat
  sending : Option Sending
  counters : PortCounters
  deriving DecidableEq, Repr

/-- A frame held in the buffer (R41, R43). `id` is the model's name for it. -/
structure HeldFrame where
  id : Nat
  frame : Frame
  tags : List BlockTag
  refs : Nat
  deriving DecidableEq, Repr

/-- The link side of the part: ports, frame buffer, dropped-notice counter (R45). -/
structure Net where
  ports : Vector Port 12
  frames : List HeldFrame
  nextId : Nat
  dropped : Nat
  deriving DecidableEq, Repr

/-- State of a node-table entry (R51). -/
inductive Binding where
  | empty
  | learned (port age : Nat)
  | bound (port : Nat)
  | static (port : Nat)
  deriving DecidableEq, Repr

/-- A node-table entry with its conflict-report field (R51). -/
structure NodeEntry where
  binding : Binding
  conflict : Option Nat
  deriving DecidableEq, Repr

/-! ### Gauge channels (chapter 4) -/

/-- Channel states (R64), in the order that gives their codes. -/
inductive ChannelState where
  | off | waiting | valid | suspect | stale | failed
  deriving DecidableEq, Repr

/-- One gauge channel (R63, R64). -/
structure Channel where
  record : ChannelRecord
  state : ChannelState
  value : Int
  valueAccepted : Bool
  rejectCount : Nat
  recoveryRun : Nat
  lastCalibrated : Option (Int × Quad)
  lengthRef : Option Quad
  staleTimer : Option Nat
  high : Bool
  low : Bool
  matched : Nat
  accepted : Nat
  rejected : Nat
  muted : Nat
  deriving DecidableEq, Repr

/-! ### Spans (chapter 5) -/

/-- Span states (R85). -/
inductive SpanState where
  | idle | filling | running | emptying
  deriving DecidableEq, Repr

/-- A segment (R85). -/
structure Segment where
  number : Half
  estimated : Option Int
  measured : Option Int
  pass : Option Nat
  weld : Bool
  deriving DecidableEq, Repr

/-- The seven counters of a span (R85). -/
structure SpanCounters where
  pushes : Nat := 0
  pops : Nat := 0
  overrun : Nat := 0
  underrun : Nat := 0
  discarded : Nat := 0
  flushes : Nat := 0
  weldsLost : Nat := 0
  deriving DecidableEq, Repr

/-- One span (R82, R85); the queue's head is the oldest segment. -/
structure Span where
  record : SpanRecord
  state : SpanState
  queue : List Segment
  pushAcc : Nat
  popAcc : Nat
  nextSegment : Half
  stripPresent : Bool
  weldPending : Bool
  trackLimit : Bool
  counters : SpanCounters
  deriving DecidableEq, Repr

/-! ### Stands (chapters 6 to 9) -/

/-- A positioning move (R108, R118). -/
structure Move where
  target : Int
  timer : Nat
  run : Nat
  deriving DecidableEq, Repr

/-- What a TRIPPED stand holds: class, trip entry, repeat count and repeat timer (R108, R160, R162). -/
structure Trip where
  cls : Severity
  entry : Nat
  count : Byte
  timer : Nat
  deriving DecidableEq, Repr

/-- Stand states (R109) with the items present only in them (R108). -/
inductive StandMode where
  | out
  | ready
  | moving (m : Move)
  | rolling
  | tripped (t : Trip)
  deriving DecidableEq, Repr

/-- Error record (R146). -/
structure ErrorRecord where
  stand : Nat
  expected : Byte
  received : Byte
  kind : SetpointKind
  value : Int
  time : Quad
  group : Bool
  multiple : Bool
  deriving DecidableEq, Repr

/-- The eight counters of a stand (R108). -/
structure StandCounters where
  status : Nat := 0
  gaps : Nat := 0
  biteOns : Nat := 0
  biteOffs : Nat := 0
  movesDone : Nat := 0
  movesFailed : Nat := 0
  switches : Nat := 0
  weldsWithoutNext : Nat := 0
  deriving DecidableEq, Repr

/-- The five setpoint counts of a stand position (R154). -/
structure SetpointCounters where
  accepted : Nat := 0
  refused : Nat := 0
  duplicates : Nat := 0
  errors : Nat := 0
  ignored : Nat := 0
  deriving DecidableEq, Repr

/-- One stand position (R105, R107, R108, R143, R146). `cff = none` is an absent feedforward (R133); `lastActual` is the
last actual gap handled (R118). -/
structure Stand where
  record : StandRecord
  current : Option PassRecord
  next : Option PassRecord
  mode : StandMode
  base : Option Int
  lastCommand : Option Int
  cfb : Int
  cff : Option Int
  trim : Int
  estimate : Option Int
  biteOnRun : Nat
  biteOffRun : Nat
  followingRun : Nat
  handOn : Bool
  lastActual : Option Int
  moveFailed : Bool
  following : Bool
  driveFault : Bool
  scheduleMissing : Bool
  hold : Bool
  holdTimer : Option Nat
  sequence : Option Byte
  error : Option ErrorRecord
  counters : StandCounters
  setpoints : SetpointCounters
  deriving DecidableEq, Repr

/-- The group stream (R151, R154). -/
structure GroupStream where
  sequence : Option Byte := none
  accepted : Nat := 0
  duplicates : Nat := 0
  errors : Nat := 0
  deriving DecidableEq, Repr

/-! ### Trip unit (chapter 9) -/

/-- States of a trip entry (R159); TIMING holds the milliseconds left. -/
inductive EntryState where
  | idle
  | timing (left : Nat)
  | fired
  deriving DecidableEq, Repr

/-- A trip entry (R158, R159). -/
structure TripEntry where
  record : TripEntryRecord
  state : EntryState
  deriving DecidableEq, Repr

/-- What a log record names as its condition (R168, R173): a condition, or REQUEST and the arrival port. -/
inductive Cause where
  | cond (c : CondId)
  | request (port : Nat)
  deriving DecidableEq, Repr

/-- A trip log record (R168). -/
structure LogRecord where
  number : Half
  entry : Nat
  cause : Cause
  cls : Option Severity
  tripped : Byte
  first : Bool
  time : Quad
  deriving DecidableEq, Repr

/-- The trip unit (R155 to R170). -/
structure TripUnit where
  entries : Vector TripEntry 64
  interval : Nat
  protect : Bool
  log : List LogRecord
  nextRecord : Half
  firings : Nat
  ordersWritten : Nat
  evicted : Nat
  refusedResets : Nat
  deriving DecidableEq, Repr

/-! ### Setting store (chapter 11) -/

/-- Content of the PORTS section (R179). -/
structure PortsSection where
  ports : Vector PortRecord 12
  part : PartWide
  deriving DecidableEq, Repr

/-- Content of the STANDS section (R179). -/
structure StandsSection where
  stands : Vector StandRecord 8
  passes : Vector (Option PassRecord) 8
  spans : Vector SpanRecord 9
  deriving DecidableEq, Repr

/-- Content of the TRIP section (R179). -/
structure TripSection where
  entries : Vector TripEntryRecord 64
  interval : Nat
  protect : Bool
  deriving DecidableEq, Repr

/-- A stored section (R179, R180): a content and the check code stored beside it; neither an old content nor a new one, while
or after a write or an erase that has not been completed; or erased. Whether a held content is valid is judged by its code
(`Stored.read`). -/
inductive Stored (α : Type) where
  | holds (content : α) (code : Half)
  | spoiled
  | erased
  deriving DecidableEq, Repr

/-- A snapshot being written (R180, R182). -/
inductive Snapshot where
  | ports (c : PortsSection)
  | channels (c : Vector ChannelRecord 32)
  | stands (c : StandsSection)
  | trip (c : TripSection)
  deriving DecidableEq, Repr

/-- The operation in flight (R179). An erase names a section, or 4 for ALL. -/
inductive StoreOp where
  | save (content : Snapshot)
  | erase (sec : Nat)
  | protect (content : Snapshot)
  deriving DecidableEq, Repr

/-- Source and modified flag of a section (R175). -/
structure SectionStatus where
  stored : Bool
  modified : Bool
  deriving DecidableEq, Repr

/-- The setting store (R179) and the agent's note of each section (R175), PORTS, CHANNELS, STANDS, TRIP. -/
structure Store where
  ports : Stored PortsSection
  channels : Stored (Vector ChannelRecord 32)
  stands : Stored StandsSection
  trip : Stored TripSection
  op : Option StoreOp
  latch : Bool
  sections : Vector SectionStatus 4
  deriving DecidableEq, Repr

/-! ### The whole part -/

/-- Where the part stands between power-on and running (R184). -/
inductive Phase where
  | unpowered
  | heldInReset
  | reading
  | running
  deriving DecidableEq, Repr

/-- The state of the part. `supplyLow` says that the supply of a powered part is below 2.9 V (R186). `freeCount` and `pending`
are the model's own. -/
structure State where
  phase : Phase
  resetInput : Bool
  supplyLow : Bool
  time : Quad
  part : PartWide
  net : Net
  nodes : Vector NodeEntry 256
  channels : Vector Channel 32
  spans : Vector Span 9
  stands : Vector Stand 8
  group : GroupStream
  trip : TripUnit
  store : Store
  freeCount : Nat
  pending : List Instr
  deriving DecidableEq, Repr

/-! ### Built-in content (R187) and start-up values -/

/-- The built-in port record of a role (R17): NODE LOCK is on for STAND and SENSOR ports. -/
def builtInPort (role : Role) : PortRecord := ⟨role, role == .stand || role == .sensor, 8, 20, 10, 200, 100⟩

/-- The built-in PORTS section (R187). -/
def builtInPorts : PortsSection :=
  ⟨Vector.replicate 12 (builtInPort .disabled) |>.setIfInBounds 0 (builtInPort .line), ⟨254, 60, []⟩⟩

/-- A disabled channel's built-in record (R63); its other fields are a DESIGN CHOICE (log 7). -/
def builtInChannel : ChannelRecord :=
  ⟨false, 1, 0, .thickness, [(0, 0), (1, 1)], 0, 0, 1, 1, 1, 1, .hold, none, none⟩

/-- An unconfigured stand's built-in record (R105); its other fields are a DESIGN CHOICE (log 7). -/
def builtInStand : StandRecord :=
  ⟨false, 1, 0, [], 0, 500, 0, -100000, 800000, 0, 1, 1, 1, 100, 1, 0, 1, 1, .latched, 50⟩

/-- A disabled span's built-in record (R82); its other fields are a DESIGN CHOICE (log 7). -/
def builtInSpan : SpanRecord := ⟨false, 0, 0, 500, 50, 16, 0, 0, none, none⟩

/-- A disabled trip entry (R187); its other fields are a DESIGN CHOICE (log 7). -/
def builtInEntry : TripEntryRecord := ⟨false, ⟨.link, 0⟩, 0, none, 0#8⟩

/-- A port before its role is taken (R39): DISABLED, silent, every counter zero. The energy detector follows the cable. -/
def Port.cold (r : PortRecord) (energy : Bool) : Port :=
  { record := r, link := .disabled, energy := energy, idleRun := 0, mode := .none, burst := none, loop := none,
    silenceTimer := none, silent := false, rateLeft := 10, rateSpoiled := true, rate := false, limiting := false,
    stormCount := 0, stormLeft := r.stormWindow, panel := false, checker := ⟨false, 0, 0, 0#15⟩,
    patternRegister := BitVec.allOnes 15, patternIndex := 0#16, injection := false, stopSlot := none,
    commandSlot := none, queue := [], sending := none, counters := {} }

/-- A channel as its record puts it at start-up (R64): WAITING when enabled, OFF when not. -/
def Channel.start (r : ChannelRecord) : Channel :=
  { record := r, state := if r.enabled then .waiting else .off, value := r.engMin, valueAccepted := false,
    rejectCount := 0, recoveryRun := 0, lastCalibrated := none, lengthRef := none, staleTimer := none, high := false,
    low := false, matched := 0, accepted := 0, rejected := 0, muted := 0 }

/-- A span at start-up (R85). -/
def Span.start (r : SpanRecord) : Span :=
  { record := r, state := .idle, queue := [], pushAcc := 0, popAcc := 0, nextSegment := 0#16, stripPresent := false,
    weldPending := false, trackLimit := false, counters := {} }

/-- A stand at start-up (R108). -/
def Stand.start (r : StandRecord) (p : Option PassRecord) : Stand :=
  { record := r, current := p, next := none, mode := .out, base := none, lastCommand := none, cfb := 0, cff := none,
    trim := 0, estimate := none, biteOnRun := 0, biteOffRun := 0, followingRun := 0, handOn := false,
    lastActual := none, moveFailed := false, following := false, driveFault := false, scheduleMissing := false,
    hold := false, holdTimer := none, sequence := none, error := none, counters := {}, setpoints := {} }

/-- The trip unit with a matrix of IDLE entries, an empty log and zero counters (R159, R168, R170). -/
def TripUnit.start (t : TripSection) : TripUnit :=
  { entries := t.entries.map fun r => ⟨r, .idle⟩, interval := t.interval, protect := t.protect, log := [],
    nextRecord := 0#16, firings := 0, ordersWritten := 0, evicted := 0, refusedResets := 0 }

/-- An EMPTY node-table entry without a conflict report (R51). -/
def NodeEntry.none : NodeEntry := ⟨.empty, Option.none⟩

/-- The TRIP section with every entry disabled, interval 10 ms and protect off (R187, with no port PANEL and no stand
configured). -/
def emptyTrip : TripSection := ⟨Vector.replicate 64 builtInEntry, 10, false⟩

/-- Step 1 of R184: every block at its start-up values, every port DISABLED, the store IDLE with its latch clear, time 0.
`energy` are the energy detectors' levels, which the part does not set. The running tables hold the built-in records until step 2
has loaded a section: a DESIGN CHOICE (log 6). -/
def State.stepOne (ph : Phase) (resetInput supplyLow : Bool) (energy : Vector Bool 12) (st : Store) (free : Nat)
    (q : List Instr) : State :=
  { phase := ph, resetInput := resetInput, supplyLow := supplyLow, time := 0#32, part := builtInPorts.part,
    net := { ports := (builtInPorts.ports.zip energy).map fun x => Port.cold x.1 x.2, frames := [], nextId := 0, dropped := 0 },
    nodes := Vector.replicate 256 NodeEntry.none,
    channels := Vector.replicate 32 (Channel.start builtInChannel),
    spans := Vector.replicate 9 (Span.start builtInSpan),
    stands := Vector.replicate 8 (Stand.start builtInStand none),
    group := {}, trip := TripUnit.start emptyTrip,
    store := { st with op := none, latch := false }, freeCount := free, pending := q }

/-- A store nothing has been saved to: every section erased (log 6). -/
def Store.blank : Store :=
  ⟨.erased, .erased, .erased, .erased, none, false, Vector.replicate 4 ⟨false, false⟩⟩

/-- The machine right after reset: start-up has begun and the sections are being read (R184 steps 1 and 2). What the
stored sections hold and the cables' energy are a DESIGN CHOICE (log 6). -/
def State.reset : State := State.stepOne .reading false false (Vector.replicate 12 false) Store.blank 0 []

end Sys2Proof.Machine
end

