-- ==== Sys2Proof/Machine/Ops.lean ====
section
/-! DEFINITION. The named operations every meaning uses: access to the numbered units, the frame buffer and its
references (R41 to R45), the transmit sources (R46 to R49), replies and notices (R61, R172, R178). -/

namespace Sys2Proof.Machine

/-! ### Access to the numbered units -/

/-- Port `p`. -/
def Net.port (n : Net) (p : Nat) : Port := getAt n.ports (Port.cold (builtInPort .disabled) false) p
/-- Replace port `p` by `f` of it. -/
def Net.modPort (n : Net) (p : Nat) (f : Port → Port) : Net := { n with ports := setAt n.ports p (f (n.port p)) }

/-- Port `p` of the part. -/
def State.port (s : State) (p : Nat) : Port := s.net.port p
/-- Change port `p` of the part. -/
def State.modPort (s : State) (p : Nat) (f : Port → Port) : State := { s with net := s.net.modPort p f }
/-- Node-table entry of node `n` (R51). -/
def State.node (s : State) (n : Nat) : NodeEntry := getAt s.nodes NodeEntry.none n
/-- Write the node-table entry of node `n`. -/
def State.setNode (s : State) (n : Nat) (e : NodeEntry) : State := { s with nodes := setAt s.nodes n e }
/-- Channel `c`. -/
def State.channel (s : State) (c : Nat) : Channel := getAt s.channels (Channel.start builtInChannel) c
/-- Change channel `c`. -/
def State.modChannel (s : State) (c : Nat) (f : Channel → Channel) : State :=
  { s with channels := setAt s.channels c (f (s.channel c)) }
/-- Span `i`. -/
def State.span (s : State) (i : Nat) : Span := getAt s.spans (Span.start builtInSpan) i
/-- Change span `i`. -/
def State.modSpan (s : State) (i : Nat) (f : Span → Span) : State := { s with spans := setAt s.spans i (f (s.span i)) }
/-- The stand numbered `n`, 1 to 8; any other number names an unconfigured stand that is OUT. -/
def State.stand (s : State) (n : Nat) : Stand :=
  if n = 0 then Stand.start builtInStand none else getAt s.stands (Stand.start builtInStand none) (n - 1)
/-- Change the stand numbered `n`, 1 to 8. -/
def State.modStand (s : State) (n : Nat) (f : Stand → Stand) : State :=
  if n = 0 then s else { s with stands := setAt s.stands (n - 1) (f (s.stand n)) }
/-- Trip entry `e`. -/
def State.entry (s : State) (e : Nat) : TripEntry := getAt s.trip.entries ⟨builtInEntry, .idle⟩ e
/-- Change trip entry `e`. -/
def State.modEntry (s : State) (e : Nat) (f : TripEntry → TripEntry) : State :=
  { s with trip := { s.trip with entries := setAt s.trip.entries e (f (s.entry e)) } }

/-! ### Roles and states -/

/-- The port has the role (R17). -/
def Port.hasRole (P : Port) (r : Role) : Bool := P.record.role == r
/-- The port counts as UP for forwarding (R59, R31). -/
def Port.forwards (P : Port) : Bool := P.link == .up && (P.mode == .none || P.mode == .localLoop)
/-- The stand is OUT (R109). -/
def Stand.isOut (S : Stand) : Bool := S.mode == .out
/-- The stand is ROLLING (R109). -/
def Stand.isRolling (S : Stand) : Bool := S.mode == .rolling
/-- The stand is READY (R109). -/
def Stand.isReady (S : Stand) : Bool := S.mode == .ready
/-- The stand is MOVING (R109). -/
def Stand.isMoving (S : Stand) : Bool :=
  match S.mode with
  | .moving _ => true
  | _ => false
/-- The trip of a TRIPPED stand (R109). -/
def Stand.tripOf (S : Stand) : Option Trip :=
  match S.mode with
  | .tripped t => some t
  | _ => none
/-- The stand is TRIPPED (R109). -/
def Stand.isTripped (S : Stand) : Bool := S.tripOf.isSome
/-- The stand is configured and not OUT. -/
def Stand.inService (S : Stand) : Bool := S.record.configured && !S.isOut

/-! ### Frame buffer (R41 to R43) -/

/-- What a port's receiver takes a burst from: the line, or the port's own transmitter (R19, R32). -/
inductive Lane where
  | line | loop
  deriving DecidableEq, Repr

/-- The burst a port's receiver is taking from a lane. -/
def Port.lane (P : Port) : Lane → Option Burst
  | .line => P.burst
  | .loop => P.loop
/-- Replace the burst of a lane. -/
def Port.setLane (l : Lane) (b : Option Burst) (P : Port) : Port :=
  match l with
  | .line => { P with burst := b }
  | .loop => { P with loop := b }
/-- The tags of a burst. -/
def burstTags : Option Burst → List BlockTag
  | some b => b.tags
  | none => []
/-- The tags of the blocks that a port's receiver holds for frames still arriving. -/
def Port.heldTags (P : Port) : List BlockTag := burstTags P.burst ++ burstTags P.loop
/-- The tag of every block held, by frames in the buffer and by bursts still arriving (R41). -/
def Net.tags (n : Net) : List BlockTag := n.ports.toList.flatMap Port.heldTags ++ n.frames.flatMap HeldFrame.tags
/-- u_p: blocks held under port `p`'s reservation (R41). -/
def Net.used (n : Net) (p : Nat) : Nat := n.tags.count (.reserved p)
/-- s: shared blocks held (R41). -/
def Net.sharedUsed (n : Net) : Nat := n.tags.count .shared
/-- r_p: port `p`'s reservation (R41). -/
def Net.reservation (n : Net) (p : Nat) : Nat := (n.port p).record.reservation
/-- The port numbers. -/
def portNumbers : List Nat := [0, 1, 2, 3, 4, 5, 6, 7, 8, 9, 10, 11]
/-- Free blocks of port `p`'s reservation (R41). -/
def Net.reservedFree (n : Net) (p : Nat) : Nat := n.reservation p - n.used p
/-- Free blocks of the shared pool: 512 less the reservations and less the shared blocks held (R41). Where a port still
holds more reserved blocks than its reservation, after a RESTART, the excess is missing from the pool until it is freed
(R62). -/
def Net.sharedFree (n : Net) : Nat :=
  Config.bufferBlocks - (portNumbers.map fun p => max (n.reservation p) (n.used p)).sum - n.sharedUsed

/-- Where port `p`'s receiver gets its next block from: its reservation, else the shared pool, else nowhere (R42). -/
def Net.grant (n : Net) (p : Nat) : Option BlockTag :=
  if 0 < n.reservedFree p then some (.reserved p) else if 0 < n.sharedFree then some .shared else none

/-- A burst of which nothing has arrived. -/
def Burst.start : Burst := ⟨[], 0, false⟩

/-- One claim of port `p`'s receiver (R42): a block, or the mark short of buffer, after which no more is stored. -/
def Net.claim (l : Lane) (p : Nat) (n : Net) : Net :=
  let b := ((n.port p).lane l).getD .start
  let b' : Burst :=
    if b.short then { b with claims := b.claims + 1 }
    else match n.grant p with
      | some t => { b with tags := b.tags ++ [t], claims := b.claims + 1 }
      | none => { b with claims := b.claims + 1, short := true }
  n.modPort p (Port.setLane l (some b'))

/-- Claims made so far for the burst of a lane. -/
def Port.claims (l : Lane) (P : Port) : Nat :=
  match P.lane l with
  | some b => b.claims
  | none => 0

/-- The burst of a lane is marked short of buffer (R42). -/
def Port.isShort (l : Lane) (P : Port) : Bool :=
  match P.lane l with
  | some b => b.short
  | none => false

/-- The claims a burst of `bytes` bytes makes (R42). -/
def claimsNeeded (bytes : Nat) : Nat := if bytes = 0 then 0 else if bytes ≤ 128 then 1 else 2

/-- Make the claims of a burst of `k` claims that have not been made yet (log 4). -/
def Net.completeClaims (l : Lane) (p k : Nat) (n : Net) : Net :=
  let n := if (n.port p).claims l < 1 && 1 ≤ k then n.claim l p else n
  if (n.port p).claims l < 2 && 2 ≤ k then n.claim l p else n

/-- The burst from the line at port `p` is over and its blocks are freed (R8, R19). -/
def Net.dropBurst (p : Nat) (n : Net) : Net := n.modPort p fun P => { P with burst := none }

/-- A frame is held in blocks with these tags, under the next name, with one reference for the unit or the engine that
handles it (R43). -/
def Net.hold (f : Frame) (tags : List BlockTag) (n : Net) : Net :=
  { n with frames := n.frames ++ [⟨n.nextId, f, tags, 1⟩], nextId := n.nextId + 1 }

/-- The frame that has arrived at port `p` is held in the blocks of its burst (R43). -/
def Net.keep (p : Nat) (f : Frame) (n : Net) : Net × Nat := ((n.dropBurst p).hold f (burstTags (n.port p).burst), n.nextId)

/-- One more reference to a held frame (R43). -/
def Net.addRef (id : Nat) (n : Net) : Net :=
  { n with frames := n.frames.map fun h => if h.id = id then { h with refs := h.refs + 1 } else h }

/-- One reference less; a frame without references has its blocks freed (R43). -/
def Net.release (id : Nat) (n : Net) : Net :=
  { n with frames := (n.frames.map fun h => if h.id = id then { h with refs := h.refs - 1 } else h).filter fun h => h.refs != 0 }

/-- Rewrite a held frame in its block (R72). -/
def Net.rewrite (id : Nat) (f : Frame) (n : Net) : Net :=
  { n with frames := n.frames.map fun h => if h.id = id then { h with frame := f } else h }

/-- The held frame named `id`. -/
def Net.frame (id : Nat) (n : Net) : Option Frame := (n.frames.find? fun h => h.id == id).map HeldFrame.frame

/-! ### Counters of a port (R38) -/

/-- The counters a frame event advances (R38). -/
inductive Count where
  | received | check | malformed | role | noRoute | conflict | storm | noBuffer | queueFull | sent | stopSent
  | patternErrors
  deriving DecidableEq, Repr

/-- Advance one counter, saturating (R38). -/
def PortCounters.count (c : PortCounters) : Count → PortCounters
  | .received => { c with received := bump c.received }
  | .check => { c with check := bump c.check }
  | .malformed => { c with malformed := bump c.malformed }
  | .role => { c with role := bump c.role }
  | .noRoute => { c with noRoute := bump c.noRoute }
  | .conflict => { c with conflict := bump c.conflict }
  | .storm => { c with storm := bump c.storm }
  | .noBuffer => { c with noBuffer := bump c.noBuffer }
  | .queueFull => { c with queueFull := bump c.queueFull }
  | .sent => { c with sent := bump c.sent }
  | .stopSent => { c with stopSent := bump c.stopSent }
  | .patternErrors => { c with patternErrors := bump c.patternErrors }

/-- Advance a counter of port `p` (R38). -/
def Net.count (p : Nat) (k : Count) (n : Net) : Net :=
  n.modPort p fun P => { P with counters := P.counters.count k }

/-! ### Transmit sources (R46 to R49) -/

/-- Add a copy of a held frame to port `p`'s normal queue, or drop it as QUEUE_FULL (R49); says whether it was queued. -/
def Net.enqueue (p id : Nat) (n : Net) : Net × Bool :=
  if (n.port p).queue.length < Config.queueCapacity then
    ((n.modPort p fun P => { P with queue := P.queue ++ [id] }).addRef id, true)
  else (n.count p .queueFull, false)

/-- Empty port `p`'s normal queue; each entry dropped releases its reference (R43). -/
def Net.emptyQueue (p : Nat) (n : Net) : Net :=
  ((n.port p).queue.foldl (fun n id => n.release id) n).modPort p fun P => { P with queue := [] }

/-- The LINE ports that count as UP, other than `but` (R59). -/
def Net.upLines (n : Net) (but : Option Nat) : List Nat :=
  portNumbers.filter fun p => (n.port p).hasRole .line && (n.port p).forwards && but != some p

/-- One copy of a held frame to each of the ports; the number of copies queued (R59). -/
def Net.copies (id : Nat) : List Nat → Net → Net × Nat
  | [], n => (n, 0)
  | p :: ps, n =>
    let (n, queued) := n.enqueue p id
    let (n, k) := n.copies id ps
    (n, if queued then k + 1 else k)

/-- Two stop orders merge in a stop slot (R47): `old` is pending, `new` is the order written. -/
def mergeOrders (old new : StopOrder) : StopOrder :=
  { cls := if severityRank new.cls < severityRank old.cls then old.cls else new.cls
    mask := old.mask ||| new.mask
    entry := if severityRank new.cls < severityRank old.cls then old.entry else new.entry
    count := new.count
    dest := if old.dest = new.dest then old.dest else Config.broadcast }

/-- Write a stop order into port `p`'s stop slot (R46, R47); a DISABLED port discards it. -/
def Net.writeStop (p : Nat) (o : StopOrder) (n : Net) : Net :=
  n.modPort p fun P =>
    if P.link = .disabled then P
    else { P with stopSlot := some (match P.stopSlot with | none => o | some old => mergeOrders old o) }

/-- Write a GAP command into port `p`'s command slot, replacing any pending one (R46, R48). -/
def Net.writeGap (p : Nat) (g : GapCommand) (n : Net) : Net :=
  n.modPort p fun P => if P.link = .disabled then P else { P with commandSlot := some g }

/-- Empty port `p`'s command slot (R48). -/
def State.emptyCommand (p : Nat) (s : State) : State := s.modPort p fun P => { P with commandSlot := none }

/-! ### Frames of the part's own making (R45, R61) -/

/-- Blocks a built frame takes (R45). -/
def blocksOf (f : Frame) : Nat := if f.size ≤ 128 then 1 else 2

/-- Count a notice or reply that was not built or of which no copy was queued (R45). -/
def Net.countDropped (n : Net) : Net := { n with dropped := bump n.dropped }

/-- Build a frame of the part in the shared pool; none when the pool lacks the blocks (R45). -/
def Net.build (f : Frame) (n : Net) : Option (Net × Nat) :=
  if blocksOf f ≤ n.sharedFree then
    some (n.hold f (List.replicate (blocksOf f) .shared), n.nextId)
  else none

/-- Build a frame and queue one copy to each of the ports. A frame that cannot be built, or of which no copy is queued,
is counted once by the dropped-notice counter (R45, R61). -/
def Net.originate (f : Frame) (ports : List Nat) (n : Net) : Net :=
  match n.build f with
  | none => n.countDropped
  | some (n, id) =>
    let (n, k) := n.copies id ports
    let n := n.release id
    if k = 0 then n.countDropped else n

/-- Notice kinds (R15). -/
inductive NoticeKind where
  | trip | condition | standState | moveDone | moveFailed | moveAborted | hold | refusedSetpoint | scheduleSwitch
  | scheduleMissing | trackFlush | nodeMoved | nodeConflict | storeDone | testAborted
  deriving DecidableEq, Repr

/-- Notice kind codes (R15). -/
def noticeCode : NoticeKind → Nat
  | .trip => 1 | .condition => 2 | .standState => 3 | .moveDone => 4 | .moveFailed => 5 | .moveAborted => 6 | .hold => 7
  | .refusedSetpoint => 8 | .scheduleSwitch => 9 | .scheduleMissing => 10 | .trackFlush => 11 | .nodeMoved => 12
  | .nodeConflict => 13 | .storeDone => 14 | .testAborted => 15

/-- A NOTICE frame (R15, R178): own node number as source, destination 255, the time base as its time stamp. -/
def noticeFrame (own : Nat) (time : Quad) (k : NoticeKind) (subject : Nat) (detail : List Byte) : Frame :=
  ⟨Config.broadcast, BitVec.ofNat 8 own, .notice, put8 (noticeCode k) ++ put8 subject ++ put32 time.toNat ++ detail⟩

/-- Build a notice and queue it to every LINE port that counts as UP (R61, R178). -/
def State.notice (k : NoticeKind) (subject : Nat) (detail : List Byte) (s : State) : State :=
  { s with net := s.net.originate (noticeFrame s.part.own s.time k subject detail) (s.net.upLines none) }

/-- Results and reasons (R14). -/
inductive Reason where
  | state | protected_ | notEnabled | causeActive | range | unknown
  deriving DecidableEq, Repr
/-- Reason codes (R14). -/
def reasonCode : Reason → Nat
  | .state => 1 | .protected_ => 2 | .notEnabled => 3 | .causeActive => 4 | .range => 5 | .unknown => 6
/-- What the owner of a request answers (R171). -/
inductive Answer where
  | done (body : List Byte)
  | accepted
  | busy
  | refused (why : Reason) (body : List Byte)
  deriving DecidableEq, Repr
/-- Result code and body of an answer; a refusal's reason is its first body byte (R14). -/
def answerBytes : Answer → List Byte
  | .done b => put8 0 ++ b
  | .accepted => put8 1
  | .busy => put8 2
  | .refused why b => put8 3 ++ put8 (reasonCode why) ++ b

/-- A REPLY frame (R14, R172). -/
def replyFrame (own : Nat) (a : Arrival) (code : Nat) (ans : Answer) : Frame :=
  ⟨a.source, BitVec.ofNat 8 own, .reply, put8 code ++ [a.tag] ++ answerBytes ans⟩

/-- May a REPLY be queued at this port (R61)? -/
def Port.takesReply (P : Port) : Bool :=
  P.hasRole .line && P.link != .disabled && (P.mode == .none || P.mode == .localLoop)

/-- Build the reply and queue it on the arrival port of the request (R61, R172). -/
def State.reply (a : Arrival) (code : Nat) (ans : Answer) (s : State) : State :=
  let ports := if (s.port a.port).takesReply then [a.port.val] else []
  { s with net := s.net.originate (replyFrame s.part.own a code ans) ports }

/-- A refusal without a body. -/
def refuse (why : Reason) (s : State) : State × Answer := (s, .refused why [])

/-- Draw a free value (log 13). -/
def State.drawGap (s : State) : State × Int := ({ s with freeCount := s.freeCount + 1 }, Config.freeGap s.freeCount)

/-- Set the modified flag of a section (R175). -/
def State.setModified (sec : Nat) (s : State) : State :=
  let st := getAt s.store.sections ⟨false, false⟩ sec
  { s with store := { s.store with sections := setAt s.store.sections sec ⟨st.stored, true⟩ } }

/-- Store sections, numbered as R15 gives them. -/
abbrev secPorts : Nat := 0
abbrev secChannels : Nat := 1
abbrev secStands : Nat := 2
abbrev secTrip : Nat := 3

end Sys2Proof.Machine
end

