-- ==== Sys2Proof/Machine/Flags.lean ====
section
/-! DEFINITION. Levels and flags: the 249 condition levels (R155), the output lines (R167), the flags of a GAP frame (R12). -/

namespace Sys2Proof.Machine

/-- The level of a condition (R155), read where its owner keeps it: LINK and BABBLE follow link state and test mode (R25),
STORM the storm state (R29), STALE and FAILED the channel state (R77), HOLD the HOLD flag (R149). -/
def State.level (s : State) (c : CondId) : Bool :=
  match c.kind with
  | .link => (s.port c.source).link != .up || (s.port c.source).mode != .none
  | .silent => (s.port c.source).silent
  | .babble => (s.port c.source).link == .babble
  | .rate => (s.port c.source).rate
  | .storm => (s.port c.source).limiting
  | .panel => (s.port c.source).panel
  | .stale => (s.channel c.source).state == .stale
  | .failed => (s.channel c.source).state == .failed
  | .high => (s.channel c.source).high
  | .low => (s.channel c.source).low
  | .moveFailed => (s.stand c.source).moveFailed
  | .following => (s.stand c.source).following
  | .hold => (s.stand c.source).hold
  | .driveFault => (s.stand c.source).driveFault
  | .scheduleMissing => (s.stand c.source).scheduleMissing
  | .trackLimit => (s.span c.source).trackLimit

/-- Is the source index within its kind's range (R158)? -/
def sourceInRange (c : CondId) : Bool :=
  match c.kind with
  | .link | .silent | .babble | .rate | .storm | .panel => c.source < 12
  | .stale | .failed | .high | .low => c.source < 32
  | .moveFailed | .following | .hold | .driveFault | .scheduleMissing => 1 ≤ c.source && c.source ≤ 8
  | .trackLimit => c.source < 9

/-- The 249 conditions of section 9.1, kind by kind. -/
def allConditions : List CondId :=
  ([CondKind.link, .silent, .babble, .rate, .storm, .panel].flatMap fun k => (List.range 12).map (CondId.mk k)) ++
  ([CondKind.stale, .failed, .high, .low].flatMap fun k => (List.range 32).map (CondId.mk k)) ++
  ([CondKind.moveFailed, .following, .hold, .driveFault, .scheduleMissing].flatMap fun k => standNumbers.map (CondId.mk k)) ++
  (List.range 9).map (CondId.mk .trackLimit)

/-- The stand is TRIPPED with class FAST or OPEN (R167). -/
def Stand.holdsStop (S : Stand) : Bool :=
  match S.tripOf with
  | some t => t.cls != .slow
  | none => false

/-- The STOP line (R167, R184, R186): asserted exactly while some stand is TRIPPED with FAST or OPEN, or the matrix is not
in force; a part without supply holds it asserted. -/
def State.stopLine (s : State) : Bool := s.phase != .running || standNumbers.any fun n => (s.stand n).holdsStop

/-- The ALERT line (R167): asserted while a stand is TRIPPED or has HOLD set, or an entry of class NOTE is FIRED; released
until the matrix is in force (R184). -/
def State.alertLine (s : State) : Bool :=
  s.phase == .running &&
    (standNumbers.any (fun n => (s.stand n).isTripped || (s.stand n).hold) ||
     (List.range 64).any fun e => (s.entry e).record.cls.isNone && (s.entry e).state == .fired)

/-- Flags of a GAP frame (R12). -/
structure GapFlags where
  window : Bool := false
  corr : Bool := false
  rate : Bool := false
  ffAbsent : Bool := false
  fbSuspended : Bool := false
  opened : Bool := false
  deriving DecidableEq, Repr

/-- The flags byte: bit 0 CLAMPED_WINDOW to bit 5 OPEN, bits 6 and 7 sent as 0 (R12). -/
def flagsByte (f : GapFlags) : Byte :=
  BitVec.ofNat 8 (f.window.toNat + 2 * f.corr.toNat + 4 * f.rate.toNat + 8 * f.ffAbsent.toNat
    + 16 * f.fbSuspended.toNat + 32 * f.opened.toNat)

/-- The line is stopped: every stand OUT or READY and every span IDLE (R177, R182). -/
def State.lineStopped (s : State) : Bool :=
  standNumbers.all (fun n => (s.stand n).isOut || (s.stand n).isReady) &&
    (List.range 9).all fun i => (s.span i).state == .idle

end Sys2Proof.Machine
end

