-- ==== Sys2Proof/Machine/Trip.lean ====
section
/-! DEFINITION. Conditions, trips and stop orders (chapter 9), with what a trip means for the stands (R109, R120) and the
spans (R86, R87, R102). A firing only ever clears conditions, never raises one, so clearing is defined first and raising,
which fires, last. -/

namespace Sys2Proof.Machine

/-! ### A condition clears (R157, R159) -/

/-- The enabled entries that refer to a condition, lowest first (R157). -/
def State.refs (s : State) (c : CondId) : List Nat :=
  (List.range 64).filter fun e => (s.entry e).record.enabled && (s.entry e).record.cond == c

/-- The CONDITION notice of a change of level (R157): none when no enabled entry refers to the condition. -/
def State.condNotice (c : CondId) (s : State) : State :=
  match s.refs c with
  | [] => s
  | e :: es =>
    s.notice .condition e (put8 (condCode c.kind) ++ put8 c.source ++ putBool (s.level c) ++ put8 (es.length + 1))

/-- A condition has become inactive: the entries that refer to it return to IDLE (R159). -/
def State.cleared (c : CondId) (s : State) : State :=
  (s.refs c).foldl (fun s e => s.modEntry e fun t => { t with state := .idle }) (s.condNotice c)

/-- A change that can only clear the condition `c`, taken as an event if it does (R155). -/
def State.lower (c : CondId) (f : State → State) (s : State) : State :=
  let s' := f s
  if s.level c && !s'.level c then s'.cleared c else s'

/-! ### Stands and spans at a change of state -/

/-- STAND STATE causes (R109). -/
inductive StandCause where
  | admission | bypass | biteOn | biteOff | tailOut | moveStart | moveDone | moveFailed | trip | reset
  deriving DecidableEq, Repr

/-- STAND STATE cause codes (R173). -/
def standCauseCode : StandCause → Nat
  | .admission => 0 | .bypass => 1 | .biteOn => 2 | .biteOff => 3 | .tailOut => 4 | .moveStart => 5 | .moveDone => 6
  | .moveFailed => 7 | .trip => 8 | .reset => 9

/-- Stand state codes: position in R108 (R173). -/
def standModeCode : StandMode → Nat
  | .out => 0 | .ready => 1 | .moving _ => 2 | .rolling => 3 | .tripped _ => 4

/-- The effects of entering READY, TRIPPED or OUT (R109). -/
def State.settleMode (n : Nat) (s : State) : State :=
  match (s.stand n).mode with
  | .ready =>
    s.lower ⟨.following, n⟩ fun s => s.modStand n fun S => { S with followingRun := 0, following := false }
  | .tripped _ =>
    let s := s.lower ⟨.following, n⟩ fun s =>
      s.modStand n fun S => { S with followingRun := 0, biteOnRun := 0, biteOffRun := 0, following := false }
    s.lower ⟨.moveFailed, n⟩ fun s => s.modStand n fun S => { S with moveFailed := false }
  | .out =>
    let s := s.lower ⟨.following, n⟩ fun s =>
      s.modStand n fun S => { S with followingRun := 0, biteOnRun := 0, biteOffRun := 0, following := false }
    s.lower ⟨.driveFault, n⟩ fun s => s.modStand n fun S => { S with driveFault := false }
  | .moving _ | .rolling => s

/-- A stand changes its state: the STAND STATE notice and the effects of entering the new state (R109). -/
def State.changeMode (n : Nat) (m : StandMode) (cause : StandCause) (s : State) : State :=
  let old := (s.stand n).mode
  let s := s.modStand n fun S => { S with mode := m }
  let s := s.notice .standState n (put8 (standModeCode old) ++ put8 (standModeCode m) ++ put8 (standCauseCode cause))
  s.settleMode n

/-- The entry span of a stand (R84). -/
def State.entrySpan (s : State) (n : Nat) : Option Nat :=
  (List.range 9).find? fun i => n != 0 && (s.span i).record.enabled && (s.span i).record.downstream == n
/-- The exit span of a stand (R84). -/
def State.exitSpan (s : State) (n : Nat) : Option Nat :=
  (List.range 9).find? fun i => n != 0 && (s.span i).record.enabled && (s.span i).record.upstream == n
/-- The mill entry span (R84). -/
def State.millEntry (s : State) : Option Nat :=
  (List.range 9).find? fun i => (s.span i).record.enabled && (s.span i).record.upstream == 0

/-- A span enters EMPTYING from FILLING or RUNNING; TRACK LIMIT is cleared (R86, R97). -/
def State.enterEmptying (i : Nat) (s : State) : State :=
  s.lower ⟨.trackLimit, i⟩ fun s => s.modSpan i fun P =>
    { P with state := .emptying, popAcc := if P.state = .filling then 0 else P.popAcc, trackLimit := false }

/-- A span reaches IDLE from EMPTYING: both accumulators are set to 0 (R86). -/
def State.enterIdle (i : Nat) (s : State) : State :=
  s.modSpan i fun P => { P with state := .idle, pushAcc := 0, popAcc := 0 }

/-- A ROLLING stand leaves ROLLING for READY (R113). What its exit span does follows in `closeSpan`. -/
def State.biteOff (n : Nat) (cause : StandCause) (s : State) : State :=
  let s := s.modStand n fun S =>
    { S with biteOnRun := 0, biteOffRun := 0, estimate := none,
             counters := { S.counters with biteOffs := bump S.counters.biteOffs } }
  s.changeMode n .ready cause

/-- Pushes of a span stop being allowed (R86): FILLING or RUNNING becomes EMPTYING, an empty queue takes it on to IDLE, and
a working downstream stand takes the report as its tail-out, which closes the pushes of its own exit span in turn. The
fuel bounds the chain, which runs down the line. -/
def State.closeSpan : Nat → Nat → State → State
  | 0, _, s => s
  | k + 1, i, s =>
    if (s.span i).state = .filling ∨ (s.span i).state = .running then
      let s := s.enterEmptying i
      if (s.span i).queue.isEmpty then
        let s := s.enterIdle i
        let d := (s.span i).record.downstream
        if d ≠ 0 ∧ (s.stand d).isRolling then
          let s := s.biteOff d .tailOut
          match s.exitSpan d with
          | some j => s.closeSpan k j
          | none => s
        else s
      else s
    else s

/-- A stand has left ROLLING: its exit span's pushes are no longer allowed (R87). -/
def State.leftRolling (n : Nat) (s : State) : State :=
  match s.exitSpan n with
  | some i => s.closeSpan 9 i
  | none => s

/-- A span that reached IDLE from EMPTYING reports to its downstream stand, which takes it as a tail-out if it is ROLLING
(R86, R113). -/
def State.reportTailOut (i : Nat) (s : State) : State :=
  let d := (s.span i).record.downstream
  if d ≠ 0 ∧ (s.stand d).isRolling then (s.biteOff d .tailOut).leftRolling d else s

/-- TRACK FLUSH causes (R103), with codes 0, 1, 2 (R173). -/
inductive FlushCause where
  | request | trip | load
  deriving DecidableEq, Repr
/-- TRACK FLUSH cause codes (R173). -/
def flushCauseCode : FlushCause → Nat
  | .request => 0 | .trip => 1 | .load => 2

/-- The TRACK FLUSH notice (R103). -/
def State.flushNotice (i : Nat) (cause : FlushCause) (stand segments : Nat) (lost : Bool) (s : State) : State :=
  s.notice .trackFlush i (put8 (flushCauseCode cause) ++ put8 stand ++ put8 segments ++ putBool lost)

/-- Does flushing the span lose a weld: a flagged segment, a pending WELD, or the upstream stand's hand-on (R102)? -/
def State.weldInSpan (s : State) (i : Nat) : Bool :=
  (s.span i).queue.any (·.weld) || ((s.span i).record.upstream == 0 && (s.span i).weldPending) ||
    ((s.span i).record.upstream != 0 && (s.stand (s.span i).record.upstream).handOn)

/-- A span after a flush (R102). -/
def Span.flushed (P : Span) (lost : Bool) : Span :=
  { P with
    state := .idle, queue := [], pushAcc := 0, popAcc := 0, trackLimit := false,
    weldPending := if P.record.upstream = 0 then false else P.weldPending,
    counters := { P.counters with
      flushes := bump P.counters.flushes
      weldsLost := if lost then bump P.counters.weldsLost else P.counters.weldsLost } }

/-- A flush of a span (R102), asked for by a request or by a trip. -/
def State.flush (i : Nat) (cause : FlushCause) (stand : Nat) (s : State) : State :=
  let P := s.span i
  let lost := s.weldInSpan i
  let s := s.lower ⟨.trackLimit, i⟩ fun s => s.modSpan i fun P => P.flushed lost
  let s := s.modStand P.record.upstream fun S => { S with handOn := false }
  let s := s.flushNotice i cause stand P.queue.length lost
  let d := P.record.downstream
  if (P.state = .running ∨ P.state = .emptying) ∧ d ≠ 0 ∧ (s.stand d).isRolling then
    s.modStand d fun S => { S with cff := none }
  else s

/-! ### Tripping a stand (R120, R160) -/

/-- Write a GAP command for stand `n` into its port's command slot (R114): it becomes the last command. -/
def State.writeGap (n : Nat) (command : Int) (flags : GapFlags) (s : State) : State :=
  let S := s.stand n
  let pass := match S.current with
    | some p => p.id
    | none => 0
  let g : GapCommand := ⟨command, pass, flagsByte flags, n, BitVec.ofNat 8 S.record.node⟩
  let s := { s with net := s.net.writeGap S.record.port g }
  s.modStand n fun S =>
    { S with lastCommand := some command, counters := { S.counters with gaps := bump S.counters.gaps } }

/-- The open-position command of an OPEN trip (R120): flags OPEN alone. -/
def State.writeOpen (n : Nat) (s : State) : State := s.writeGap n (s.stand n).record.openPos { opened := true }

/-- MOVE ABORTED (R112, R120): causes BITE-ON 0 and TRIP 1 (R173). -/
def State.moveAborted (n : Nat) (target : Int) (cause : Nat) (s : State) : State :=
  s.notice .moveAborted n (putInt target ++ put8 cause)

/-- What the state a stand is tripped out of leaves to do (R87, R120): ROLLING closes its exit span, MOVING aborts its
move. -/
def State.leaveMode (n : Nat) (old : StandMode) (s : State) : State :=
  match old with
  | .rolling => s.leftRolling n
  | .moving m => s.moveAborted n m.target 1
  | .out | .ready | .tripped _ => s

/-- A stand in READY, MOVING or ROLLING is newly tripped (R120). -/
def State.tripStand (n : Nat) (cls : Severity) (e : Nat) (s : State) : State :=
  let old := (s.stand n).mode
  let s := s.changeMode n (.tripped ⟨cls, e, 0#8, s.trip.interval⟩) .trip
  let s := s.leaveMode n old
  let s := s.emptyCommand (s.stand n).record.port
  if cls = .opened then s.writeOpen n else s

/-- A TRIPPED stand is upgraded to a more severe class (R120, R160, R162). -/
def State.upgradeStand (n : Nat) (cls : Severity) (e : Nat) (s : State) : State :=
  let s := s.modStand n fun S => { S with mode := .tripped ⟨cls, e, 0#8, s.trip.interval⟩ }
  if cls = .opened then s.writeOpen n else s

/-! ### Stop orders (R37, R161) -/

/-- What a port loses when a test mode ends (R31): the burst being received, the checker's synchronization, a pending
injection. -/
def Port.leaveTest (P : Port) : Port :=
  { P with mode := .none, burst := none, injection := false,
           checker := { P.checker with inSync := false, goodRun := 0, badRun := 0 } }

/-- A stop order written to a port in a test mode returns it to NONE, with a TEST ABORTED notice (R37). -/
def State.abortTest (p : Nat) (s : State) : State :=
  let mode := (s.port p).mode
  if mode = .none then s
  else
    let s := s.lower ⟨.link, p⟩ fun s => s.modPort p Port.leaveTest
    s.notice .testAborted p (put8 (modeCode mode))

/-- One write into a stop slot (R46, R161), counted (R170); a DISABLED port discards it. -/
def State.writeOrder (p : Nat) (o : StopOrder) (s : State) : State :=
  let s := s.abortTest p
  if (s.port p).link = .disabled then s
  else { s with net := s.net.writeStop p o, trip := { s.trip with ordersWritten := bump s.trip.ordersWritten } }

/-- The ports a stand's stop order is written to, one write per port, with the node it is addressed to: the first of the
stand's nodes on that port in the order stand node, first extra, second extra (R3). -/
def stopTargets (r : StandRecord) : List (Nat × Nat) :=
  ((r.port, r.node) :: r.extras.map fun x => (x.2, x.1)).foldl
    (fun l x => if l.any (·.1 == x.1) then l else l ++ [x]) []

/-- Write one order for a stand to each of its ports (R161). -/
def State.writeOrders (n : Nat) (cls : Severity) (mask : Byte) (e : Nat) (count : Byte) (s : State) : State :=
  (stopTargets (s.stand n).record).foldl
    (fun s t => s.writeOrder t.1 ⟨cls, mask, e, count, BitVec.ofNat 8 t.2⟩) s

/-! ### The trip log (R168) -/

/-- Remove the oldest record that is not marked FIRST. -/
def evictOldest : List LogRecord → List LogRecord
  | [] => []
  | r :: l => if r.first then r :: evictOldest l else l

/-- Append a record, first removing one when the log is full (R168). -/
def State.logRecord (r : LogRecord) (s : State) : State :=
  let full := Config.logCapacity ≤ s.trip.log.length
  { s with trip := { s.trip with
      log := (if full then evictOldest s.trip.log else s.trip.log) ++ [r]
      evicted := if full then bump s.trip.evicted else s.trip.evicted
      nextRecord := s.trip.nextRecord + 1 } }

/-- Codes of a record's kind and source: 16 is REQUEST (R173). -/
def causeBytes : Cause → List Byte
  | .cond c => put8 (condCode c.kind) ++ put8 c.source
  | .request p => put8 16 ++ put8 p

/-- The log record and the TRIP notice of a firing (R163, R168). -/
def State.recordFiring (e : Nat) (cause : Cause) (cls : Option Severity) (tripped : Byte) (first : Bool) (s : State) : State :=
  let r : LogRecord := ⟨s.trip.nextRecord, e, cause, cls, tripped, first, s.time⟩
  let s := s.logRecord r
  s.notice .trip e (put16 r.number.toNat ++ put8 (classCode cls) ++ [tripped] ++ causeBytes cause ++ putBool first)

/-! ### Firing (R160 to R163) -/

/-- The stands a firing acts on: named by the mask, configured and not OUT (R160). -/
def State.targets (s : State) (mask : Byte) : List Nat :=
  standNumbers.filter fun n => inMask mask n && (s.stand n).inService

/-- The stand is TRIPPED with a less severe class (R160). -/
def Stand.upgradable (S : Stand) (cls : Severity) : Bool :=
  match S.tripOf with
  | some t => severityRank t.cls < severityRank cls
  | none => false

/-- Some stand is TRIPPED. -/
def State.anyTripped (s : State) : Bool := standNumbers.any fun n => (s.stand n).isTripped

/-- The spans of newly tripped stands, each once, with the lower-numbered of its stands (R160). -/
def State.spansToFlush (s : State) (newly : List Nat) : List (Nat × Nat) :=
  (newly.flatMap fun n => ((s.entrySpan n).toList ++ (s.exitSpan n).toList).map fun i => (i, n)).foldl
    (fun l x => if l.any (·.1 == x.1) then l else l ++ [x]) []

/-- The stands a firing newly trips (R160). -/
def State.newlyBy (s : State) (mask : Byte) : List Nat := (s.targets mask).filter fun n => !(s.stand n).isTripped

/-- The stands a firing upgrades (R160). -/
def State.upgradedBy (s : State) (cls : Severity) (mask : Byte) : List Nat :=
  (s.targets mask).filter fun n => (s.stand n).upgradable cls

/-- The stands a firing newly trips or upgrades (R160). -/
def State.actedBy (s : State) (cls : Severity) (mask : Byte) : List Nat :=
  (s.targets mask).filter fun n => (s.newlyBy mask).contains n || (s.upgradedBy cls mask).contains n

/-- One stand of a firing (R160). -/
def State.actOn (cls : Severity) (e : Nat) (newly : List Nat) (s : State) (n : Nat) : State :=
  if newly.contains n then s.tripStand n cls e else s.upgradeStand n cls e

/-- The stands of a firing tripped and upgraded, and the spans of the newly tripped ones flushed (R160). -/
def State.stopStands (e : Nat) (cls : Severity) (mask : Byte) (s : State) : State :=
  let newly := s.newlyBy mask
  (s.spansToFlush newly).foldl (fun s x => s.flush x.1 .trip x.2)
    ((s.actedBy cls mask).foldl (fun s n => s.actOn cls e newly n) s)

/-- A firing of class SLOW, FAST or OPEN on the stands of a mask (R160, R161): trips and upgrades, flushes, stop orders, log
record and TRIP notice; none of the last three when it trips and upgrades no stand (R163). -/
def State.fireStop (e : Nat) (cls : Severity) (mask : Byte) (cause : Cause) (s : State) : State :=
  let acted := s.actedBy cls mask
  let first := !(s.newlyBy mask).isEmpty && !s.anyTripped
  let s := s.stopStands e cls mask
  if acted.isEmpty then s
  else
    let m := maskOfList acted
    let s := acted.foldl (fun s n => s.writeOrders n cls m e 0#8) s
    s.recordFiring e cause (some cls) m first

/-- A firing (R160, R163): counted, and by its class a NOTE, which logs and notifies alone, or a stop. -/
def State.fire (e : Nat) (cls : Option Severity) (mask : Byte) (cause : Cause) (s : State) : State :=
  let s := { s with trip := { s.trip with firings := bump s.trip.firings } }
  match cls with
  | none => s.recordFiring e cause none 0#8 false
  | some c => s.fireStop e c mask cause

/-- An entry acts (R159). -/
def State.fireEntry (e : Nat) (s : State) : State :=
  let r := (s.entry e).record
  s.fire e r.cls r.mask (.cond r.cond)

/-- The built-in panel action: FAST on all eight stands with entry index 255 (R165). -/
def State.panelAction (p : Nat) (mask : Byte) (s : State) : State :=
  s.fire Config.noEntry (some .fast) mask (.cond ⟨.panel, p⟩)

/-! ### A condition is raised (R159, R165) -/

/-- The entry's condition is active: IDLE becomes TIMING, or FIRED when the delay is 0 (R159). -/
def TripEntry.start (t : TripEntry) : TripEntry :=
  { t with state := if t.record.delay = 0 then .fired else .timing t.record.delay }

/-- The IDLE entries of a list proceed as though their condition had just become active: all change state, then those that
fired act in order (R159, log 11). -/
def State.proceed (es : List Nat) (s : State) : State :=
  let es := es.filter fun e => (s.entry e).state == .idle
  let firing := es.filter fun e => (s.entry e).record.delay == 0
  let s := es.foldl (fun s e => s.modEntry e TripEntry.start) s
  firing.foldl (fun s e => s.fireEntry e) s

/-- A condition has become active: notice, entries, and the built-in action of an unmapped PANEL (R157, R159, R165). -/
def State.raised (c : CondId) (s : State) : State :=
  let es := s.refs c
  let s := (s.condNotice c).proceed es
  if c.kind = .panel ∧ es.isEmpty then s.panelAction c.source 0xFF#8 else s

/-- A level was `before`; a change since is an event of the trip unit (R155). -/
def State.changed (c : CondId) (before : Bool) (s : State) : State :=
  if s.level c = before then s else if s.level c then s.raised c else s.cleared c

/-- A change that may move the level of `c`, taken as an event if it does (R155). -/
def State.event (c : CondId) (f : State → State) (s : State) : State := (f s).changed c (s.level c)

/-! ### Trip reset (R169) and admission (R166) -/

/-- The PANEL conditions that are active with no enabled entry referring to them. -/
def State.unmappedPanels (s : State) : List Nat :=
  portNumbers.filter fun p => (s.port p).panel && (s.refs ⟨.panel, p⟩).isEmpty

/-- A cause that maps to the stand is still active (R169). -/
def State.causeActive (s : State) (n : Nat) : Bool :=
  ((List.range 64).any fun e =>
    (s.entry e).record.enabled && (s.entry e).record.cls.isSome && inMask (s.entry e).record.mask n &&
      (s.entry e).state != .idle) || !s.unmappedPanels.isEmpty

/-- Take a stand out of a pending order; an order without stands is emptied from its slot (R169). -/
def dropFromOrder (n : Nat) (o : Option StopOrder) : Option StopOrder :=
  match o with
  | none => none
  | some o => if o.mask &&& ~~~(maskOf n) = 0#8 then none else some { o with mask := o.mask &&& ~~~(maskOf n) }

/-- A TRIPPED stand is reset (R121, R169): READY, base at the last command, its stop orders withdrawn. -/
def State.resetStand (n : Nat) (s : State) : State :=
  let s := s.modStand n fun S => { S with base := S.lastCommand, biteOnRun := 0 }
  let s := s.lower ⟨.moveFailed, n⟩ fun s => s.modStand n fun S => { S with moveFailed := false }
  let s := (stopTargets (s.stand n).record).foldl
    (fun s t => s.modPort t.1 fun P => { P with stopSlot := dropFromOrder n P.stopSlot }) s
  s.changeMode n .ready .reset

/-- When no stand is TRIPPED any more, the FIRST flag is cleared from its record (R168). -/
def State.closeEpisode (s : State) : State :=
  if s.anyTripped then s
  else { s with trip := { s.trip with log := s.trip.log.map fun r => { r with first := false } } }

/-- RESET TRIP on the masked stands in increasing order: stands reset and stands refused (R169). -/
def State.resetStands (mask : Byte) : List Nat → State → State × List Nat × List Nat
  | [], s => (s, [], [])
  | n :: ns, s =>
    if inMask mask n && (s.stand n).isTripped then
      if s.causeActive n then
        let s := { s with trip := { s.trip with refusedResets := bump s.trip.refusedResets } }
        let (s, a, b) := s.resetStands mask ns
        (s, a, n :: b)
      else
        let (s, a, b) := (s.resetStand n).closeEpisode.resetStands mask ns
        (s, n :: a, b)
    else s.resetStands mask ns

/-- RESET TRIP (R169). -/
def reqResetTrip (mask : Byte) (s : State) : State × Answer :=
  if mask = 0#8 then refuse .range s
  else
    let (s, reset, refused) := s.resetStands mask standNumbers
    let body := [maskOfList reset, maskOfList refused]
    if reset.isEmpty && !refused.isEmpty then (s, .refused .causeActive body) else (s, .done body)

/-- The mask of stands a firing has newly tripped or upgraded: TRIPPED after it with a class they had not before. -/
def State.trippedSince (before after : State) : Byte :=
  maskOfList (standNumbers.filter fun n =>
    match (after.stand n).tripOf, (before.stand n).tripOf with
    | some t, some u => t.cls != u.cls
    | some _, none => true
    | none, _ => false)

/-- A management STOP (R164): a firing with entry index 255 at once. -/
def reqStop (port cls : Nat) (mask : Byte) (s : State) : State × Answer :=
  match classOf cls with
  | some (some c) =>
    if mask = 0#8 then refuse .range s
    else
      let s' := s.fire Config.noEntry (some c) mask (.request port)
      (s', .done [s.trippedSince s'])
  | _ => refuse .range s

/-- At an admission, each FIRED entry of class SLOW, FAST or OPEN that names the stand acts on it alone, and then each
unmapped active PANEL by the built-in action (R166). -/
def State.admissionActions (n : Nat) (s : State) : State :=
  let es := (List.range 64).filter fun e =>
    (s.entry e).record.cls.isSome && inMask (s.entry e).record.mask n && (s.entry e).state == .fired
  let ps := s.unmappedPanels
  let s := es.foldl
    (fun s e => s.fire e (s.entry e).record.cls (maskOf n) (.cond (s.entry e).record.cond)) s
  ps.foldl (fun s p => s.panelAction p (maskOf n)) s

/-! ### Loading the matrix (R158, R159) -/

/-- The fields of an entry record lie within their values (R158). -/
def TripEntryRecord.inRange (r : TripEntryRecord) : Bool := sourceInRange r.cond && r.delay ≤ 2000

/-- LOAD TRIP ENTRY, entry form (R158, R159): the entry returns to IDLE and, if enabled with an active condition, proceeds. -/
def reqLoadTripEntry (e : Nat) (r : TripEntryRecord) (s : State) : State × Answer :=
  if 64 ≤ e || !TripEntryRecord.inRange r then refuse .range s
  else if s.trip.protect then refuse .protected_ s
  else
    let s := (s.modEntry e fun _ => ⟨r, .idle⟩).setModified secTrip
    (if r.enabled && s.level r.cond then s.proceed [e] else s, .done [])

/-- LOAD TRIP ENTRY, part-wide form: the repeat interval, from the next restart of each repeat timer (R158). -/
def reqLoadTripInterval (k : Nat) (s : State) : State × Answer :=
  if k < 5 || 100 < k then refuse .range s
  else if s.trip.protect then refuse .protected_ s
  else ({ s with trip := { s.trip with interval := k } }.setModified secTrip, .done [])

/-- A TIMING entry's delay expires: FIRED, and the entry acts (R159). -/
def State.delayExpiry (e : Nat) (s : State) : State :=
  match (s.entry e).state with
  | .timing _ => (s.modEntry e fun t => { t with state := .fired }).fireEntry e
  | _ => s

/-- A TRIPPED stand's repeat timer expires: the count increases and the order is written again (R162). -/
def State.repeatExpiry (n : Nat) (s : State) : State :=
  match (s.stand n).mode with
  | .tripped t =>
    let s := s.modStand n fun S => { S with mode := .tripped { t with count := t.count + 1, timer := s.trip.interval } }
    s.writeOrders n t.cls (maskOf n) t.entry (t.count + 1)
  | _ => s

/-- A PANEL STOP sets or clears its port's PANEL condition from its class alone (R13, R156). -/
def State.panelStop (p : Nat) (cls : Option Severity) (s : State) : State :=
  s.event ⟨.panel, p⟩ fun s => s.modPort p fun P => { P with panel := cls.isSome }

/-- At start-up and at a RESTART the matrix comes into force: each enabled entry whose condition is active proceeds (R159). -/
def State.matrixInForce (s : State) : State :=
  s.proceed ((List.range 64).filter fun e => (s.entry e).record.enabled && s.level (s.entry e).record.cond)

end Sys2Proof.Machine
end

