-- ==== Sys2Proof/Machine/Span.lean ====
section
/-! DEFINITION. Span permissions and states (R84, R86, R88, R93, R96) and the TRACK LIMIT judgement (R97). -/

namespace Sys2Proof.Machine

/-- Nominal depth D = floor(L / ℓ) (R82). -/
def SpanRecord.depth (r : SpanRecord) : Nat := r.length / r.segment

/-- The span has a working downstream stand: not 0 and not OUT (R84). -/
def State.workingDownstream (s : State) (i : Nat) : Bool :=
  (s.span i).record.downstream != 0 && !(s.stand (s.span i).record.downstream).isOut

/-- Pushes are allowed (R88): not in EMPTYING, and as the upstream end shows. -/
def State.pushesAllowed (s : State) (i : Nat) : Bool :=
  (s.span i).record.enabled && (s.span i).state != .emptying &&
    (if (s.span i).record.upstream = 0 then (s.span i).record.marker.isNone || (s.span i).stripPresent
     else (s.stand (s.span i).record.upstream).isRolling)

/-- Advances of the pop channel are accepted (R93): in RUNNING and EMPTYING while the downstream stand is ROLLING; at the
mill exit, in EMPTYING (R96). -/
def State.popsAllowed (s : State) (i : Nat) : Bool :=
  (s.span i).record.enabled &&
    (if (s.span i).record.downstream = 0 then (s.span i).state == .emptying
     else ((s.span i).state == .running || (s.span i).state == .emptying) &&
       (s.stand (s.span i).record.downstream).isRolling)

/-- The occupancy is 2 or less, or capacity − 2 or more (R97). -/
def Span.atLimit (P : Span) : Bool := P.queue.length ≤ 2 || P.record.capacity ≤ P.queue.length + 2

/-- TRACK LIMIT is judged in RUNNING (R97). -/
def State.judgeTrack (i : Nat) (s : State) : State :=
  if (s.span i).state = .running then
    s.event ⟨.trackLimit, i⟩ fun s => s.modSpan i fun P => { P with trackLimit := P.atLimit }
  else s

/-- A span enters RUNNING (R86), and TRACK LIMIT is judged on entry (R97). -/
def State.enterRunning (i : Nat) (s : State) : State :=
  (s.modSpan i fun P => { P with state := .running, popAcc := 0 }).judgeTrack i

/-- The downstream stand of a FILLING span has become ROLLING (R86, R87). -/
def State.downstreamRolling (n : Nat) (s : State) : State :=
  match s.entrySpan n with
  | some i => if (s.span i).state = .filling then s.enterRunning i else s
  | none => s

end Sys2Proof.Machine
end

