-- ==== Sys2Proof/Machine/Stand.lean ====
section
/-! DEFINITION. The stand unit (chapters 6 and 7): force outcomes, STATUS handling, the gap computation, moves, deliveries,
the monitor trim, and the requests that load, put into rolling, bypass and switch. -/

namespace Sys2Proof.Machine

/-! ### Bite-on and bite-off (R112, R113) -/

/-- A stand bites on (R112): a move in progress is aborted, the stand enters ROLLING, its entry span hears of it. -/
def State.biteOn (n : Nat) (s : State) : State :=
  let s := match (s.stand n).mode with
    | .moving m => (s.modStand n fun S => { S with base := S.lastCommand }).moveAborted n m.target 0
    | _ => s
  let s := s.modStand n fun S =>
    { S with cfb := 0, cff := none, estimate := none, biteOnRun := 0, biteOffRun := 0,
             counters := { S.counters with biteOns := bump S.counters.biteOns } }
  (s.changeMode n .rolling .biteOn).downstreamRolling n

/-- A force outcome in READY or MOVING is counted into the bite-on run (R112). -/
def State.countBiteOn (n : Nat) (counts : Bool) (s : State) : State :=
  let run := if counts then (s.stand n).biteOnRun + 1 else 0
  let s := s.modStand n fun S => { S with biteOnRun := run }
  if 3 ≤ run then s.biteOn n else s

/-- A force outcome in ROLLING is counted into the bite-off run (R113). -/
def State.countBiteOff (n : Nat) (counts : Bool) (s : State) : State :=
  let run := if counts then (s.stand n).biteOffRun + 1 else 0
  let s := s.modStand n fun S => { S with biteOffRun := run }
  if 3 ≤ run then (s.biteOff n .biteOff).leftRolling n else s

/-- A force outcome reported to a stand (R76, R112, R113): `accepted` is the accepted value, none when the sample was not
accepted. -/
def State.forceOutcome (n : Nat) (accepted : Option Int) (s : State) : State :=
  let r := (s.stand n).record
  match (s.stand n).mode with
  | .ready | .moving _ => s.countBiteOn n (accepted.any fun v => (r.biteOn : Int) ≤ v)
  | .rolling => s.countBiteOff n (accepted.any fun v => v < (r.biteOff : Int))
  | .out | .tripped _ => s

/-! ### The gap computation (chapter 7) -/

/-- What a computation yields: the GAP command, its flags, the new C_fb and the new estimate (R127). -/
structure Computation where
  command : Int
  flags : GapFlags
  cfb : Int
  estimate : Option Int
  deriving DecidableEq, Repr

/-- The reference a command is taken from: the last command, or the actual gap clamped to the stand limits (R108, R137). -/
def Stand.reference (S : Stand) (actual : Int) : Int :=
  match S.lastCommand with
  | some c => c
  | none => clampTo S.record.limLo S.record.limHi actual

/-- Stretch of the stand, S = F × 10,000 / M (R129). -/
def stretch (force : Int) (m : Nat) : Int := roundDiv (force * 10000) m

/-- Gaugemeter thickness h_gm = s + S + z (R129). -/
def gaugemeter (r : StandRecord) (actual force : Int) : Int := actual + stretch force r.modulus + r.zero

/-- Thickness error e (R131). -/
def thicknessError (h trim : Int) (p : PassRecord) : Int := saturate 100000 (h + trim - p.exitThickness)

/-- Feedback correction before its clamp, C_fb + Δfb (R131). -/
def feedback (cfb e : Int) (p : PassRecord) : Int := cfb + roundDiv (-e * p.kFb) 1024

/-- Steps 2 to 5 (R128 to R131): the new C_fb, the new estimate, and whether the clamp of C_fb changed it. `force` is
none while the force channel is unusable. -/
def feedbackSteps (S : Stand) (p : PassRecord) (actual : Int) (force : Option Int) : Int × Option Int × Bool :=
  match force with
  | none => (S.cfb, none, false)
  | some F =>
    let h := gaugemeter S.record actual F
    let raw := feedback S.cfb (thicknessError h S.trim p) p
    let c := saturate p.corrLimit raw
    (c, some (saturate32 (h + S.trim)), c != raw)

/-- The gap computation of a ROLLING stand (R127 to R137). -/
def computeGap (S : Stand) (p : PassRecord) (base actual : Int) (force : Option Int) : Computation :=
  let fb := feedbackSteps S p actual force
  let rawC := fb.1 + S.cff.getD 0
  let c := saturate p.corrLimit rawC
  let inWindow := clampTo p.winLo p.winHi (base + c)
  let target := clampTo S.record.limLo S.record.limHi inWindow
  let from_ := S.reference actual
  let step := saturate S.record.rateStep (target - from_)
  { command := from_ + step
    flags := { window := inWindow != base + c, corr := fb.2.2 || c != rawC, rate := step != target - from_,
               ffAbsent := S.cff.isNone, fbSuspended := force.isNone }
    cfb := fb.1
    estimate := fb.2.1 }

/-- The ramp of a READY or MOVING stand (R115). -/
def rampGap (S : Stand) (target actual : Int) (limit : Nat) : Int × GapFlags :=
  let diff := target - S.reference actual
  let step := saturate limit diff
  (S.reference actual + step, { rate := step != diff })

/-- A channel is usable to a reader (R76). -/
def Channel.usable (C : Channel) (t : ChannelType) : Bool :=
  C.record.enabled && C.record.type == t && (C.state == .valid || C.state == .suspect)

/-- The force a stand reads, none when its channel is unusable (R76, R128). -/
def State.forceOf (s : State) (n : Nat) : Option Int :=
  let C := s.channel (s.stand n).record.force
  if C.usable .force then some C.value else none

/-- The base of a stand; an absent one is a free value (log 13). -/
def State.baseOf (n : Nat) (s : State) : State × Int :=
  match (s.stand n).base with
  | some b => (s, b)
  | none => s.drawGap

/-- Step 4 of R114: one GAP command in READY and MOVING by the ramp, in ROLLING by the computation, none otherwise. -/
def State.emitGap (n : Nat) (actual : Int) (s : State) : State :=
  let S := s.stand n
  match S.mode with
  | .ready =>
    let (s, b) := s.baseOf n
    let g := rampGap S (clampTo S.record.limLo S.record.limHi b) actual S.record.rateStep
    s.writeGap n g.1 g.2
  | .moving m =>
    let g := rampGap S m.target actual S.record.moveStep
    s.writeGap n g.1 g.2
  | .rolling =>
    match S.current with
    | none => s
    | some p =>
      let (s, b) := s.baseOf n
      let c := computeGap S p b actual (s.forceOf n)
      (s.modStand n fun S => { S with cfb := c.cfb, estimate := c.estimate }).writeGap n c.command c.flags
  | .out | .tripped _ => s

/-! ### STATUS (R114 to R118) -/

/-- The following check (R116). -/
def Stand.follow (S : Stand) (f : StatusFields) : Stand :=
  if (S.record.followLimit : Int) < |f.actual - f.echo| then
    let run := min S.record.followCount (S.followingRun + 1)
    { S with followingRun := run, following := S.following || run == S.record.followCount }
  else { S with followingRun := 0, following := false }

/-- The move is done (R118). -/
def State.moveDone (n : Nat) (target actual : Int) (s : State) : State :=
  let s := s.modStand n fun S =>
    { S with base := some target, counters := { S.counters with movesDone := bump S.counters.movesDone } }
  (s.changeMode n .ready .moveDone).notice .moveDone n (putInt target ++ putInt actual)

/-- The in-position run is judged (R118). -/
def State.judgeMove (n : Nat) (actual : Int) (s : State) : State :=
  match (s.stand n).mode with
  | .moving m =>
    let run := if |actual - m.target| ≤ (s.stand n).record.band then m.run + 1 else 0
    if 3 ≤ run then s.moveDone n m.target actual
    else s.modStand n fun S => { S with mode := .moving { m with run := run } }
  | _ => s

/-- DRIVE FAULT is judged (R117). -/
def State.judgeDrive (n : Nat) (d : DriveState) (s : State) : State :=
  s.event ⟨.driveFault, n⟩ fun s => s.modStand n fun S => { S with driveFault := d == .fault }

/-- The following check is made in MOVING and ROLLING (R116). -/
def State.judgeFollowing (n : Nat) (f : StatusFields) (s : State) : State :=
  if (s.stand n).isMoving || (s.stand n).isRolling then
    s.event ⟨.following, n⟩ fun s => s.modStand n fun S => S.follow f
  else s

/-- A STATUS handed to the stand unit (R114): released without handling in OUT, else handled in the order given there. -/
def State.handleStatus (n : Nat) (f : StatusFields) (s : State) : State :=
  if (s.stand n).isOut then s
  else
    let s := s.modStand n fun S =>
      { S with lastActual := some f.actual, counters := { S.counters with status := bump S.counters.status } }
    (((s.judgeDrive n f.drive).judgeFollowing n f).judgeMove n f.actual).emitGap n f.actual

/-! ### Moves (R118, R119) -/

/-- A positioning move starts (R118). -/
def State.startMove (n : Nat) (value : Int) (s : State) : State :=
  let r := (s.stand n).record
  let s := s.changeMode n (.moving ⟨clampTo r.limLo r.limHi value, r.moveTime, 0⟩) .moveStart
  s.lower ⟨.moveFailed, n⟩ fun s => s.modStand n fun S => { S with moveFailed := false }

/-- The last actual gap of a stand; one that no STATUS has given is a free value (log 13). -/
def State.lastActualOf (n : Nat) (s : State) : State × Int :=
  match (s.stand n).lastActual with
  | some a => (s, a)
  | none => s.drawGap

/-- The move timer expires in MOVING (R119): the move has failed. MOVE FAILED is raised with its CONDITION notice, the stand enters
READY with its STAND STATE notice, and the MOVE FAILED notice follows, as R119 names them (R178). The entries that refer to MOVE
FAILED then proceed, at a stand that is READY (log 12). -/
def State.moveTimeout (n : Nat) (s : State) : State :=
  match (s.stand n).mode with
  | .moving m =>
    let raised := !s.level ⟨.moveFailed, n⟩
    let s := s.modStand n fun S => { S with moveFailed := true }
    let s := if raised then s.condNotice ⟨.moveFailed, n⟩ else s
    let s := s.modStand n fun S =>
      { S with base := S.lastCommand, counters := { S.counters with movesFailed := bump S.counters.movesFailed } }
    let (s, a) := (s.changeMode n .ready .moveFailed).lastActualOf n
    let s := s.notice .moveFailed n (putInt m.target ++ putInt a)
    if raised then s.proceed (s.refs ⟨.moveFailed, n⟩) else s
  | _ => s

/-! ### Deliveries (R122, R123, R132 to R134) -/

/-- The feedforward a segment gives under a pass; absent when the segment carries no thickness (R132, R133). -/
def feedforward (p : PassRecord) (g : Segment) : Option Int :=
  (g.measured <|> g.estimated).map fun h => roundDiv (-(saturate 100000 (h - p.entryThickness)) * p.kFf) 1024

/-- The NEXT pass becomes the CURRENT pass (R122, R124). -/
def Stand.takeNext (S : Stand) (p : PassRecord) : Stand :=
  { S with
    current := some p, next := none, base := some p.preset, cfb := 0, trim := 0, cff := none,
    counters := { S.counters with switches := bump S.counters.switches } }

/-- SCHEDULE SWITCH (R122, R124): causes WELD 0 and REQUEST 1; the segment number is optional (R178). -/
def State.switchNotice (n old new cause : Nat) (seg : Option Half) (s : State) : State :=
  s.notice .scheduleSwitch n (put8 old ++ put8 new ++ put8 cause ++ putOpt 2 (fun x => put16 x.toNat) seg)

/-- Id of an optional pass, 0 when EMPTY. -/
def passId : Option PassRecord → Nat
  | some p => p.id
  | none => 0

/-- A weld-flagged segment delivered to a stand with a NEXT pass (R122, R134). -/
def State.weldSwitch (n : Nat) (p : PassRecord) (g : Segment) (s : State) : State :=
  let old := passId (s.stand n).current
  let s := s.modStand n fun S => { S.takeNext p with cff := feedforward p g, handOn := true }
  (s.switchNotice n old p.id 0 (some g.number)).setModified secStands

/-- A weld-flagged segment delivered to a stand whose NEXT pass is EMPTY (R123). The hand-on and the count, which R123 names
after the raising, are set before the trip unit takes it, so that a flush by an entry of delay 0 clears this hand-on with the
rest (R102): a DESIGN CHOICE (log 12). -/
def State.weldMissing (n : Nat) (g : Segment) (s : State) : State :=
  let id := passId (s.stand n).current
  let s := s.modStand n fun S =>
    { S with
      cff := S.current.bind fun p => feedforward p g
      handOn := true
      counters := { S.counters with weldsWithoutNext := bump S.counters.weldsWithoutNext } }
  let s := s.event ⟨.scheduleMissing, n⟩ fun s => s.modStand n fun S => { S with scheduleMissing := true }
  s.notice .scheduleMissing n (put8 id ++ put16 g.number.toNat)

/-- A delivery to a stand, with a segment or without one (R93, R94, R132, R133). -/
def State.deliver (n : Nat) (seg : Option Segment) (s : State) : State :=
  match seg with
  | none => s.modStand n fun S => { S with cff := none }
  | some g =>
    if g.weld then
      match (s.stand n).next with
      | some p => s.weldSwitch n p g
      | none => s.weldMissing n g
    else s.modStand n fun S => { S with cff := S.current.bind fun p => feedforward p g }

/-- The monitor trim (R138). -/
def trimStep (p : PassRecord) (trim estimated measured : Int) : Int :=
  saturate p.trimLimit (trim + roundDiv (p.kMon * saturate 100000 (measured - estimated)) 1024)

/-- A trim report handed to a stand (R138): applied when the stand is not OUT and the pass is its CURRENT pass. -/
def State.trimReport (n : Nat) (pass : Option Nat) (estimated measured : Int) (s : State) : State :=
  match (s.stand n).current with
  | some p =>
    if !(s.stand n).isOut && pass == some p.id then
      s.modStand n fun S => { S with trim := trimStep p S.trim estimated measured }
    else s
  | none => s

/-! ### Records and their checks (R105 to R107) -/

/-- A stand number. -/
def standNumber (n : Nat) : Bool := 1 ≤ n && n ≤ 8

/-- A node number (R3). -/
def nodeNumber (n : Nat) : Bool := 1 ≤ n && n ≤ 254

/-- The field ranges of a stand record (R105). -/
def StandRecord.inRange (own : Nat) (r : StandRecord) : Bool :=
  nodeNumber r.node && r.node != own && r.port < 12 && r.extras.length ≤ 2 &&
    r.extras.all (fun x => nodeNumber x.1 && x.2 < 12) && r.force < 32 &&
    500 ≤ r.modulus && r.modulus ≤ 20000 && -20000 ≤ r.zero && r.zero ≤ 20000 &&
    -100000 ≤ r.limLo && r.limLo < r.limHi && r.limHi ≤ 800000 && r.limLo ≤ r.openPos && r.openPos ≤ r.limHi &&
    1 ≤ r.rateStep && r.rateStep ≤ 5000 && r.rateStep ≤ r.moveStep && r.moveStep ≤ 50000 && 1 ≤ r.band && r.band ≤ 5000 &&
    100 ≤ r.moveTime && r.moveTime ≤ 30000 && r.biteOn ≤ 60000 && r.biteOff < r.biteOn &&
    1 ≤ r.followLimit && r.followLimit ≤ 100000 && 1 ≤ r.followCount && r.followCount ≤ 255 &&
    50 ≤ r.holdTime && r.holdTime ≤ 1000

/-- A value lies within the stand limits. -/
def StandRecord.holds (r : StandRecord) (x : Int) : Bool := r.limLo ≤ x && x ≤ r.limHi

/-- The field ranges of a pass record, checked against the stand's record (R107). -/
def PassRecord.inRange (r : StandRecord) (p : PassRecord) : Bool :=
  1 ≤ p.id && p.id ≤ 255 && 100 ≤ p.entryThickness && p.entryThickness ≤ 100000 && 100 ≤ p.exitThickness &&
    p.exitThickness ≤ 100000 && StandRecord.holds r p.preset && StandRecord.holds r p.winLo && StandRecord.holds r p.winHi && p.winLo ≤ p.winHi &&
    p.kFb ≤ 4096 && p.kFf ≤ 1024 && p.kMon ≤ 1024 && p.corrLimit ≤ 50000 && p.trimLimit ≤ 10000

/-- The stand limits hold the preset gap and the window of a kept pass (R106). -/
def StandRecord.holdsPass (r : StandRecord) (p : PassRecord) : Bool :=
  StandRecord.holds r p.preset && StandRecord.holds r p.winLo && StandRecord.holds r p.winHi

/-- The passes a LOAD STAND keeps: NEXT, and CURRENT when it carries none; none when it leaves the stand unconfigured
(R106). -/
def Stand.keptPasses (S : Stand) (r : StandRecord) (p : Option PassRecord) : List PassRecord :=
  if !r.configured then []
  else S.next.toList ++ (if p.isNone then S.current.toList else [])

/-- The stand's port and the ports of its extra stop nodes. -/
def StandRecord.ports (r : StandRecord) : List Nat := r.port :: r.extras.map (·.2)

/-- Every port of the stand has the role STAND (R106, R110). -/
def State.standPorts (s : State) (r : StandRecord) : Bool := (StandRecord.ports r).all fun p => (s.port p).hasRole .stand

/-- The STATE checks of R106 on a configured record for stand `n`. -/
def State.standFits (s : State) (n : Nat) (r : StandRecord) : Bool :=
  s.standPorts r && (s.node r.node).binding == .static r.port &&
    standNumbers.all (fun m => m == n || !(s.stand m).record.configured || (s.stand m).record.port != r.port) &&
    (r.node :: r.extras.map (·.1)).Nodup

/-- The RANGE grounds of a LOAD STAND (R105, R106). -/
def State.standLoadRange (s : State) (n : Nat) (r : StandRecord) (p : Option PassRecord) : Bool :=
  standNumber n && StandRecord.inRange s.part.own r && p.all (PassRecord.inRange r) &&
    (s.stand n).lastCommand.all (fun c => StandRecord.holds r c) &&
    ((s.stand n).keptPasses r p).all (StandRecord.holdsPass r)

/-- A taken LOAD STAND of a configured record: record and CURRENT pass, the kept C_fb and T within the new pass's limits
(R106, R140). -/
def Stand.loaded (S : Stand) (r : StandRecord) (p : Option PassRecord) : Stand :=
  match p with
  | none => { S with record := r }
  | some p =>
    { S with record := r, current := some p, cfb := saturate p.corrLimit S.cfb, trim := saturate p.trimLimit S.trim }

/-- Each active condition of a stand left unconfigured is cleared (R106). -/
def State.clearStandConditions (n : Nat) (s : State) : State :=
  let s := s.lower ⟨.moveFailed, n⟩ fun s => s.modStand n fun S => { S with moveFailed := false }
  let s := s.lower ⟨.following, n⟩ fun s => s.modStand n fun S => { S with following := false }
  let s := s.lower ⟨.hold, n⟩ fun s => s.modStand n fun S => { S with hold := false }
  let s := s.lower ⟨.driveFault, n⟩ fun s => s.modStand n fun S => { S with driveFault := false }
  s.lower ⟨.scheduleMissing, n⟩ fun s => s.modStand n fun S => { S with scheduleMissing := false }

/-- LOAD STAND (R106). -/
def reqLoadStand (n : Nat) (r : StandRecord) (p : Option PassRecord) (s : State) : State × Answer :=
  if !s.standLoadRange n r p then refuse .range s
  else if !(s.stand n).isOut then refuse .state s
  else if r.configured then
    if s.standFits n r then ((s.modStand n fun S => S.loaded r p).setModified secStands, .done []) else refuse .state s
  else
    let s := s.modStand n fun S => { S with record := r, current := none, next := none }
    ((s.clearStandConditions n).setModified secStands, .done [])

/-- LOAD PASS to CURRENT (R107). -/
def reqLoadPassCurrent (n : Nat) (p : PassRecord) (s : State) : State × Answer :=
  if !standNumber n || !PassRecord.inRange (s.stand n).record p then refuse .range s
  else if !(s.stand n).record.configured || !(s.stand n).isReady then refuse .state s
  else
    let s := s.modStand n fun S =>
      { S with current := some p, base := some p.preset, cfb := 0, cff := none, trim := 0 }
    (s.setModified secStands, .done [])

/-- LOAD PASS to NEXT (R107). -/
def reqLoadPassNext (n : Nat) (p : PassRecord) (s : State) : State × Answer :=
  if !standNumber n || !PassRecord.inRange (s.stand n).record p then refuse .range s
  else if !(s.stand n).record.configured || (s.stand n).isOut then refuse .state s
  else
    let s := s.modStand n fun S => { S with next := some p }
    (s.lower ⟨.scheduleMissing, n⟩ fun s => s.modStand n fun S => { S with scheduleMissing := false }, .done [])

/-- An admitted stand before it enters READY (R110). -/
def Stand.admitted (S : Stand) (p : PassRecord) : Stand :=
  { S with base := some p.preset, cfb := 0, cff := none, trim := 0, estimate := none, biteOnRun := 0, sequence := none }

/-- ADMIT (R110, R166). -/
def reqAdmit (n : Nat) (s : State) : State × Answer :=
  let S := s.stand n
  if !standNumber n then refuse .range s
  else
    match S.current with
    | none => refuse .state s
    | some p =>
      if !S.isOut || !S.record.configured || !s.standPorts S.record then refuse .state s
      else (((s.modStand n fun S => S.admitted p).changeMode n .ready .admission).admissionActions n, .done [])

/-- HOLD causes (R145, R149, R152), with their codes (R173). -/
inductive HoldCause where
  | sequence | groupSequence | clearHold | time | bypass
  deriving DecidableEq, Repr
/-- HOLD cause codes (R173). -/
def holdCauseCode : HoldCause → Nat
  | .sequence => 0 | .groupSequence => 1 | .clearHold => 2 | .time => 3 | .bypass => 4

/-- The HOLD notice (R178): ended 0 or set 1, cause, expected and received numbers, zero for ended. -/
def State.holdNotice (n : Nat) (isSet : Bool) (cause : HoldCause) (expected received : Byte) (s : State) : State :=
  s.notice .hold n (putBool isSet ++ put8 (holdCauseCode cause) ++ [expected, received])

/-- A set HOLD flag ends (R149): the timer is cancelled, the condition cleared, the sequence unsynchronized. -/
def State.endHold (n : Nat) (cause : HoldCause) (s : State) : State :=
  if (s.stand n).hold then
    let s := s.lower ⟨.hold, n⟩ fun s =>
      s.modStand n fun S => { S with hold := false, holdTimer := none, sequence := none }
    s.holdNotice n false cause 0#8 0#8
  else s

/-- BYPASS (R111). -/
def reqBypass (n : Nat) (s : State) : State × Answer :=
  if !standNumber n then refuse .range s
  else if !(s.stand n).isReady then refuse .state s
  else
    let s := s.changeMode n .out .bypass
    let s := s.emptyCommand (s.stand n).record.port
    let s := s.lower ⟨.moveFailed, n⟩ fun s => s.modStand n fun S => { S with moveFailed := false }
    (s.endHold n .bypass, .done [])

/-- SWITCH PASS (R124). -/
def reqSwitchPass (n : Nat) (s : State) : State × Answer :=
  let S := s.stand n
  if !standNumber n then refuse .range s
  else
    match S.next with
    | none => refuse .state s
    | some p =>
      if S.isOut then refuse .state s
      else
        let s := s.modStand n fun S => S.takeNext p
        let s := s.lower ⟨.scheduleMissing, n⟩ fun s => s.modStand n fun S => { S with scheduleMissing := false }
        ((s.switchNotice n (passId S.current) p.id 1 none).setModified secStands, .done [])

/-- CLEAR HOLD (R150): the body says whether a HOLD was ended and whether a record was emptied. -/
def reqClearHold (n : Nat) (s : State) : State × Answer :=
  let S := s.stand n
  if !standNumber n then refuse .range s
  else if !S.record.configured || S.isOut then refuse .state s
  else
    let s := (s.endHold n .clearHold).modStand n fun S => { S with error := none }
    (s, .done (putBool S.hold ++ putBool S.error.isSome))

/-- The hold timer of a PERSISTENT hold expires (R149). -/
def State.holdExpiry (n : Nat) (s : State) : State :=
  if (s.stand n).holdTimer.isSome then s.endHold n .time else s

end Sys2Proof.Machine
end

