-- ==== Sys2Proof/Machine/Tracking.lean ====
section
/-! DEFINITION. The tracking unit (chapter 5): pushes, pops, length advances, markers, and the requests on spans. -/

namespace Sys2Proof.Machine

/-! ### Pushes (R88 to R92) -/

/-- Remove the head segment and carry its weld flag to the new head (R91, R92). -/
def dropHead : List Segment → List Segment
  | [] => []
  | [_] => []
  | g :: h :: r => { h with weld := h.weld || g.weld } :: r

/-- What makes room before a push (R91, R92): without a working downstream stand the head is discarded when the push would
raise the occupancy above D, with its weld flag only at the mill exit; otherwise a full queue overflows. -/
def Span.makeRoom (P : Span) (working : Bool) : Span :=
  if working then
    if P.record.capacity ≤ P.queue.length then
      { P with queue := dropHead P.queue, counters := { P.counters with overrun := bump P.counters.overrun } }
    else P
  else if SpanRecord.depth P.record < P.queue.length + 1 then
    { P with
      queue := if P.record.downstream = 0 then P.queue.tail else dropHead P.queue
      counters := { P.counters with discarded := bump P.counters.discarded } }
  else P

/-- The segment a span pushes (R89). -/
def State.newSegment (s : State) (i : Nat) : Segment :=
  let P := s.span i
  let u := P.record.upstream
  { number := P.nextSegment
    estimated := if u = 0 then none else (s.stand u).estimate
    measured := none
    pass := if u = 0 then none else (s.stand u).current.map PassRecord.id
    weld := if u = 0 then P.weldPending else (s.stand u).handOn }

/-- Add a segment at the tail (R86, R88, R89): an IDLE span enters FILLING, a pending WELD is used up. -/
def Span.append (P : Span) (g : Segment) : Span :=
  { P with
    state := if P.state = .idle then .filling else P.state
    queue := P.queue ++ [g]
    nextSegment := P.nextSegment + 1
    weldPending := if P.record.upstream = 0 then false else P.weldPending
    counters := { P.counters with pushes := bump P.counters.pushes } }

/-- The place of the segment at index `g` counted from the tail (R90). -/
def fillPlace (n g : Nat) : Option Nat := if g < n then some (n - 1 - g) else none

/-- After a push the segment at the gauge index takes the measured thickness, and one with an estimate makes a trim report
(R90). -/
def State.gaugeFill (i : Nat) (s : State) : State :=
  let P := s.span i
  match P.record.gauge with
  | none => s
  | some (c, d) =>
    let C := s.channel c
    if C.usable .thickness then
      match fillPlace P.queue.length (d / P.record.segment) with
      | none => s
      | some k =>
        match P.queue[k]? with
        | none => s
        | some g =>
          let s := s.modSpan i fun P => { P with queue := P.queue.set k { g with measured := some C.value } }
          match g.estimated with
          | none => s
          | some e => s.trimReport P.record.upstream g.pass e C.value
    else s

/-- The state after a push (R86): FILLING becomes RUNNING when the downstream stand is ROLLING and the occupancy is D or
more; in RUNNING, TRACK LIMIT is judged (R97). -/
def State.settlePush (i : Nat) (s : State) : State :=
  let P := s.span i
  if P.state = .filling ∧ P.record.downstream ≠ 0 ∧ (s.stand P.record.downstream).isRolling ∧
      SpanRecord.depth P.record ≤ P.queue.length then s.enterRunning i
  else s.judgeTrack i

/-- One push, carried out whole (R88). -/
def State.push (i : Nat) (s : State) : State :=
  let working := s.workingDownstream i
  let s := s.modSpan i fun P => ({ P with pushAcc := P.pushAcc - P.record.segment } : Span).makeRoom working
  let g := s.newSegment i
  let s := s.modSpan i fun P => P.append g
  let s := s.modStand (s.span i).record.upstream fun S => { S with handOn := false }
  (s.gaugeFill i).settlePush i

/-! ### Pops (R93 to R96) -/

/-- An EMPTYING span whose queue is empty reaches IDLE and reports to its downstream stand (R86). -/
def State.settlePop (i : Nat) (s : State) : State :=
  if (s.span i).state = .emptying ∧ (s.span i).queue = [] then (s.enterIdle i).reportTailOut i
  else s.judgeTrack i

/-- One pop (R93, R94, R96): the head segment is delivered, or discarded at the mill exit; an empty queue is an underflow,
a delivery without a segment. -/
def State.pop (i : Nat) (s : State) : State :=
  let P := s.span i
  let d := P.record.downstream
  let s := s.modSpan i fun P => { P with popAcc := P.popAcc - P.record.segment }
  match P.queue with
  | [] =>
    let s := s.modSpan i fun P => { P with counters := { P.counters with underrun := bump P.counters.underrun } }
    (s.deliver d none).judgeTrack i
  | g :: r =>
    if d = 0 then
      (s.modSpan i fun P =>
        { P with queue := r, counters := { P.counters with discarded := bump P.counters.discarded } }).settlePop i
    else
      let s := s.modSpan i fun P =>
        { P with queue := r, counters := { P.counters with pops := bump P.counters.pops } }
      (s.deliver d (some g)).settlePop i

/-! ### Length advances (R88, R93, R95) -/

/-- The two sides worked alternately (R95): one push if the push accumulator holds a segment length, then one pop if the
pop accumulator does, until neither does. `k` bounds the rounds. A side that the work itself closes works no more, and its
accumulator keeps what it then holds, a segment length or more: a DESIGN CHOICE (log 36). -/
def State.workSpan : Nat → Nat → State → State
  | 0, _, s => s
  | k + 1, i, s =>
    let pushes := (s.span i).record.segment ≤ (s.span i).pushAcc && s.pushesAllowed i
    let s := if pushes then s.push i else s
    let pops := (s.span i).record.segment ≤ (s.span i).popAcc && s.popsAllowed i
    let s := if pops then s.pop i else s
    if pushes || pops then s.workSpan k i else s

/-- Rounds enough for a span's accumulators. -/
def Span.rounds (P : Span) : Nat := P.pushAcc / P.record.segment + P.popAcc / P.record.segment + 1

/-- An advance of channel `c` by `d` mm arrives at span `i` (R74, R88, R93, R95): each side that names the channel adds it
when it is accepting advances. -/
def State.advanceSpan (c d i : Nat) (s : State) : State :=
  let push := (s.span i).record.push = c && s.pushesAllowed i
  let pop := (s.span i).record.pop = c && s.popsAllowed i
  if push || pop then
    let s := s.modSpan i fun P =>
      { P with pushAcc := if push then P.pushAcc + d else P.pushAcc, popAcc := if pop then P.popAcc + d else P.popAcc }
    s.workSpan (s.span i).rounds i
  else s

/-- The advance is handed once to each enabled span that names the channel (R74), in increasing order (log 11). -/
def State.advance (c d : Nat) (s : State) : State :=
  (List.range 9).foldl (fun s i => s.advanceSpan c d i) s

/-! ### Strip markers (R98 to R100) -/

/-- The marker codes (R75). -/
inductive Marker where
  | head | tail | weld
  deriving DecidableEq, Repr

/-- The marker of a code: 1 HEAD, 2 TAIL, 3 WELD (R75). -/
def markerOf (raw : Int) : Option Marker :=
  if raw = 1 then some .head else if raw = 2 then some .tail else if raw = 3 then some .weld else none

/-- A marker at the mill entry span `i` (R98, R99, R100). -/
def State.markSpan (i : Nat) (m : Marker) (s : State) : State :=
  match m with
  | .head => s.modSpan i fun P => { P with stripPresent := true, pushAcc := 0 }
  | .tail =>
    let present := (s.span i).stripPresent
    let s := s.modSpan i fun P => { P with stripPresent := false, pushAcc := 0 }
    if present then s.closeSpan 9 i else s
  | .weld => s.modSpan i fun P => { P with weldPending := true }

/-- An accepted marker of channel `c` is handed to the mill entry span when that span names the channel (R75). -/
def State.mark (c : Nat) (m : Marker) (s : State) : State :=
  match s.millEntry with
  | some i => if (s.span i).record.marker = some c then s.markSpan i m else s
  | none => s

/-! ### Requests (R82, R83, R102) -/

/-- The field ranges and the span's own constraints (R82). A record with enabled set to no, which may hold anything that passes
the ranges, is held to the constraints on D, the gauge, the stand order and the marker as well: a DESIGN CHOICE (log 33). -/
def SpanRecord.inRange (r : SpanRecord) : Bool :=
  r.upstream ≤ 8 && r.downstream ≤ 8 && 500 ≤ r.length && r.length ≤ 20000 && 50 ≤ r.segment && r.segment ≤ 1000 &&
    (r.capacity == 16 || r.capacity == 32 || r.capacity == 64) && r.push < 32 && r.pop < 32 &&
    2 ≤ SpanRecord.depth r && SpanRecord.depth r + 4 ≤ r.capacity &&
    r.gauge.all (fun g => g.1 < 32 && g.2 < r.length && g.2 / r.segment < SpanRecord.depth r) &&
    (r.downstream == 0 || r.upstream < r.downstream) &&
    r.marker.all (fun m => m < 32 && r.upstream == 0)

/-- An enabled record clashes with no other enabled span (R82). -/
def State.spanFits (s : State) (i : Nat) (r : SpanRecord) : Bool :=
  !r.enabled || (List.range 9).all fun j =>
    let q := (s.span j).record
    j == i || !q.enabled || (q.upstream != r.upstream && (r.downstream == 0 || q.downstream != r.downstream))

/-- An end stand is 0, OUT or READY (R83). -/
def State.endAtRest (s : State) (n : Nat) : Bool := n == 0 || (s.stand n).isOut || (s.stand n).isReady

/-- The running state after a load (R83): as at start-up, but a span that is the mill entry before and after keeps its
strip-present flag and its pending WELD. -/
def Span.loaded (P : Span) (r : SpanRecord) : Span :=
  if P.record.upstream = 0 ∧ r.upstream = 0 then
    { Span.start r with stripPresent := P.stripPresent, weldPending := P.weldPending }
  else Span.start r

/-- LOAD SPAN (R82, R83); a pending WELD that the load clears is reported lost. -/
def reqLoadSpan (i : Nat) (r : SpanRecord) (s : State) : State × Answer :=
  let P := s.span i
  let ends := [P.record.upstream, P.record.downstream, r.upstream, r.downstream]
  if 9 ≤ i || !SpanRecord.inRange r || !s.spanFits i r then refuse .range s
  else if P.state != .idle || !ends.all s.endAtRest then refuse .state s
  else
    let s := s.modSpan i fun P => P.loaded r
    let s := if P.weldPending && !(s.span i).weldPending then s.flushNotice i .load 0 0 true else s
    (s.setModified secStands, .done [])

/-- FLUSH SPAN (R102). -/
def reqFlushSpan (i : Nat) (s : State) : State × Answer :=
  if 9 ≤ i then refuse .range s
  else if !(s.span i).record.enabled then refuse .state s
  else (s.flush i .request 0, .done [])

end Sys2Proof.Machine
end

