-- ==== Sys2Proof/Machine/Gauge.lean ====
section
/-! DEFINITION. The gauge unit (chapter 4): calibration, judgement, hand-on, rewriting and muting of samples, the stale
timer, and LOAD CHANNEL. -/

namespace Sys2Proof.Machine

/-! ### Calibration (R66) -/

/-- Interpolate between two breakpoints, rounding the whole value (R66). -/
def interpolate (a b : Int × Int) (raw : Int) : Int :=
  roundDiv (a.2 * (b.1 - a.1) + (raw - a.1) * (b.2 - a.2)) (b.1 - a.1)

/-- The table from breakpoint `a` on, for a raw value not below it: the value, and whether it lies beyond the last (R66). -/
def lookUp (a : Int × Int) : List (Int × Int) → Int → Int × Bool
  | [], raw => (a.2, a.1 < raw)
  | b :: r, raw => if raw ≤ b.1 then (interpolate a b raw, false) else lookUp b r raw

/-- A raw value through the table, with the table's clamped mark (R66). -/
def throughTable : List (Int × Int) → Int → Int × Bool
  | [], _ => (0, true)
  | a :: r, raw => if raw < a.1 then (a.2, true) else lookUp a r raw

/-- The calibrated value and the clamped mark (R66). -/
def ChannelRecord.calibrate (r : ChannelRecord) (raw : Int) : Int × Bool :=
  let t := throughTable r.table raw
  let v := clampTo r.engMin r.engMax t.1
  (v, t.2 || v != t.1)

/-! ### Judgement (R67 to R70, R75) -/

/-- Outcome of judging a sample: accepted with the advance it gives, rejected, or counted into the recovery run. -/
inductive Judgement where
  | accepted (advance : Option Nat)
  | rejected
  | recovering (run : Nat)
  deriving DecidableEq, Repr

/-- A sample as judged: its value, its clamped mark and whether it is in range; a MARKER's code is its value (R66, R75). -/
structure Reading where
  value : Int
  clamped : Bool
  inRange : Bool
  deriving DecidableEq, Repr

/-- Read a sample by a channel's record (R66, R75). -/
def ChannelRecord.reading (r : ChannelRecord) (raw : Int) : Reading :=
  if r.type = .marker then ⟨raw, false, (markerOf raw).isSome⟩
  else
    let c := ChannelRecord.calibrate r raw
    ⟨c.1, c.2, !c.2⟩

/-- The length delta modulo 2^32 (R68). -/
def lengthDelta (now reference : Quad) : Nat := (now - reference).toNat

/-- The step checks of R68 against the held value and the length reference: the advance a SPEED sample gives, none when a
check fails. -/
def Channel.stepPasses (C : Channel) (x : Reading) (count : Quad) : Bool :=
  |x.value - C.value| ≤ C.record.stepLimit &&
    (C.record.type != .speed || C.lengthRef.all fun r => lengthDelta count r ≤ C.record.lengthLimit)

/-- The step checks of the recovery run against the last calibrated entry (R70). -/
def Channel.runContinues (C : Channel) (x : Reading) (count : Quad) : Bool :=
  match C.lastCalibrated with
  | none => C.record.type == .marker
  | some (v, n) =>
    C.record.type == .marker ||
      (|x.value - v| ≤ C.record.stepLimit &&
        (C.record.type != .speed || lengthDelta count n ≤ C.record.lengthLimit))

/-- The recovery run after a sample (R70). -/
def Channel.nextRun (C : Channel) (x : Reading) (count : Quad) : Nat :=
  if !x.inRange then 0
  else if C.recoveryRun = 0 then 1
  else if C.runContinues x count then C.recoveryRun + 1
  else 1

/-- Judge a matched sample against its channel's state (R67, R68, R70, R75). -/
def Channel.judge (C : Channel) (x : Reading) (count : Quad) : Judgement :=
  match C.state with
  | .valid | .suspect =>
    if C.record.type = .marker then (if x.inRange then .accepted none else .rejected)
    else if C.stepPasses x count then
      .accepted (if C.record.type = .speed then C.lengthRef.map (lengthDelta count) else none)
    else .rejected
  | .failed => if C.nextRun x count = 3 then .accepted none else .recovering (C.nextRun x count)
  | .waiting | .stale | .off => if x.inRange then .accepted none else .rejected

/-- HIGH and LOW of a value (R78). -/
def Channel.judgeLimits (C : Channel) : Channel :=
  { C with
    high := C.valueAccepted && C.record.high.any fun h => h < C.value
    low := C.valueAccepted && C.record.low.any fun l => C.value < l }

/-- The effects of an acceptance (R68). -/
def Channel.accept (C : Channel) (x : Reading) (count : Quad) : Channel :=
  Channel.judgeLimits
    { C with
      value := x.value, rejectCount := 0, recoveryRun := 0, valueAccepted := true, state := .valid,
      lengthRef := if C.record.type = .speed then some count else C.lengthRef,
      staleTimer := if C.record.type = .marker then none else some C.record.staleTime,
      accepted := bump C.accepted }

/-- The effects of a rejection (R69). -/
def Channel.reject (C : Channel) : Channel :=
  let n := C.rejectCount + 1
  let C := { C with rejectCount := n, rejected := bump C.rejected }
  if C.record.rejectLimit ≤ n then { C with state := .failed, staleTimer := none, recoveryRun := 0 }
  else if C.state = .valid ∨ C.state = .suspect then { C with state := .suspect }
  else C

/-- Steps 1 to 3 of R65 at the channel: counts, judgement, and the last calibrated entry. -/
def Channel.take (C : Channel) (x : Reading) (count : Quad) : Channel × Judgement :=
  let j := C.judge x count
  let C' := match j with
    | .accepted _ => C.accept x count
    | .rejected => C.reject
    | .recovering run => { C with recoveryRun := run }
  ({ C' with
      matched := bump C.matched
      lastCalibrated :=
        if C.record.type = .marker then C.lastCalibrated
        else some (x.value, if C.record.type = .speed then count else 0#32) }, j)

/-- The quality forwarded (R68, R69, R70, R72). -/
def Channel.quality (C : Channel) (x : Reading) (j : Judgement) : Quality :=
  match j with
  | .accepted _ => if x.clamped then .clamped else .good
  | .rejected | .recovering _ => if C.state = .failed then .failed else .suspect

/-! ### The channel in the part -/

/-- Write a channel; each of its four conditions that changed is presented to the trip unit (R65, R77, R78). -/
def State.setChannel (c : Nat) (C : Channel) (s : State) : State :=
  let s' := s.modChannel c fun _ => C
  (((s'.changed ⟨.stale, c⟩ (s.level ⟨.stale, c⟩)).changed ⟨.failed, c⟩ (s.level ⟨.failed, c⟩)).changed
    ⟨.high, c⟩ (s.level ⟨.high, c⟩)).changed ⟨.low, c⟩ (s.level ⟨.low, c⟩)

/-- The channel a sample matches (R65). -/
def State.matching (s : State) (source point : Byte) : Option Nat :=
  (List.range 32).find? fun c =>
    let r := (s.channel c).record
    r.enabled && r.node == source.toNat && r.point == point.toNat

/-- The value accepted with a sample, none when it was not accepted (R76). -/
def Judgement.acceptedValue (j : Judgement) (x : Reading) : Option Int :=
  match j with
  | .accepted _ => some x.value
  | .rejected | .recovering _ => none

/-- The force outcome is reported to each configured stand that names the channel (R76), in increasing order (log 11). -/
def State.forceOutcomes (c : Nat) (v : Option Int) (s : State) : State :=
  (standNumbers.filter fun n => (s.stand n).record.configured && (s.stand n).record.force == c).foldl
    (fun s n => s.forceOutcome n v) s

/-- Step 4 of R65: the sample's results are handed on. -/
def State.handOn (c : Nat) (x : Reading) (j : Judgement) (s : State) : State :=
  match (s.channel c).record.type, j with
  | .speed, .accepted (some d) => s.advance c d
  | .marker, .accepted _ =>
    match markerOf x.value with
    | some m => s.mark c m
    | none => s
  | .force, _ => s.forceOutcomes c (j.acceptedValue x)
  | _, _ => s

/-- What the gauge unit does with a sample's frame (R60, R72, R73). -/
inductive SampleFate where
  | unchanged
  | rewritten (fields : SampleFields)
  | muted
  deriving DecidableEq, Repr

/-- A SAMPLE handed to the gauge unit (R65): the sample is matched, judged and handed on, and its frame rewritten or
muted. -/
def State.takeSample (source : Byte) (f : SampleFields) (s : State) : State × SampleFate :=
  match s.matching source f.point with
  | none => (s, .unchanged)
  | some c =>
    let C := s.channel c
    let x := ChannelRecord.reading C.record f.raw
    let (C', j) := C.take x f.lengthCount
    let s := (s.setChannel c C').handOn c x j
    if C'.state = .failed ∧ C.record.treatment = .mute then
      (s.modChannel c fun C => { C with muted := bump C.muted }, .muted)
    else (s, .rewritten { f with eng := C'.value, quality := C'.quality x j })

/-- The stale timer expires (R71). -/
def State.staleExpiry (c : Nat) (s : State) : State :=
  if (s.channel c).staleTimer.isSome then
    s.event ⟨.stale, c⟩ fun s => s.modChannel c fun C => { C with state := .stale, staleTimer := none }
  else s

/-! ### LOAD CHANNEL (R63, R79, R80) -/

/-- The raw values strictly increase. -/
def risingRaw : List (Int × Int) → Bool
  | a :: b :: r => a.1 < b.1 && risingRaw (b :: r)
  | _ => true

/-- The field ranges and constraints of a channel record, but for the other channels (R63). -/
def ChannelRecord.inRange (own : Nat) (r : ChannelRecord) : Bool :=
  nodeNumber r.node && r.node != own && r.point ≤ 255 && 2 ≤ r.table.length && r.table.length ≤ 16 &&
    risingRaw r.table && r.engMin ≤ r.engMax &&
    (r.type != .force || (0 ≤ r.engMin && r.engMax ≤ 60000)) &&
    (r.type != .marker || (r.engMin == 1 && r.engMax == 3)) &&
    1 ≤ r.stepLimit && r.stepLimit ≤ 1000000 && 1 ≤ r.lengthLimit && r.lengthLimit ≤ 1000000 &&
    1 ≤ r.rejectLimit && r.rejectLimit ≤ 15 && 1 ≤ r.staleTime && r.staleTime ≤ 1000 &&
    (r.type != .marker || (r.high.isNone && r.low.isNone)) &&
    (match r.high, r.low with | some h, some l => decide (l < h) | _, _ => true)

/-- No other enabled channel has the same source node and point (R63). -/
def State.channelFree (s : State) (c : Nat) (r : ChannelRecord) : Bool :=
  (List.range 32).all fun k =>
    let q := (s.channel k).record
    k == c || !q.enabled || q.node != r.node || q.point != r.point

/-- The load keeps the enabled field, source node, point and type (R79, R80). -/
def ChannelRecord.sameIdentity (a b : ChannelRecord) : Bool :=
  a.enabled == b.enabled && a.node == b.node && a.point == b.point && a.type == b.type

/-- The channel is at work: the force channel of a ROLLING or MOVING stand, or named by a span that is not IDLE (R79). -/
def State.channelBusy (s : State) (c : Nat) : Bool :=
  (standNumbers.any fun n => (s.stand n).record.force == c && ((s.stand n).isRolling || (s.stand n).isMoving)) ||
    (List.range 9).any fun i =>
      let P := s.span i
      P.state != .idle && (P.record.push == c || P.record.pop == c || (P.record.gauge.any fun g => g.1 == c) ||
        P.record.marker == some c)

/-- A load that keeps the channel's identity (R80). A channel with no value accepted keeps its old value too, clamped, though a load
may lower the eng_min that R69 and R72 name for it: a DESIGN CHOICE (log 35). -/
def Channel.reloaded (C : Channel) (r : ChannelRecord) : Channel :=
  Channel.judgeLimits
    { C with
      record := r, value := clampTo r.engMin r.engMax C.value,
      staleTimer := if C.record.staleTime = r.staleTime then C.staleTimer else C.staleTimer.map fun _ => r.staleTime }

/-- LOAD CHANNEL (R63, R79, R80). -/
def reqLoadChannel (c : Nat) (r : ChannelRecord) (s : State) : State × Answer :=
  let C := s.channel c
  if 32 ≤ c || !ChannelRecord.inRange s.part.own r || !s.channelFree c r then refuse .range s
  else if ChannelRecord.sameIdentity C.record r then
    ((s.setChannel c (C.reloaded r)).setModified secChannels, .done [])
  else if s.channelBusy c then refuse .state s
  else ((s.setChannel c (Channel.start r)).setModified secChannels, .done [])

end Sys2Proof.Machine
end

