-- ==== Sys2Proof/Machine/Link.lean ====
section
/-! DEFINITION. The link ports (chapters 1 to 3): the link state machine, the monitors, the test modes, the pattern checker,
the transmitter, and LOAD PORT, SET PORT TEST, INJECT ERROR. -/

namespace Sys2Proof.Machine

/-! ### Changes of a port, with its conditions -/

/-- Write a port's new content; each of its five conditions that changed is presented to the trip unit (R25 to R29). -/
def State.setPort (p : Nat) (f : Port → Port) (s : State) : State :=
  let s' := s.modPort p f
  ((((s'.changed ⟨.link, p⟩ (s.level ⟨.link, p⟩)).changed ⟨.silent, p⟩ (s.level ⟨.silent, p⟩)).changed
    ⟨.babble, p⟩ (s.level ⟨.babble, p⟩)).changed ⟨.rate, p⟩ (s.level ⟨.rate, p⟩)).changed
    ⟨.storm, p⟩ (s.level ⟨.storm, p⟩)

/-- A port changes its link state (R21 to R25): SYNC starts its idle run at zero, and a burst in progress is discarded when
the port leaves UP (R19). -/
def Port.toLink (l : LinkState) (P : Port) : Port :=
  { P with
    link := l
    idleRun := if l = .sync then 0 else if l = .up then 32 else P.idleRun
    burst := if l = .up then P.burst else none }

/-! ### Energy and link events (R21 to R24) -/

/-- Signal energy appears (R21). -/
def State.energyDetected (p : Nat) (s : State) : State :=
  s.setPort p fun P =>
    if P.link = .down then ({ P with energy := true } : Port).toLink .sync else { P with energy := true }

/-- Signal energy is lost (R21); the rate window gives no verdict (R27). -/
def State.energyLost (p : Nat) (s : State) : State :=
  s.setPort p fun P =>
    let P := { P with energy := false, rateSpoiled := true }
    if P.link = .sync ∨ P.link = .up ∨ P.link = .babble then P.toLink .down else P

/-- The idle run reaches 32 in SYNC (R22). -/
def State.idleRunComplete (p : Nat) (s : State) : State :=
  s.setPort p fun P => if P.link = .sync then P.toLink .up else P

/-- The hold period expires in UP (R23). -/
def State.holdPeriodExpiry (p : Nat) (s : State) : State :=
  s.setPort p fun P => if P.link = .up then P.toLink .sync else P

/-- A burst runs beyond 32 µs in UP (R24). -/
def State.runawayBurst (p : Nat) (s : State) : State :=
  s.setPort p fun P => if P.link = .up then P.toLink .babble else P

/-- The line has been quiet for 5 ms in BABBLE (R24). -/
def State.babbleQuiet (p : Nat) (s : State) : State :=
  s.setPort p fun P => if P.link = .babble then P.toLink .sync else P

/-! ### Monitors (R26 to R29) -/

/-- A frame judged valid clears SILENT and restarts the silence timer (R26). -/
def State.heard (p : Nat) (s : State) : State :=
  s.setPort p fun P => { P with silenceTimer := some P.record.silenceTime, silent := false }

/-- The silence timer expires (R26). -/
def State.silenceExpiry (p : Nat) (s : State) : State :=
  s.setPort p fun P => if P.silenceTimer.isSome then { P with silenceTimer := none, silent := true } else P

/-- RATE after a window of `n` symbols (R27): a difference above 750 from 250,000 raises it, one below 500 clears it. -/
def rateVerdict (level : Bool) (n : Nat) : Bool :=
  let d := |(n : Int) - 250000|
  if 750 < d then true else if d < 500 then false else level

/-- A rate window ends (R27); one without energy or DISABLED during any part gives no verdict, and the next starts. -/
def State.rateWindowEnd (p n : Nat) (s : State) : State :=
  s.setPort p fun P =>
    { P with
      rate := if P.rateSpoiled then P.rate else rateVerdict P.rate n
      rateLeft := 10
      rateSpoiled := !P.energy || P.link == .disabled }

/-- A storm window ends (R29). -/
def State.stormWindowEnd (p : Nat) (s : State) : State :=
  s.setPort p fun P =>
    { P with limiting := P.limiting && P.record.falling < P.stormCount, stormCount := 0, stormLeft := P.record.stormWindow }

/-- An offered sample is admitted, or else discarded as STORM (R28). -/
def Port.admits (P : Port) : Bool :=
  if P.limiting then P.stormCount < P.record.falling else P.stormCount < P.record.rising

/-- A sample is offered to the storm limiter (R28): the (R+1)th of a window takes the port to LIMITING. -/
def State.offer (p : Nat) (s : State) : State :=
  s.setPort p fun P => { P with stormCount := P.stormCount + 1, limiting := P.limiting || !P.admits }

/-! ### Test modes (R30 to R37) -/

/-- A test mode is entered or left (R31): what `leaveTest` loses, and for PATTERN the register and the frame index of R16. -/
def Port.enterMode (m : TestMode) (P : Port) : Port :=
  let P := P.leaveTest
  let P := { P with mode := m }
  if m = .pattern then { P with patternRegister := BitVec.allOnes 15, patternIndex := 0#16 } else P

/-- A port named by a configured stand that is not OUT, as its port or as that of an extra stop node (R18, R30). -/
def State.namedInService (s : State) (p : Nat) : Bool :=
  standNumbers.any fun n => (s.stand n).inService && (StandRecord.ports (s.stand n).record).contains p

/-- The normal queue is emptied on entry to REMOTE LOOP or PATTERN (R31). -/
def Net.clearForTest (p : Nat) (m : TestMode) (n : Net) : Net :=
  if m = .remoteLoop ∨ m = .pattern then n.emptyQueue p else n

/-- SET PORT TEST (R30). -/
def reqSetPortTest (arrival p code : Nat) (s : State) : State × Answer :=
  if 12 ≤ p then refuse .range s
  else
    match modeOf code with
    | none => refuse .range s
    | some .none =>
      (if (s.port p).mode = .none then s else s.setPort p (Port.enterMode .none), .done [])
    | some m =>
      if (s.port p).hasRole .disabled || p == arrival || ((s.port p).hasRole .stand && s.namedInService p) then
        refuse .state s
      else (({ s with net := s.net.clearForTest p m }).setPort p (Port.enterMode m), .done [])

/-- INJECT ERROR (R36). -/
def reqInjectError (p : Nat) (s : State) : State × Answer :=
  if 12 ≤ p then refuse .range s
  else if (s.port p).mode = .pattern then (s.modPort p fun P => { P with injection := true }, .done [])
  else refuse .state s

/-! ### Pattern checker (R35) -/

/-- The checker OUT OF SYNC takes a frame's data bits (R35). -/
def Checker.acquire (K : Checker) (bits : List Bool) : Checker :=
  let first := bits.take 15
  let gen := patternDraw 497 (patternLoad first)
  let expected := (patternDraw 512 K.register).1
  if gen.1 = bits.drop 15 ∧ first.any id then
    if K.goodRun = 1 ∧ bits = expected then { inSync := true, goodRun := 2, badRun := 0, register := gen.2 }
    else { K with goodRun := 1, register := gen.2 }
  else { K with goodRun := 0, register := gen.2 }

/-- A bad frame in IN SYNC (R35): the register advances by 512 bits, and the fourth in a row loses synchronization. -/
def Checker.bad (K : Checker) : Checker :=
  let K := { K with badRun := K.badRun + 1, register := (patternDraw 512 K.register).2 }
  if 4 ≤ K.badRun then { K with inSync := false, goodRun := 0 } else K

/-- A PATTERN frame at the checker (R35): the new checker, and whether the frame was bad. -/
def Checker.check (K : Checker) (bits : List Bool) : Checker × Bool :=
  if K.inSync then
    let gen := patternDraw 512 K.register
    if gen.1 = bits then ({ K with badRun := 0, register := gen.2 }, false) else (K.bad, true)
  else (K.acquire bits, false)

/-- A frame discarded as CHECK in PATTERN mode (R35). -/
def Checker.checkDiscard (K : Checker) : Checker × Bool :=
  if K.inSync then (K.bad, true) else ({ K with goodRun := 0 }, false)

/-- Write the checker of a port and count a bad frame (R35, R38). -/
def Net.setChecker (p : Nat) (r : Checker × Bool) (n : Net) : Net :=
  let n := n.modPort p fun P => { P with checker := r.1 }
  if r.2 then n.count p .patternErrors else n

/-- A valid PATTERN frame received in PATTERN mode (R35). -/
def Net.patternCheck (p : Nat) (f : Frame) (n : Net) : Net :=
  n.setChecker p ((n.port p).checker.check (unpackBits (f.payload.drop 2)))

/-! ### Transmitter (R20, R34, R46 to R50) -/

/-- The STOP frame of an order (R13). -/
def stopFrame (own : Nat) (o : StopOrder) : Frame :=
  ⟨o.dest, BitVec.ofNat 8 own, .stop, put8 (classCode (some o.cls)) ++ [o.mask] ++ put8 o.entry ++ [o.count]⟩

/-- The GAP frame of a command (R12). -/
def gapFrame (own : Nat) (g : GapCommand) : Frame :=
  ⟨g.dest, BitVec.ofNat 8 own, .gap, putInt g.command ++ put8 g.pass ++ [g.flags] ++ put8 g.stand⟩

/-- Invert the most significant bit of the first byte (R36). -/
def invertFirst : List Byte → List Byte
  | [] => []
  | b :: r => (b ^^^ 0x80#8) :: r

/-- The next PATTERN frame of a port (R16, R34, R36), and the port after it is drawn. -/
def Port.nextPattern (P : Port) : Frame × Port :=
  let gen := patternDraw 512 P.patternRegister
  let data := packBits gen.1
  let data := if P.injection then invertFirst data else data
  (⟨0#8, 0#8, .pattern, put16 P.patternIndex.toNat ++ data⟩,
   { P with patternRegister := gen.2, patternIndex := P.patternIndex + 1, injection := false })

/-- The loop of a port whose transmitter begins a frame (R32): in LOCAL LOOP the frame goes into the port's own receiver. -/
def Port.nextLoop (P : Port) : Option Burst := if P.mode = .localLoop then some .start else none

/-- Begin the head of the normal queue (R49). -/
def Net.sendQueued (p : Nat) (n : Net) : Net :=
  match (n.port p).queue with
  | [] => n
  | id :: rest =>
    match n.frame id with
    | some f =>
      n.modPort p fun P => { P with queue := rest, sending := some ⟨f, some id⟩, loop := P.nextLoop }
    | none => n.modPort p fun P => { P with queue := rest }

/-- Begin the command slot, else the head of the queue (R48, R50). -/
def Net.sendCommand (own p : Nat) (n : Net) : Net :=
  match (n.port p).commandSlot with
  | some g =>
    n.modPort p fun P => { P with commandSlot := none, sending := some ⟨gapFrame own g, none⟩, loop := P.nextLoop }
  | none => n.sendQueued p

/-- Begin the stop slot, else the command slot, else the head of the queue (R47, R50). -/
def Net.sendFirst (own p : Nat) (n : Net) : Net :=
  match (n.port p).stopSlot with
  | some o => n.modPort p fun P => { P with stopSlot := none, sending := some ⟨stopFrame own o, none⟩, loop := none }
  | none => n.sendCommand own p

/-- A free transmitter begins a frame from the sources its test mode serves (R20, R50). -/
def Net.transmitBegin (own p : Nat) (n : Net) : Net :=
  if (n.port p).sending.isSome || (n.port p).link == .disabled then n
  else
    match (n.port p).mode with
    | .none => n.sendFirst own p
    | .localLoop => n.sendCommand own p
    | .remoteLoop => n.sendQueued p
    | .pattern => n.modPort p fun P => let x := P.nextPattern
      { x.2 with sending := some ⟨x.1, none⟩, loop := none }

/-- Release the reference a transmission held (R43, R49). -/
def Net.releaseHeld (held : Option Nat) (n : Net) : Net :=
  match held with
  | some id => n.release id
  | none => n

/-- A STOP frame is being sent, from the stop slot or as an echo of REMOTE LOOP (R33, R38). -/
def Sending.stopOrder (x : Sending) : Bool := x.frame.kind == .stop

/-- The end delimiter of the frame being sent goes: it counts as sent, and a STOP frame as a stop order sent (R38, R43). -/
def Net.transmitEnd (p : Nat) (n : Net) : Net :=
  match (n.port p).sending with
  | none => n
  | some x =>
    let n := n.count p .sent
    let n := if x.stopOrder then n.count p .stopSent else n
    (n.releaseHeld x.held).modPort p fun P => { P with sending := none }

/-! ### The receiver in LOCAL LOOP (R32) -/

/-- The looped frame is over: the receiver frees its blocks and counts it (R32, R42). -/
def State.loopEnd (p : Nat) (k : Count) (s : State) : State :=
  { s with net := s.net.count p k |>.modPort p fun P => { P with loop := none } }

/-- A looped frame judged valid (R26, R32, R38, R42): counted as received, the silence timer restarted; one short of buffer is
counted as NO_BUFFER, any other released by the test logic. -/
def State.loopValid (p : Nat) (s : State) : State :=
  let short := (s.port p).isShort .loop
  let s := (s.loopEnd p .received).heard p
  if short then { s with net := s.net.count p .noBuffer } else s

/-- The end delimiter of a looped frame reaches the port's own receiver (R4, R32): its claims are complete, and it is judged
and counted. -/
def State.loopReceive (p : Nat) (f : Frame) (s : State) : State :=
  let s := { s with net := s.net.completeClaims .loop p (claimsNeeded f.size) }
  match judge s.part.own (symbolsOf f.bytes) with
  | .malformed => s.loopEnd p .malformed
  | .check => s.loopEnd p .check
  | .valid _ => s.loopValid p

/-- The frame being sent goes into the port's own receiver. -/
def Port.looped (P : Port) : Option Frame :=
  match P.loop, P.sending with
  | some _, some x => some x.frame
  | _, _ => none

/-- The transmitter sends an end delimiter (R20, R32, R38, R43): a looped frame is judged as it ends, even when a stop order
has ended the mode (R37, log 31); the frame counts as sent, and the reference held on it is released. -/
def State.transmitEnd (p : Nat) (s : State) : State :=
  let s := match (s.port p).looped with
    | some f => s.loopReceive p f
    | none => s
  { s with net := s.net.transmitEnd p }

/-! ### LOAD PORT (R17, R18, R41, R44) -/

/-- The field ranges of a port record (R17). -/
def PortRecord.inRange (r : PortRecord) : Bool :=
  2 ≤ r.reservation && r.reservation ≤ 32 && 1 ≤ r.silenceTime && r.silenceTime ≤ 250 && 1 ≤ r.stormWindow &&
    r.stormWindow ≤ 100 && 1 ≤ r.rising && r.rising ≤ 1000 && r.falling < r.rising

/-- With the record in place, at most two ports are LINE ports (R17). -/
def State.linesFit (s : State) (p : Nat) (r : PortRecord) : Bool :=
  r.role != .line || (portNumbers.filter fun q => q != p && (s.port q).hasRole .line).length < 2

/-- With the record in place, the reservations sum to at most 256 (R41). -/
def State.reservationsFit (s : State) (p : Nat) (r : PortRecord) : Bool :=
  (portNumbers.map fun q => if q = p then r.reservation else s.net.reservation q).sum ≤ 256

/-- Retag up to `k` blocks of port `p`'s reservation as shared (R44). -/
def retagTags (p : Nat) : Nat → List BlockTag → Nat × List BlockTag
  | k, [] => (k, [])
  | 0, l => (0, l)
  | k + 1, t :: r =>
    if t = .reserved p then
      let x := retagTags p k r
      (x.1, .shared :: x.2)
    else
      let x := retagTags p (k + 1) r
      (x.1, t :: x.2)

/-- Retag up to `k` blocks over the held frames, oldest first (R44, log 14). -/
def retagFrames (p : Nat) : Nat → List HeldFrame → Nat × List HeldFrame
  | k, [] => (k, [])
  | k, h :: r =>
    let x := retagTags p k h.tags
    let y := retagFrames p x.1 r
    (y.1, { h with tags := x.2 } :: y.2)

/-- Retag `k` blocks: held frames first, then the bursts being received, from the line and in the loop (R44, log 14). -/
def Net.retag (p k : Nat) (n : Net) : Net :=
  let x := retagFrames p k n.frames
  let n := { n with frames := x.2 }
  let y := retagTags p x.1 (burstTags (n.port p).burst)
  n.modPort p fun P =>
    { P with burst := P.burst.map fun b => { b with tags := y.2 }
             loop := P.loop.map fun b => { b with tags := (retagTags p y.1 b.tags).2 } }

/-- A lowered reservation retags the excess blocks (R44); a kept or a raised one keeps every tag, whatever a RESTART has left
held under it (R62). -/
def Net.lowerReservation (p r : Nat) (n : Net) : Net :=
  if r < n.reservation p ∧ r < n.used p then n.retag p (n.used p - r) else n

/-- A port whose role becomes DISABLED (R21, R26, R27, R29, R46). It receives nothing more, a looped frame neither (log 31). -/
def Port.disable (P : Port) : Port :=
  let P := P.toLink .disabled
  { P with
    loop := none, silenceTimer := none, silent := false, rate := false, rateSpoiled := true, limiting := false, stopSlot := none,
    commandSlot := none }

/-- A port takes a role other than DISABLED (R21, R26): SYNC or DOWN by its energy detector, and the silence timer starts. -/
def Port.enable (P : Port) : Port :=
  let P := P.toLink (if P.energy then .sync else .down)
  { P with silenceTimer := some P.record.silenceTime }

/-- The effects of a change of role (R18). -/
def Port.changeRole (P : Port) (old new : Role) : Port :=
  let P := if P.mode = .none then P else P.leaveTest
  let P := { P with stormCount := 0, stormLeft := P.record.stormWindow }
  if new = .disabled then P.disable else if old = .disabled then P.enable else P

/-- A port under a new record (R18, R26, R29). -/
def Port.loaded (P : Port) (r : PortRecord) : Port :=
  let old := P.record
  let P : Port := { P with record := r }
  let P := if old.silenceTime = r.silenceTime ∨ old.role = .disabled then P
    else { P with silenceTimer := some r.silenceTime }
  let P := if old.stormWindow = r.stormWindow ∧ old.rising = r.rising ∧ old.falling = r.falling then P
    else { P with stormCount := 0, stormLeft := r.stormWindow }
  if old.role = r.role then P else P.changeRole old.role r.role

/-- The STATE grounds of a change of role (R18). -/
def State.roleHeld (s : State) (arrival p : Nat) : Bool :=
  p == arrival || s.namedInService p || ((s.port p).hasRole .panel && (s.port p).panel)

/-- LOAD PORT, the form of one port (R17, R18, R41, R44). Where it both lowers the reservation and makes the port DISABLED, the
normal queue is emptied first, the burst the port was receiving still counts among the blocks to retag, and is dropped after
that: a DESIGN CHOICE (log 14). -/
def reqLoadPort (arrival p : Nat) (r : PortRecord) (s : State) : State × Answer :=
  let old := (s.port p).record
  if 12 ≤ p || !PortRecord.inRange r || !s.linesFit p r || !s.reservationsFit p r then refuse .range s
  else if old.role != r.role && s.roleHeld arrival p then refuse .state s
  else if old.reservation < r.reservation && s.net.sharedFree < r.reservation - old.reservation then (s, .busy)
  else
    let n := if r.role = .disabled ∧ old.role ≠ .disabled then s.net.emptyQueue p else s.net
    let n := n.lowerReservation p r.reservation
    ((({ s with net := n }).setPort p fun P => P.loaded r).setModified secPorts, .done [])

end Sys2Proof.Machine
end

