-- ==== Sys2Proof/Machine/Forwarding.lean ====
section
/-! DEFINITION. The forwarding engine (chapter 3): the node table, BIND NODE and UNBIND NODE, the part-wide LOAD PORT, copies
and unicast. -/

namespace Sys2Proof.Machine

/-! ### The node table (R51 to R56) -/

/-- The node numbers 1 to 254. -/
def nodeNumbers : List Nat := (List.range 254).map (· + 1)

/-- The lowest node with a BOUND entry at port `p` (R53, log 17). -/
def State.boundAt (s : State) (p : Nat) : Option Nat :=
  nodeNumbers.find? fun n => (s.node n).binding == .bound p

/-- The NODE MOVED notice of an entry that was LEARNED at another port (R52). -/
def State.movedNotice (n p : Nat) (old : Binding) (s : State) : State :=
  match old with
  | .learned q _ => if q = p then s else s.notice .nodeMoved n (put8 q ++ put8 p)
  | .empty | .bound _ | .static _ => s

/-- A CONFLICT discard (R43, R52): its blocks freed and counted at the port, with a NODE CONFLICT notice unless the entry's
conflict-report field already names the port. -/
def State.conflict (n p named : Nat) (s : State) : State :=
  let s := { s with net := (s.net.count p .conflict).dropBurst p }
  if (s.node n).conflict = some p then s
  else
    let s := s.notice .nodeConflict n (put8 p ++ put8 named)
    s.setNode n { (s.node n) with conflict := some p }

/-- An EMPTY or LEARNED source at port `p` (R52, R53): LEARNED there, BOUND there under NODE LOCK, or CONFLICT when the lock
is taken. -/
def State.learn (n p : Nat) (s : State) : State × Bool :=
  let e := s.node n
  if (s.port p).record.nodeLock then
    match s.boundAt p with
    | some m => (s.conflict n p m, false)
    | none => ((s.setNode n { e with binding := .bound p }).movedNotice n p e.binding, true)
  else ((s.setNode n { e with binding := .learned p 0 }).movedNotice n p e.binding, true)

/-- The source of a valid frame is checked against the node table (R52, R53): says whether the frame is accepted. -/
def State.checkSource (n p : Nat) (s : State) : State × Bool :=
  match (s.node n).binding with
  | .static q | .bound q => if q = p then (s, true) else (s.conflict n p q, false)
  | .empty | .learned _ _ => s.learn n p

/-- Step 2 of R57 for a frame whose source node is given: the node table judges it, and the frame goes on to step 3 or is
discarded as CONFLICT. -/
def State.sourced (p : Nat) (source : Byte) (f : State → State) (s : State) : State :=
  let x := s.checkSource source.toNat p
  if x.2 then f x.1 else x.1

/-- One entry at an aging step (R54). -/
def NodeEntry.age (aging : Nat) (e : NodeEntry) : NodeEntry :=
  let b : Binding := match e.binding with
    | .learned p k => if aging = 0 then .learned p k else if aging ≤ k + 1 then .empty else .learned p (k + 1)
    | b => b
  ⟨b, Option.none⟩

/-- The node table is aged (R54). -/
def State.ageNodes (s : State) : State := { s with nodes := s.nodes.map (NodeEntry.age s.part.aging) }

/-- A node number of BIND NODE and UNBIND NODE: not 0, 255 or the own node number (R55, R56). -/
def State.bindable (s : State) (n : Nat) : Bool := nodeNumber n && n != s.part.own

/-- The entry is STATIC. -/
def NodeEntry.isStatic (e : NodeEntry) : Bool :=
  match e.binding with
  | .static _ => true
  | .empty | .learned _ _ | .bound _ => false

/-- BIND NODE (R55). -/
def reqBindNode (n p : Nat) (s : State) : State × Answer :=
  if !s.bindable n || 12 ≤ p then refuse .range s
  else if (s.node n).isStatic then refuse .state s
  else (s.setNode n ⟨.bound p, none⟩, .done [])

/-- UNBIND NODE (R56). -/
def reqUnbindNode (n : Nat) (s : State) : State × Answer :=
  if !s.bindable n then refuse .range s
  else if (s.node n).isStatic then refuse .state s
  else (s.setNode n { (s.node n) with binding := .empty }, .done [])

/-- The static binding a list gives a node (R51). -/
def staticPort (l : List (Nat × Nat)) (n : Nat) : Option Nat := (l.find? fun b => b.1 == n).map (·.2)

/-- The ranges of a part-wide record (R51). -/
def PartWide.inRange (r : PartWide) : Bool :=
  nodeNumber r.own && r.aging ≤ 600 && r.bindings.length ≤ 64 && (r.bindings.map (·.1)).Nodup &&
    r.bindings.all fun b => nodeNumber b.1 && b.1 != r.own && b.2 < 12

/-- The record keeps the static binding of every configured stand's node (R51). -/
def State.keepsStands (s : State) (r : PartWide) : Bool :=
  standNumbers.all fun n =>
    let q := (s.stand n).record
    !q.configured ||
      match (s.node q.node).binding with
      | .static p => staticPort r.bindings q.node == some p
      | .empty | .learned _ _ | .bound _ => true

/-- One entry under a new part-wide record (R51). -/
def NodeEntry.reload (r : PartWide) (oldOwn n : Nat) (e : NodeEntry) : NodeEntry :=
  match staticPort r.bindings n with
  | some p => { e with binding := .static p }
  | .none => if e.isStatic || (n == r.own && r.own != oldOwn) then { e with binding := .empty } else e

/-- LOAD PORT, the part-wide form (R51). -/
def reqLoadPartWide (r : PartWide) (s : State) : State × Answer :=
  if !PartWide.inRange r then refuse .range s
  else if !s.keepsStands r then refuse .state s
  else
    let s := { s with
      nodes := Vector.ofFn fun n : Fin 256 => (s.node n).reload r s.part.own n
      part := r }
    (s.setModified secPorts, .done [])

/-! ### Copies (R59) -/

/-- Copies to the LINE ports that count as UP, other than the arrival port (R59). -/
def Net.toLines (p id : Nat) (n : Net) : Net := (n.copies id (n.upLines (some p))).1

/-- The port of an entry, none when it is EMPTY. -/
def Binding.port : Binding → Option Nat
  | .empty => none
  | .learned p _ | .bound p | .static p => some p

/-- A unicast copy by the node table (R59): NO_ROUTE for an EMPTY entry or a port that does not count as UP; released
uncounted when the entry names the arrival port. -/
def State.unicast (p id : Nat) (dest : Byte) (s : State) : State :=
  match (s.node dest.toNat).binding.port with
  | none => { s with net := s.net.count p .noRoute }
  | some q =>
    if q = p then s
    else if (s.port q).forwards then { s with net := (s.net.enqueue q id).1 }
    else { s with net := s.net.count p .noRoute }

/-! ### The treatment of a frame (R58) -/

/-- What step 3 of R57 decides (R58). -/
inductive Treatment where
  | gauge
  | standUnit (stand : Nat)
  | lines
  | setpoint
  | group
  | panel
  | manage
  | noRoute
  | unicast
  | role
  deriving DecidableEq, Repr

/-- The configured stand whose port is `p` and whose stand node is the source (R58). -/
def State.standOf (s : State) (p : Nat) (source : Byte) : Option Nat :=
  standNumbers.find? fun n =>
    let r := (s.stand n).record
    r.configured && r.port == p && r.node == source.toNat

/-- The table of R58. -/
def State.treatment (s : State) (p : Nat) (f : Frame) : Treatment :=
  let role := (s.port p).record.role
  let toPart := f.dest.toNat == s.part.own
  match f.kind with
  | .sample => if role = .sensor then .gauge else .role
  | .status =>
    if role = .stand then
      match s.standOf p f.source with
      | some n => .standUnit n
      | none => .lines
    else .lines
  | .setpoint => if role = .line ∧ toPart then .setpoint else .role
  | .group => if role = .line ∧ toPart then .group else .role
  | .gap => .role
  | .stop => if role = .panel then .panel else .role
  | .manage =>
    if role = .line then (if toPart then .manage else if f.dest = Config.broadcast then .noRoute else .unicast)
    else .role
  | .reply | .notice => if f.dest = Config.broadcast then .lines else .unicast
  | .pattern => .role

/-! ### Frames at the units (R57, R60) -/

/-- The frame in port `p`'s burst is discarded and counted (R57). -/
def State.discard (p : Nat) (k : Count) (s : State) : State := { s with net := (s.net.count p k).dropBurst p }

/-- The frame in port `p`'s burst is released uncounted. -/
def State.drop (p : Nat) (s : State) : State := { s with net := s.net.dropBurst p }

/-- Release a held frame (R43). -/
def State.release (id : Nat) (s : State) : State := { s with net := s.net.release id }

/-- A frame kept and copied to the LINE ports (R58, R59). -/
def State.forwardLines (p : Nat) (f : Frame) (s : State) : State :=
  let (n, id) := s.net.keep p f
  { s with net := (n.toLines p id).release id }

/-- A frame kept and sent on by the node table (R58, R59). -/
def State.forwardUnicast (p : Nat) (f : Frame) (s : State) : State :=
  let (n, id) := s.net.keep p f
  (({ s with net := n }).unicast p id f.dest).release id

/-- A SAMPLE at steps 4 to 6 of R57: offered to the storm limiter, handed to the gauge unit, rewritten or muted, and copied
to the LINE ports. -/
def State.sampleFrame (p : Nat) (f : Frame) (x : SampleFields) (s : State) : State :=
  if !(s.port p).admits then (s.discard p .storm).offer p
  else
    let s := s.offer p
    let (n, id) := s.net.keep p f
    let (s, fate) := ({ s with net := n }).takeSample f.source x
    match fate with
    | .muted => s.release id
    | .unchanged => { s with net := (s.net.toLines p id).release id }
    | .rewritten y =>
      let n := s.net.rewrite id { f with payload := putSample y }
      { s with net := (n.toLines p id).release id }

/-- A STATUS of a stand's node at steps 5 and 6 of R57: handled by the stand unit and copied to the LINE ports. -/
def State.statusFrame (p n : Nat) (f : Frame) (x : StatusFields) (s : State) : State :=
  let (m, id) := s.net.keep p f
  let s := ({ s with net := m }).handleStatus n x
  { s with net := (s.net.toLines p id).release id }

end Sys2Proof.Machine
end

