-- ==== Sys2Proof/Machine/Store.lean ====
section
/-! DEFINITION. The setting store (sections 11.1 to 11.3): snapshots, the write-enable latch, save, erase, protection and the
completions. -/

namespace Sys2Proof.Machine

/-! ### Check codes of the sections (R179)

The content of a section is encoded as R173 encodes the records a request carries, in the order in which R179 lists them: a
DESIGN CHOICE (log 25). -/

/-- The bytes of a PORTS section. -/
def PortsSection.bytes (c : PortsSection) : List Byte := c.ports.toList.flatMap putPort ++ putPartWide c.part
/-- The bytes of a CHANNELS section. -/
def channelsBytes (c : Vector ChannelRecord 32) : List Byte := c.toList.flatMap putChannel
/-- The bytes of a STANDS section. -/
def StandsSection.bytes (c : StandsSection) : List Byte :=
  c.stands.toList.flatMap putStand ++ c.spans.toList.flatMap putSpan ++ c.passes.toList.flatMap (putOpt passSize putPass)
/-- The bytes of a TRIP section. -/
def TripSection.bytes (c : TripSection) : List Byte :=
  c.entries.toList.flatMap putTripEntry ++ put8 c.interval ++ putBool c.protect

/-- A content stored with its check code, computed as R2 computes a frame's over the content's bytes (R179, R180). -/
def Stored.written {α : Type} (bytes : α → List Byte) (c : α) : Stored α := .holds c (checkCode (bytes c))

/-- The content of a valid section (R179): one whose check code matches it. -/
def Stored.read {α : Type} (bytes : α → List Byte) : Stored α → Option α
  | .holds c code => if checkCode (bytes c) = code then some c else none
  | .spoiled => none
  | .erased => none

/-! ### Running content (R179) -/

/-- The running content of PORTS (R179). -/
def State.portsContent (s : State) : PortsSection := ⟨s.net.ports.map Port.record, s.part⟩
/-- The running content of CHANNELS (R179). -/
def State.channelsContent (s : State) : Vector ChannelRecord 32 := s.channels.map Channel.record
/-- The running content of STANDS (R179). -/
def State.standsContent (s : State) : StandsSection :=
  ⟨s.stands.map Stand.record, s.stands.map Stand.current, s.spans.map Span.record⟩
/-- The running content of TRIP (R179, R182). -/
def State.tripContent (s : State) : TripSection := ⟨s.trip.entries.map TripEntry.record, s.trip.interval, s.trip.protect⟩

/-- The snapshot of a section (R180). -/
def State.snapshot (s : State) (sec : Nat) : Snapshot :=
  match sec with
  | 0 => .ports s.portsContent
  | 1 => .channels s.channelsContent
  | 2 => .stands s.standsContent
  | _ => .trip s.tripContent

/-- The section of a snapshot. -/
def Snapshot.section_ : Snapshot → Nat
  | .ports _ => 0
  | .channels _ => 1
  | .stands _ => 2
  | .trip _ => 3

/-- The section holds neither its old content nor the new (R180). -/
def Store.invalidate (sec : Nat) (t : Store) : Store :=
  match sec with
  | 0 => { t with ports := .spoiled }
  | 1 => { t with channels := .spoiled }
  | 2 => { t with stands := .spoiled }
  | _ => { t with trip := .spoiled }

/-- The section is erased (R181). -/
def Store.wipe (sec : Nat) (t : Store) : Store :=
  match sec with
  | 0 => { t with ports := .erased }
  | 1 => { t with channels := .erased }
  | 2 => { t with stands := .erased }
  | _ => { t with trip := .erased }

/-- The section holds the snapshot with its check code (R179, R180). -/
def Store.write (x : Snapshot) (t : Store) : Store :=
  match x with
  | .ports c => { t with ports := .written PortsSection.bytes c }
  | .channels c => { t with channels := .written channelsBytes c }
  | .stands c => { t with stands := .written StandsSection.bytes c }
  | .trip c => { t with trip := .written TripSection.bytes c }

/-- The sections an erase names: one, or all four for 4 (R181). -/
def eraseSections (sec : Nat) : List Nat := if sec = 4 then [0, 1, 2, 3] else [sec]

/-- Set a section's modified flag to a level (R175). -/
def Store.mark (b : Bool) (sec : Nat) (t : Store) : Store :=
  let x := getAt t.sections ⟨false, false⟩ sec
  { t with sections := setAt t.sections sec ⟨x.stored, b⟩ }

/-! ### Requests (R179 to R182) -/

/-- Change the store. -/
def State.modStore (f : Store → Store) (s : State) : State := { s with store := f s.store }

/-- A refused save, erase or protect change clears the latch (R179). -/
def refuseStore (why : Reason) (s : State) : State × Answer :=
  (s.modStore fun t => { t with latch := false }, .refused why [])

/-- STORE ENABLE (R179). -/
def reqStoreEnable (s : State) : State × Answer :=
  if s.store.op.isSome then (s, .busy) else (s.modStore fun t => { t with latch := true }, .done [])

/-- STORE DISABLE (R179). -/
def reqStoreDisable (s : State) : State × Answer :=
  if s.store.op.isSome then (s, .busy) else (s.modStore fun t => { t with latch := false }, .done [])

/-- A save is accepted (R180): snapshot, latch and modified flag cleared, section invalid while it is written. -/
def Store.startSave (sec : Nat) (op : StoreOp) (t : Store) : Store :=
  let t := (t.invalidate sec).mark false sec
  { t with op := some op, latch := false }

/-- STORE SAVE (R180). -/
def reqStoreSave (sec : Nat) (s : State) : State × Answer :=
  if 3 < sec then refuseStore .range s
  else if s.store.op.isSome then (s, .busy)
  else if !s.store.latch then refuseStore .notEnabled s
  else if sec = secTrip ∧ s.trip.protect then refuseStore .protected_ s
  else (s.modStore (Store.startSave sec (.save (s.snapshot sec))), .accepted)

/-- STORE ERASE (R181): the modified flag of each section named is set. -/
def reqStoreErase (sec : Nat) (s : State) : State × Answer :=
  if 4 < sec then refuseStore .range s
  else if s.store.op.isSome then (s, .busy)
  else if !s.store.latch then refuseStore .notEnabled s
  else if (eraseSections sec).contains secTrip && s.trip.protect then refuseStore .protected_ s
  else
    (s.modStore fun t =>
      let t := (eraseSections sec).foldl (fun t k => (t.invalidate k).mark true k) t
      { t with op := some (.erase sec), latch := false }, .accepted)

/-- STORE PROTECT (R182): the running flag changes at once, and the TRIP section is saved with it. -/
def reqStoreProtect (v : Nat) (s : State) : State × Answer :=
  if 1 < v then refuseStore .range s
  else if s.store.op.isSome then (s, .busy)
  else if !s.store.latch then refuseStore .notEnabled s
  else if v = 0 ∧ !s.lineStopped then refuseStore .state s
  else
    let s := { s with trip := { s.trip with protect := v == 1 } }
    (s.modStore (Store.startSave secTrip (.protect (s.snapshot secTrip))), .accepted)

/-! ### Completions (R180 to R182) -/

/-- The STORE DONE notice (R178): operation SAVE 0, ERASE 1, PROTECT 2; result DONE 0, FAILED 1. -/
def State.storeNotice (sec operation : Nat) (ok : Bool) (s : State) : State :=
  s.notice .storeDone sec (put8 operation ++ put8 (if ok then 0 else 1))

/-- A write has been read back (R180): the section takes the snapshot, or stays invalid with its modified flag set. -/
def Store.endWrite (x : Snapshot) (verified : Bool) (t : Store) : Store :=
  let t := { t with op := none }
  if verified then t.write x else t.mark true x.section_

/-- A save completes (R180). -/
def State.saveComplete (verified : Bool) (s : State) : State :=
  match s.store.op with
  | some (.save x) => (s.modStore (Store.endWrite x verified)).storeNotice x.section_ 0 verified
  | _ => s

/-- An erase completes (R181). -/
def State.eraseComplete (s : State) : State :=
  match s.store.op with
  | some (.erase sec) =>
    let s := s.modStore fun t =>
      let t := (eraseSections sec).foldl (fun t k => t.wipe k) t
      { t with op := none }
    s.storeNotice sec 1 true
  | _ => s

/-- A protect change completes (R182). -/
def State.protectComplete (verified : Bool) (s : State) : State :=
  match s.store.op with
  | some (.protect x) => (s.modStore (Store.endWrite x verified)).storeNotice x.section_ 2 verified
  | _ => s

end Sys2Proof.Machine
end

