-- ==== Sys2Proof/Machine/Reads.lean ====
section
/-! DEFINITION. What the read requests answer (R38, R81, R104, R125, R154, R170, R174, R176), in the encoding of R172 and R173.
The order and widths the spec leaves open are those of log 8, log 9 and log 10. -/

namespace Sys2Proof.Machine

/-! ### Fitting a reply (R172) -/

/-- The items of a list that fit in `room` bytes together. -/
def fitting : Nat → List (List Byte) → List (List Byte)
  | _, [] => []
  | room, x :: r => if x.length ≤ room then x :: fitting (room - x.length) r else []

/-- A part of a reply body: a field, or a list of items (R172). -/
inductive Part where
  | field (bytes : List Byte)
  | items (l : List (List Byte))
  deriving DecidableEq, Repr

/-- The bytes of a list: its count byte, then its items (R172). -/
def listBytes (l : List (List Byte)) : List Byte := put8 l.length ++ l.flatten

/-- The bytes of a whole part. -/
def Part.bytes : Part → List Byte
  | .field b => b
  | .items l => listBytes l

/-- The parts of a body in `room` bytes, cut at the last whole item that fits (R172, log 9): a list keeps the items that fit,
with their count, and nothing stands after the cut. -/
def layOut : Nat → List Part → List Byte
  | _, [] => []
  | room, .field b :: r => if b.length ≤ room then b ++ layOut (room - b.length) r else []
  | room, .items l :: r =>
    if room = 0 then []
    else
      let k := fitting (room - 1) l
      listBytes k ++ if k.length = l.length then layOut (room - (listBytes k).length) r else []

/-- A body of parts (R172). -/
def bodyOf (parts : List Part) : List Byte := layOut Config.replyBody parts

/-- A body of fields (R172). -/
def body (fields : List (List Byte)) : List Byte := bodyOf (fields.map .field)

/-- A body that opens with a list of as many items as fit beside the parts after it (R172, log 9). -/
def bodyWithList (items : List (List Byte)) (after : List Part) : List Byte :=
  bodyOf (.items (fitting (Config.replyBody - 1 - (after.flatMap Part.bytes).length) items) :: after)

/-- A counter (R172). -/
def counter (n : Nat) : List Byte := put32 n

/-- An optional gap or thickness value. -/
def optInt (x : Option Int) : List Byte := putOpt 4 putInt x

/-! ### Ports (R38) -/

/-- Link state code: position in R21's table (R173). -/
def linkCode : LinkState → Nat
  | .disabled => 0 | .down => 1 | .sync => 2 | .up => 3 | .babble => 4

/-- The twelve counters in the order of R38. -/
def PortCounters.bytes (c : PortCounters) : List (List Byte) :=
  [c.received, c.check, c.malformed, c.role, c.noRoute, c.conflict, c.storm, c.noBuffer, c.queueFull, c.sent, c.stopSent,
   c.patternErrors].map counter

/-- The body of a READ PORT reply (R38). -/
def State.portBody (s : State) (p : Nat) : List Byte :=
  let P := s.port p
  body ([putPort P.record, put8 (linkCode P.link), put8 (modeCode P.mode), putBool P.checker.inSync, putBool P.limiting] ++
    ([CondKind.silent, .rate, .storm, .babble, .link, .panel].map fun k => putBool (s.level ⟨k, p⟩)) ++ P.counters.bytes)

/-- READ PORT (R38). -/
def reqReadPort (clear : Bool) (p : Nat) (s : State) : State × Answer :=
  if 12 ≤ p then refuse .range s
  else
    (if clear then s.modPort p fun P => { P with counters := {} } else s, .done (s.portBody p))

/-! ### Channels (R81) -/

/-- Channel state code: position in R64's list (R173). -/
def channelStateCode : ChannelState → Nat
  | .off => 0 | .waiting => 1 | .valid => 2 | .suspect => 3 | .stale => 4 | .failed => 5

/-- The stale timer's state, coded by its position in R64, running 0 and stopped 1 (R173), and the time remaining while it runs
(R81, log 9). -/
def staleBytes (timer : Option Nat) : List Byte := put8 (if timer.isSome then 0 else 1) ++ putOpt 2 put16 timer

/-- The body of a READ CHANNEL reply (R81). DESIGN CHOICE (log 9): the last calibrated entry is one optional field, the value and
four bytes of length count, zeros for a channel that is not SPEED. -/
def State.channelBody (s : State) (c : Nat) : List Byte :=
  let C := s.channel c
  body ([putChannel C.record, put8 (channelStateCode C.state), putInt C.value, putBool C.valueAccepted,
    put8 C.rejectCount, put8 C.recoveryRun,
    putOpt 8 (fun x => putInt x.1 ++ put32 x.2.toNat) C.lastCalibrated,
    putOpt 4 (fun x => put32 x.toNat) C.lengthRef, staleBytes C.staleTimer] ++
    ([CondKind.stale, .failed, .high, .low].map fun k => putBool (s.level ⟨k, c⟩)) ++
    [C.matched, C.accepted, C.rejected, C.muted].map counter)

/-- READ CHANNEL (R81). -/
def reqReadChannel (clear : Bool) (c : Nat) (s : State) : State × Answer :=
  if 32 ≤ c then refuse .range s
  else
    (if clear then s.modChannel c fun C => { C with matched := 0, accepted := 0, rejected := 0, muted := 0 } else s,
     .done (s.channelBody c))

/-! ### Stands (R125, R154) -/

/-- The class a stand holds while TRIPPED (R108). -/
def Stand.tripClass (S : Stand) : Option Severity := S.tripOf.map Trip.cls

/-- The move of a MOVING stand (R108). -/
def Stand.moveOf (S : Stand) : Option Move :=
  match S.mode with
  | .moving m => some m
  | .out | .ready | .rolling | .tripped _ => none

/-- A move: target, in-position run, time remaining (R125). -/
def moveBytes (m : Move) : List Byte := putInt m.target ++ put8 m.run ++ put16 m.timer

/-- An error record in the order of R146. -/
def errorBytes (e : ErrorRecord) : List Byte :=
  put8 e.stand ++ [e.expected, e.received] ++ put8 (setpointCode e.kind) ++ putInt e.value ++ put32 e.time.toNat ++
    putBool e.group ++ putBool e.multiple

/-- A sequence state: the expected number when synchronized (R154). DESIGN CHOICE (log 9): one optional field, whose presence byte
stands for synchronized; no enumerated byte of its own precedes it. -/
def sequenceBytes (q : Option Byte) : List Byte := putOpt 1 (fun b => [b]) q

/-- The eight counters of a stand (R108). -/
def StandCounters.bytes (c : StandCounters) : List (List Byte) :=
  [c.status, c.gaps, c.biteOns, c.biteOffs, c.movesDone, c.movesFailed, c.switches, c.weldsWithoutNext].map counter

/-- The five setpoint counts of a stand (R154). -/
def SetpointCounters.bytes (c : SetpointCounters) : List (List Byte) :=
  [c.accepted, c.refused, c.duplicates, c.errors, c.ignored].map counter

/-- What R154 assigns to the setpoint chapter. -/
def State.setpointFields (s : State) (S : Stand) : List (List Byte) :=
  [putBool S.hold, put8 (holdModeCode S.record.holdMode), putOpt 2 put16 S.holdTimer, putOpt 14 errorBytes S.error,
   sequenceBytes S.sequence] ++ S.setpoints.bytes ++
  [sequenceBytes s.group.sequence, counter s.group.accepted, counter s.group.duplicates, counter s.group.errors]

/-- The body of a READ STAND reply (R125, R154). -/
def State.standBody (s : State) (n : Nat) : List Byte :=
  let S := s.stand n
  body ([putStand S.record, putOpt passSize putPass S.current, putOpt passSize putPass S.next,
    put8 (standModeCode S.mode), put8 (classCode S.tripClass), optInt S.base, optInt S.lastCommand, putInt S.cfb,
    putInt (S.cff.getD 0), putInt S.trim, optInt S.estimate, put8 S.biteOnRun, put8 S.biteOffRun, put8 S.followingRun,
    putOpt 7 moveBytes S.moveOf, putBool S.handOn] ++
    ([CondKind.moveFailed, .following, .driveFault, .scheduleMissing, .hold].map fun k => putBool (s.level ⟨k, n⟩)) ++
    s.setpointFields S ++ S.counters.bytes)

/-- What the read-and-clear form sets to zero (R125, R154): the eight counters and the five counts, and the group counts
when the request names stand 1. -/
def State.clearStand (n : Nat) (s : State) : State :=
  let s := s.modStand n fun S => { S with counters := {}, setpoints := {} }
  if n = 1 then { s with group := { s.group with accepted := 0, duplicates := 0, errors := 0 } } else s

/-- READ STAND (R125, R154). -/
def reqReadStand (clear : Bool) (n : Nat) (s : State) : State × Answer :=
  if !standNumber n then refuse .range s
  else (if clear then s.clearStand n else s, .done (s.standBody n))

/-! ### Spans (R104) -/

/-- Span state code: position in R85's list (R173). -/
def spanStateCode : SpanState → Nat
  | .idle => 0 | .filling => 1 | .running => 2 | .emptying => 3

/-- A segment (R85, R104). -/
def segmentBytes (g : Segment) : List Byte :=
  put16 g.number.toNat ++ optInt g.estimated ++ optInt g.measured ++ putOpt 1 put8 g.pass ++ putBool g.weld

/-- The seven counters of a span (R85). -/
def SpanCounters.bytes (c : SpanCounters) : List (List Byte) :=
  [c.pushes, c.pops, c.overrun, c.underrun, c.discarded, c.flushes, c.weldsLost].map counter

/-- The body of a READ SPAN reply (R104): the segments from index `first` towards the tail, as many as fit. The gauge index,
which a span without a gauge does not have, is an optional field: a DESIGN CHOICE (log 9). -/
def State.spanBody (s : State) (i first : Nat) : List Byte :=
  let P := s.span i
  bodyOf
    (([putSpan P.record, put8 (SpanRecord.depth P.record),
      putOpt 1 put8 (P.record.gauge.map fun g => g.2 / P.record.segment), put8 (spanStateCode P.state),
      put8 P.queue.length, put16 P.pushAcc, put16 P.popAcc, put16 P.nextSegment.toNat, putBool P.stripPresent,
      putBool P.weldPending, putBool P.trackLimit] ++ P.counters.bytes).map .field ++
      [.items ((P.queue.drop first).map segmentBytes)])

/-- READ SPAN (R104). -/
def reqReadSpan (clear : Bool) (i first : Nat) (s : State) : State × Answer :=
  if 9 ≤ i then refuse .range s
  else (if clear then s.modSpan i fun P => { P with counters := {} } else s, .done (s.spanBody i first))

/-! ### The trip unit (R170) -/

/-- A log record in the order of R168. -/
def logBytes (r : LogRecord) : List Byte :=
  put16 r.number.toNat ++ put8 r.entry ++ causeBytes r.cause ++ put8 (classCode r.cls) ++ [r.tripped] ++ putBool r.first ++
    put32 r.time.toNat

/-- An entry's state code: position in R159's list (R173). -/
def entryStateCode : EntryState → Nat
  | .idle => 0
  | .timing _ => 1
  | .fired => 2

/-- The delay remaining for each entry that is TIMING: the entry and the delay (R170, log 10). -/
def State.delayBytes (s : State) : List (List Byte) :=
  (List.range 64).filterMap fun e =>
    match (s.entry e).state with
    | .timing k => some (put8 e ++ put16 k)
    | .idle | .fired => none

/-- The conditions enabled entries refer to, each once, in the order of the first entry that does (log 10). -/
def State.referred (s : State) : List CondId :=
  ((List.range 64).filter fun e => (s.entry e).record.enabled).foldl
    (fun l e => if l.contains (s.entry e).record.cond then l else l ++ [(s.entry e).record.cond]) []

/-- A condition's level (R170). -/
def State.levelBytes (s : State) (c : CondId) : List Byte := put8 (condCode c.kind) ++ put8 c.source ++ putBool (s.level c)

/-- The PANEL condition of each PANEL port (R170). -/
def State.panelBytes (s : State) : List (List Byte) :=
  (portNumbers.filter fun p => (s.port p).hasRole .panel).map fun p => put8 p ++ putBool (s.port p).panel

/-- Each TRIPPED stand: its number, class, trip entry and repeat count (R170). -/
def State.trippedBytes (s : State) : List (List Byte) :=
  standNumbers.filterMap fun n =>
    (s.stand n).tripOf.map fun t => put8 n ++ put8 (classCode (some t.cls)) ++ put8 t.entry ++ [t.count]

/-- The parts of a READ TRIP LOG reply after its records (R170). DESIGN CHOICE (log 10): a line's level is 1 for asserted and 0 for
released. -/
def State.tripParts (s : State) : List Part :=
  .field (put8 s.trip.log.length) :: ((List.range 64).map fun e => .field (put8 (entryStateCode (s.entry e).state))) ++
  [.items s.delayBytes, .items (s.referred.map s.levelBytes), .items s.panelBytes, .items s.trippedBytes] ++
  ([putBool s.stopLine, putBool s.alertLine, put16 s.trip.nextRecord.toNat, put8 s.trip.interval] ++
    [s.trip.firings, s.trip.ordersWritten, s.trip.evicted, s.trip.refusedResets].map counter).map .field

/-- The body of a READ TRIP LOG reply (R170): the records from index `first`, as many as fit. -/
def State.tripBody (s : State) (first : Nat) : List Byte := bodyWithList ((s.trip.log.drop first).map logBytes) s.tripParts

/-- READ TRIP LOG (R170). -/
def reqReadTripLog (clear : Bool) (first : Nat) (s : State) : State × Answer :=
  (if clear then { s with trip := { s.trip with firings := 0, ordersWritten := 0, evicted := 0, refusedResets := 0 } } else s,
   .done (s.tripBody first))

/-! ### The node table (R176) -/

/-- A node-table item: node, state, port, age, conflict-report port or none (R176). Only a LEARNED entry has an age here; a
BOUND or STATIC entry, which does not age, keeps none, whatever it was before, and 0 is sent for it: a DESIGN CHOICE (log
34). -/
def nodeBytes (n : Nat) (e : NodeEntry) : List Byte :=
  let x : Nat × Nat × Nat := match e.binding with
    | .empty => (0, 0, 0)
    | .learned p k => (1, p, k)
    | .bound p => (2, p, 0)
    | .static p => (3, p, 0)
  put8 n ++ put8 x.1 ++ put8 x.2.1 ++ put16 x.2.2 ++ putOpt 1 put8 e.conflict

/-- The nodes whose entries are not EMPTY (R176). -/
def State.knownNodes (s : State) : List Nat := nodeNumbers.filter fun n => (s.node n).binding != .empty

/-- READ NODE TABLE (R176). -/
def reqReadNodeTable (first : Nat) (s : State) : State × Answer :=
  if !nodeNumber first then refuse .range s
  else
    (s, .done (bodyWithList ((s.knownNodes.filter fun n => first ≤ n).map fun n => nodeBytes n (s.node n))
      [.field (put8 s.part.own), .field (put16 s.part.aging), .field (put8 s.knownNodes.length)]))

/-! ### IDENTIFY (R174) -/

/-- The section and operation in flight (R174): SAVE 0, ERASE 1, PROTECT 2 (R173). -/
def storeOpBytes : StoreOp → List Byte
  | .save x => put8 x.section_ ++ put8 0
  | .erase sec => put8 sec ++ put8 1
  | .protect x => put8 x.section_ ++ put8 2

/-- Source and modified flag of a section: STORED 0, BUILT-IN 1 (R173, R175). -/
def sectionBytes (x : SectionStatus) : List Byte := put8 (if x.stored then 0 else 1) ++ putBool x.modified

/-- The body of an IDENTIFY reply (R174). DESIGN CHOICE (log 9): the section and operation in flight are one optional pair under one
presence byte, after the store state. -/
def State.identifyBody (s : State) : List Byte :=
  body ([put8 0x3A, put16 0x0840, put8 3, put8 s.part.own, put32 s.time.toNat] ++ s.store.sections.toList.map sectionBytes ++
    [putBool s.store.op.isSome, putOpt 2 storeOpBytes s.store.op, putBool s.store.latch, putBool s.trip.protect,
     counter s.net.dropped])

/-- IDENTIFY (R174); its clearing form sets the dropped-notice counter to zero as the reply is built. -/
def reqIdentify (clear : Bool) (s : State) : State × Answer :=
  (if clear then { s with net := { s.net with dropped := 0 } } else s, .done s.identifyBody)

end Sys2Proof.Machine
end

