-- ==== Sys2Proof/Machine/StartUp.lean ====
section
/-! DEFINITION. Start-up from the setting store (R183 to R187), the power and reset events, the time base, and RESTART (R40,
R62, R177). -/

namespace Sys2Proof.Machine

/-! ### Section contents (R184 step 2, R187) -/

/-- Built-in CHANNELS (R187). -/
def builtInChannels : Vector ChannelRecord 32 := Vector.replicate 32 builtInChannel
/-- Built-in STANDS (R187). -/
def builtInStands : StandsSection :=
  ⟨Vector.replicate 8 builtInStand, Vector.replicate 8 none, Vector.replicate 9 builtInSpan⟩

/-- The content of PORTS that a start-up loads: the stored one when it is valid, else the built-in one (R184). -/
def Store.portsIn (t : Store) : PortsSection := (t.ports.read PortsSection.bytes).getD builtInPorts
/-- The content of CHANNELS that a start-up loads (R184). -/
def Store.channelsIn (t : Store) : Vector ChannelRecord 32 := (t.channels.read channelsBytes).getD builtInChannels
/-- The content of STANDS that a start-up loads (R184). -/
def Store.standsIn (t : Store) : StandsSection := (t.stands.read StandsSection.bytes).getD builtInStands

/-- The configured stands whose stand port is `p`. -/
def State.standsOn (s : State) (p : Nat) : List Nat :=
  standNumbers.filter fun n => (s.stand n).record.configured && (s.stand n).record.port == p

/-- An entry of the minimal matrix (R187). -/
def State.minimalEntry (s : State) (e : Nat) : TripEntryRecord :=
  if e < 12 ∧ (s.port e).hasRole .panel then ⟨true, ⟨.panel, e⟩, 0, some .fast, 0xFF#8⟩
  else if 12 ≤ e ∧ e < 24 ∧ s.standsOn (e - 12) ≠ [] then
    ⟨true, ⟨.link, e - 12⟩, 0, some .fast, maskOfList (s.standsOn (e - 12))⟩
  else builtInEntry

/-- The minimal matrix, with its repeat interval and protect flag (R187). -/
def State.minimalMatrix (s : State) : TripSection := ⟨Vector.ofFn fun e : Fin 64 => s.minimalEntry e, 10, false⟩

/-- The node table a PORTS section gives (R51): its listed entries STATIC, every other entry EMPTY. -/
def staticTable (l : List (Nat × Nat)) : Vector NodeEntry 256 :=
  Vector.ofFn fun n : Fin 256 =>
    match staticPort l n with
    | some p => ⟨.static p, none⟩
    | none => ⟨.empty, none⟩

/-- A loaded stand record passes the conditions of R106 (R184): its ranges and those of its CURRENT pass, and, where it has
configured set to yes, the STATE grounds. -/
def State.standSound (s : State) (n : Nat) : Bool :=
  let S := s.stand n
  StandRecord.inRange s.part.own S.record && S.current.all (PassRecord.inRange S.record) &&
    (!S.record.configured || s.standFits n S.record)

/-- A stand left unconfigured, with its CURRENT pass empty (R184). -/
def Stand.unconfigured (S : Stand) : Stand := Stand.start { S.record with configured := false } none

/-- A stand whose record was loaded from a valid STANDS section and fails the check of R184; built-in records are not checked
(R175, log 20). -/
def State.standFails (s : State) (n : Nat) : Bool := (getAt s.store.sections ⟨false, false⟩ secStands).stored && !s.standSound n

/-- The stands are checked in increasing order (R184, log 20); STANDS is marked modified when one fails. -/
def State.checkStands (s : State) : State :=
  standNumbers.foldl
    (fun s n => if s.standFails n then (s.modStand n Stand.unconfigured).setModified secStands else s) s

/-- Channels, spans and stands at their start-up values under their loaded records (R64, R85, R108). -/
def State.loadUnits (s : State) : State :=
  let T := s.store.standsIn
  { s with
    channels := s.store.channelsIn.map Channel.start
    spans := T.spans.map Span.start
    stands := (T.stands.zip T.passes).map fun x => Stand.start x.1 x.2
    group := {} }

/-- The source of each section is noted and its modified flag cleared (R175, R184). -/
def State.noteSources (s : State) : State :=
  s.modStore fun t =>
    { t with sections := #v[⟨(t.ports.read PortsSection.bytes).isSome, false⟩,
                            ⟨(t.channels.read channelsBytes).isSome, false⟩,
                            ⟨(t.stands.read StandsSection.bytes).isSome, false⟩,
                            ⟨(t.trip.read TripSection.bytes).isSome, false⟩] }

/-- The TRIP section is loaded, or the minimal matrix built once STANDS is in place (R184, R187). -/
def State.loadTrip (s : State) : State :=
  { s with trip := TripUnit.start ((s.store.trip.read TripSection.bytes).getD s.minimalMatrix) }

/-- Step 2 of R184 after the port records are in place: part-wide record, node table, units, stand check, trip matrix. -/
def State.loadSections (s : State) : State :=
  let part := s.store.portsIn.part
  let s := { s with part := part, nodes := staticTable part.bindings }
  s.loadUnits.noteSources.checkStands.loadTrip

/-! ### Start-up (R184) -/

/-- A port takes the role from its record (R39). -/
def Port.takeRole (P : Port) : Port := if P.record.role = .disabled then P else P.enable

/-- Steps 2 to 4 of R184: sections, matrix in force, roles. The frame buffer is at its start-up value, with no block held. -/
def State.startUp (s : State) : State :=
  let ports := (s.store.portsIn.ports.zip (s.net.ports.map Port.energy)).map fun x => Port.cold x.1 x.2
  let s := { s with net := { s.net with ports := ports, frames := [] } }
  let s := s.loadSections.matrixInForce
  { s with phase := .running, net := { s.net with ports := s.net.ports.map Port.takeRole } }

/-- The part goes back to step 1 of R184; an operation of the store in flight has left its sections invalid (R183). -/
def State.stepBack (ph : Phase) (s : State) : State :=
  State.stepOne ph s.resetInput s.supplyLow (s.net.ports.map Port.energy) s.store s.freeCount s.pending

/-- Power comes on, or a low supply recovers (R184, R186, log 19): start-up begins, or waits for the reset input. -/
def State.powerOn (s : State) : State :=
  ({ s with supplyLow := false } : State).stepBack (if s.resetInput then .heldInReset else .reading)

/-- Power is lost (R183, R186). -/
def State.powerLoss (s : State) : State := ({ s with supplyLow := false } : State).stepBack .unpowered

/-- The reset input is asserted (R183, R184): a powered part is held at step 1. -/
def State.resetAssert (s : State) : State :=
  let s := { s with resetInput := true }
  if s.phase = .unpowered then s else s.stepBack .heldInReset

/-- The reset input's pin is released (R184): a part held at step 1 begins its start-up, unless a low supply still asserts the
reset input internally (R186). -/
def State.resetRelease (s : State) : State :=
  let s := { s with resetInput := false }
  if s.phase = .heldInReset ∧ !s.supplyLow then s.stepBack .reading else s

/-- The supply of a powered part falls below 2.9 V (R186): it asserts the reset input internally until it recovers, which
POWER_ON stands for (log 19). -/
def State.brownOut (s : State) : State :=
  if s.phase = .unpowered then s else ({ s with supplyLow := true } : State).stepBack .heldInReset

/-- The sections have been read (R184). -/
def State.readComplete (s : State) : State := if s.phase = .reading then s.startUp else s

/-! ### The time base (R185) -/

/-- A port's millisecond timers. -/
def Port.tick (P : Port) : Port :=
  { P with silenceTimer := tickTimer P.silenceTimer, rateLeft := P.rateLeft - 1, stormLeft := P.stormLeft - 1 }

/-- A stand's millisecond timers. -/
def Stand.tick (S : Stand) : Stand :=
  { S with
    holdTimer := tickTimer S.holdTimer
    mode := match S.mode with
      | .moving m => .moving { m with timer := m.timer - 1 }
      | .tripped t => .tripped { t with timer := t.timer - 1 }
      | .out => .out
      | .ready => .ready
      | .rolling => .rolling }

/-- A trip entry's delay timer. -/
def TripEntry.tick (t : TripEntry) : TripEntry :=
  { t with state := match t.state with | .timing k => .timing (k - 1) | .idle => .idle | .fired => .fired }

/-- One millisecond (R185): the time base increases, wrapping, and every running millisecond timer counts down. -/
def State.tick (s : State) : State :=
  if s.phase = .reading ∨ s.phase = .running then
    { s with
      time := s.time + 1
      net := { s.net with ports := s.net.ports.map Port.tick }
      channels := s.channels.map fun C => { C with staleTimer := tickTimer C.staleTimer }
      stands := s.stands.map Stand.tick
      trip := { s.trip with entries := s.trip.entries.map TripEntry.tick } }
  else s

/-! ### RESTART (R40, R62, R177) -/

/-- A port at a RESTART (R40, R62): start-up values under the reloaded record; an UP port whose role is not DISABLED stays
UP, and the frame on the line is kept. -/
def Port.restarted (r : PortRecord) (P : Port) : Port :=
  let Q := Port.cold r P.energy
  let Q := { Q with sending := P.sending, rateLeft := P.rateLeft,
                    rateSpoiled := P.rateSpoiled || !P.energy || P.link == .disabled || r.role == .disabled }
  if r.role = .disabled then Q
  else if P.link = .up then { Q with link := .up, idleRun := 32, silenceTimer := some r.silenceTime }
  else Q.enable

/-- The references a frame keeps over a RESTART (R62): one for each port it is on the line of, one for the request. -/
def Net.refsKept (keep : Nat) (n : Net) (id : Nat) : Nat :=
  (portNumbers.filter fun p => ((n.port p).sending.bind Sending.held) == some id).length + (if id = keep then 1 else 0)

/-- The link side over a RESTART (R40, R62). The dropped-notice counter is zero before the RESTART's own notices are built, so a drop
of one of these counts in it: a DESIGN CHOICE (log 15). -/
def Net.restarted (records : Vector PortRecord 12) (keep : Nat) (n : Net) : Net :=
  { n with
    ports := (records.zip n.ports).map fun x => x.2.restarted x.1
    frames := (n.frames.map fun h => { h with refs := n.refsKept keep h.id }).filter fun h => h.refs != 0
    dropped := 0 }

/-- The conditions whose level a RESTART has changed are taken as events (R155, log 15). -/
def State.restartEvents (s before : State) : State :=
  (allConditions.filter fun c => s.level c != before.level c).foldl (fun s c => s.condNotice c) s

/-- A taken RESTART: steps 2 to 4 of R184 with the differences of R40 and R62. `keep` is the held MANAGE frame. The STOP line,
asserted from the taking of the RESTART until step 3 (R177), is asserted and released within this one step, so that no state
between commands shows it: a DESIGN CHOICE (log 15). -/
def State.restart (keep : Nat) (s : State) : State :=
  let t := s.modStore fun t => { t with latch := false }
  let t := { t with net := t.net.restarted t.store.portsIn.ports keep }
  (t.loadSections.restartEvents s).matrixInForce

/-- RESTART (R177): BUSY is judged first. -/
def reqRestart (keep : Nat) (s : State) : State × Answer :=
  if s.store.op.isSome then (s, .busy)
  else if !s.lineStopped then refuse .state s
  else
    let s := s.restart keep
    (s, .done s.identifyBody)

end Sys2Proof.Machine
end

