-- ==== Sys2Proof/Machine/Manage.lean ====
section
/-! DEFINITION. The management agent (chapter 10): a request is carried out by its owner and answered by exactly one reply. -/

namespace Sys2Proof.Machine

/-- A request is carried out by its owner (R171). `keep` is the held MANAGE frame, which a RESTART spares (R62). -/
def State.carryOut (keep : Nat) (a : Arrival) (r : Request) (s : State) : State × Answer :=
  match r with
  | .identify c => reqIdentify c s
  | .readPort c p => reqReadPort c p s
  | .readChannel c k => reqReadChannel c k s
  | .readStand c n => reqReadStand c n s
  | .readSpan c i k => reqReadSpan c i k s
  | .readTripLog c k => reqReadTripLog c k s
  | .readNodeTable k => reqReadNodeTable k s
  | .loadPort p x => reqLoadPort a.port p x s
  | .loadPartWide x => reqLoadPartWide x s
  | .loadChannel c x => reqLoadChannel c x s
  | .loadStand n x p => reqLoadStand n x p s
  | .loadSpan i x => reqLoadSpan i x s
  | .loadPassCurrent n p => reqLoadPassCurrent n p s
  | .loadPassNext n p => reqLoadPassNext n p s
  | .loadTripEntry e x => reqLoadTripEntry e x s
  | .loadTripInterval k => reqLoadTripInterval k s
  | .bindNode n p => reqBindNode n p s
  | .unbindNode n => reqUnbindNode n s
  | .admitStand n => reqAdmit n s
  | .bypass n => reqBypass n s
  | .switchPass n => reqSwitchPass n s
  | .clearHold n => reqClearHold n s
  | .stop c m => reqStop a.port c m s
  | .resetTrip m => reqResetTrip m s
  | .flushSpan i => reqFlushSpan i s
  | .setPortTest p m => reqSetPortTest a.port p m s
  | .injectError p => reqInjectError p s
  | .storeEnable => reqStoreEnable s
  | .storeDisable => reqStoreDisable s
  | .storeSave n => reqStoreSave n s
  | .storeErase n => reqStoreErase n s
  | .storeProtect n => reqStoreProtect n s
  | .restart => reqRestart keep s

/-- A store request code (R14). -/
def isStoreChange (code : Nat) : Bool := code == 0x52 || code == 0x53 || code == 0x54

/-- A body that does not fit its request is refused RANGE (R171); a save, erase or protect change so refused clears the
latch (R179, log 22). -/
def refuseBody (code : Nat) (s : State) : State × Answer :=
  if isStoreChange code && s.store.op.isNone then refuseStore .range s else refuse .range s

/-- What the agent makes of a request code and a body (R171). -/
def State.answer (keep : Nat) (a : Arrival) (code : Nat) (d : Decoded) (s : State) : State × Answer :=
  match d with
  | .unknown => refuse .unknown s
  | .badBody => refuseBody code s
  | .ok r => s.carryOut keep a r

/-- A held MANAGE frame is served (R60, R171, R172): carried out, answered, and released once the reply is built. -/
def State.serve (id : Nat) (a : Arrival) (code : Nat) (d : Decoded) (s : State) : State :=
  let x := s.answer id a code d
  (x.1.reply a code x.2).release id

/-- A MANAGE frame for the part, in the burst of its arrival port, is held and served (R57, R60). -/
def State.manage (f : Frame) (a : Arrival) (code : Nat) (d : Decoded) (s : State) : State :=
  let k := s.net.keep a.port f
  ({ s with net := k.1 }).serve k.2 a code d

/-- The MANAGE frame that carries a request (R14). -/
def manageFrame (own : Nat) (a : Arrival) (code : Nat) (l : List Byte) : Frame :=
  ⟨BitVec.ofNat 8 own, a.source, .manage, put8 code ++ [a.tag] ++ l⟩

/-- The part is at work and takes frames (R184). -/
def State.running (s : State) : Bool := s.phase == .running

/-- A port passes valid frames inward: it is UP, in test mode NONE (R21, R31, R57). -/
def Port.passesInward (P : Port) : Bool := P.link == .up && P.mode == .none

/-- A row of the table that carries a valid frame a port has received (log 3): it starts at step 2 of R57, in a running part
and at a port that passes frames inward, and has no effect elsewhere. DESIGN CHOICE (log 3): a row that claims no block does not
look at a mark short of buffer on its port's burst (R42), since such a frame never reaches step 2 of R57. -/
def State.arriving (p : Nat) (source : Byte) (f : State → State) (s : State) : State :=
  if s.running && (s.port p).passesInward then s.sourced p source f else s

/-- A consumed frame at step 3 of R57: a port without the role discards it as ROLE (R58). -/
def State.atRole (p : Nat) (role : Role) (f : State → State) (s : State) : State :=
  if (s.port p).hasRole role then f s else s.discard p .role

/-- A management row of the table (log 3). -/
def State.request (a : Arrival) (code : Nat) (l : List Byte) (d : Decoded) (s : State) : State :=
  s.arriving a.port a.source (State.atRole a.port .line fun s => s.manage (manageFrame s.part.own a code l) a code d)

/-- A request of the catalogue as a row of the table. -/
def State.ask (a : Arrival) (r : Request) (s : State) : State :=
  s.request a (requestCode r) (encodeRequest r) (.ok r)

end Sys2Proof.Machine
end

