-- ==== Sys2Proof/Machine/Setpoint.lean ====
section
/-! DEFINITION. Setpoint acceptance and group commands (chapter 8). -/

namespace Sys2Proof.Machine

/-! ### Sequences (R144) -/

/-- The verdict of the sequence check (R144). -/
inductive SequenceVerdict where
  | passed
  | duplicate
  | error (expected : Byte)
  deriving DecidableEq, Repr

/-- Judge a number against a sequence state, counting modulo 256 (R144, R151): the new state and the verdict. -/
def judgeSequence (state : Option Byte) (number : Byte) : Option Byte × SequenceVerdict :=
  match state with
  | none => (some (number + 1), .passed)
  | some e =>
    if number = e then (some (e + 1), .passed)
    else if number + 1 = e then (some e, .duplicate)
    else (none, .error e)

/-! ### Refusals (R147) -/

/-- REFUSED SETPOINT causes (R147), with their codes (R173). -/
inductive RefusalCause where
  | sequence | state | hold | busy
  deriving DecidableEq, Repr
/-- REFUSED SETPOINT cause codes (R173). -/
def refusalCode : RefusalCause → Nat
  | .sequence => 0 | .state => 1 | .hold => 2 | .busy => 3

/-- The first case of R147 that applies to a stand. -/
def Stand.refusal (S : Stand) (k : SetpointKind) : Option RefusalCause :=
  if S.isTripped then some .state
  else if S.hold then some .hold
  else if S.isMoving then some .busy
  else if k = .move && !S.isReady then some .state
  else none

/-- Change the five setpoint counts of a stand (R154). -/
def State.countSetpoint (n : Nat) (f : SetpointCounters → SetpointCounters) (s : State) : State :=
  s.modStand n fun S => { S with setpoints := f S.setpoints }

/-- A setpoint named, in the detail of a REFUSED SETPOINT notice (R178). -/
def setpointBytes (sequence : Byte) (k : SetpointKind) (value : Int) : List Byte :=
  [sequence] ++ put8 (setpointCode k) ++ putInt value

/-- REFUSED SETPOINT for one stand (R145, R147). -/
def State.refusedNotice (n : Nat) (f : SetpointFields) (cause : RefusalCause) (s : State) : State :=
  s.notice .refusedSetpoint n (setpointBytes f.sequence f.kind f.value ++ put8 (refusalCode cause))

/-- REFUSED SETPOINT with subject 0, a list of stands each with its cause (R152, R153); none for an empty list. DESIGN CHOICE (log
8): a count byte precedes the list, as in a reply. -/
def State.groupRefusedNotice (f : GroupFields) (l : List (Nat × RefusalCause)) (s : State) : State :=
  if l.isEmpty then s
  else
    s.notice .refusedSetpoint 0
      (setpointBytes f.sequence (groupSetpoint f.kind) f.value ++ putList (fun x => put8 x.1 ++ put8 (refusalCode x.2)) l)

/-! ### Acceptance (R148) -/

/-- An accepted setpoint takes effect (R148). -/
def State.acceptSetpoint (n : Nat) (k : SetpointKind) (value : Int) (s : State) : State :=
  let r := (s.stand n).record
  let s := s.countSetpoint n fun c => { c with accepted := bump c.accepted }
  match k with
  | .preset => s.modStand n fun S => { S with base := some (clampTo r.limLo r.limHi value) }
  | .trim =>
    let (s, b) := s.baseOf n
    s.modStand n fun S => { S with base := some (clampTo r.limLo r.limHi (b + value)) }
  | .move => s.startMove n value

/-! ### Sequence errors and HOLD (R145, R146, R152) -/

/-- Write an error into the record (R146): an empty one is filled, a full one sets MULTIPLE. -/
def Stand.writeError (S : Stand) (e : ErrorRecord) : Stand :=
  { S with error := some (match S.error with | none => e | some old => { old with multiple := true }) }

/-- A stand whose HOLD is set (R145, R152): in PERSISTENT mode the hold timer starts with the full hold time. -/
def Stand.held (S : Stand) : Stand :=
  { S with hold := true,
           holdTimer := match S.record.holdMode with | .persistent => some S.record.holdTime | .latched => S.holdTimer }

/-- HOLD is set (R145), and raised if it was clear. -/
def State.setHold (n : Nat) (s : State) : State := s.event ⟨.hold, n⟩ fun s => s.modStand n Stand.held

/-- A sequence error of a stand's own stream (R145). -/
def State.sequenceError (n : Nat) (f : SetpointFields) (expected : Byte) (s : State) : State :=
  let s := s.modStand n fun S => { S with sequence := none }
  let s := s.countSetpoint n fun c => { c with errors := bump c.errors }
  let s := s.modStand n fun S => S.writeError ⟨n, expected, f.sequence, f.kind, f.value, s.time, false, false⟩
  if (s.stand n).isTripped then s.refusedNotice n f .sequence
  else (s.setHold n).holdNotice n true .sequence expected f.sequence

/-! ### SETPOINT (R142) -/

/-- Steps 3 and 4 of R142: refused with its cause (R147), or accepted (R148). -/
def State.applySetpoint (n : Nat) (f : SetpointFields) (s : State) : State :=
  match (s.stand n).refusal f.kind with
  | some cause =>
    (s.countSetpoint n fun c => { c with refused := bump c.refused }).refusedNotice n f cause
  | none => s.acceptSetpoint n f.kind f.value

/-- A SETPOINT taken by the stand unit (R142 to R144). -/
def State.takeSetpoint (f : SetpointFields) (s : State) : State :=
  let n := f.stand.val + 1
  if !(s.stand n).inService then s.countSetpoint n fun c => { c with ignored := bump c.ignored }
  else if (s.stand n).hold then s.applySetpoint n f
  else
    match judgeSequence (s.stand n).sequence f.sequence with
    | (q, .passed) => (s.modStand n fun S => { S with sequence := q }).applySetpoint n f
    | (_, .duplicate) => s.countSetpoint n fun c => { c with duplicates := bump c.duplicates }
    | (_, .error e) => s.sequenceError n f e

/-! ### GROUP (R151 to R153) -/

/-- What a group sequence error writes at one masked stand (R152): its count and its error record, and HOLD unless it is
TRIPPED; one that is not in service ignores the frame. -/
def Stand.groupError (f : GroupFields) (expected : Byte) (time : Quad) (n : Nat) (S : Stand) : Stand :=
  if !S.inService then { S with setpoints := { S.setpoints with ignored := bump S.setpoints.ignored } }
  else
    let S := { S with setpoints := { S.setpoints with errors := bump S.setpoints.errors } }
    let S := S.writeError ⟨n, expected, f.sequence, groupSetpoint f.kind, f.value, time, true, false⟩
    if S.isTripped then S else S.held

/-- The masked stands as a group sequence error writes them, each judged as the frame was taken (R151, R152). -/
def State.groupMarked (f : GroupFields) (expected : Byte) (stands : List Nat) (s : State) : State :=
  stands.foldl (fun s n => s.modStand n (Stand.groupError f expected s.time n)) s

/-- The HOLD conditions that a group sequence error has raised are taken as events, each followed by its stand's HOLD notice,
in increasing order of the stands in `before`, the state as the frame was taken, that set HOLD (R152, log 12). -/
def State.groupHolds (f : GroupFields) (expected : Byte) (before : State) (stands : List Nat) (s : State) : State :=
  (stands.filter fun n => (before.stand n).inService && !(before.stand n).isTripped).foldl
    (fun s n => (s.changed ⟨.hold, n⟩ (before.stand n).hold).holdNotice n true .groupSequence expected f.sequence) s

/-- The masked stands that a group sequence error lists, each with the cause SEQUENCE: those TRIPPED (R152). -/
def State.groupListed (stands : List Nat) (s : State) : List (Nat × RefusalCause) :=
  (stands.filter fun n => (s.stand n).record.configured && (s.stand n).isTripped).map fun n => (n, .sequence)

/-- A group sequence error (R151, R152): the frame is handled whole, so every masked stand is judged and written as the frame
was taken, before any HOLD condition reaches the trip unit (log 12). -/
def State.groupErrors (f : GroupFields) (expected : Byte) (stands : List Nat) (s : State) : State :=
  let t := State.groupHolds f expected s stands (s.groupMarked f expected stands)
  t.groupRefusedNotice f (s.groupListed stands)

/-- A passed GROUP frame at one masked stand (R153); the cause when it is refused. -/
def State.groupApplyAt (f : GroupFields) (n : Nat) (s : State) : State × Option RefusalCause :=
  if !(s.stand n).inService then (s.countSetpoint n fun c => { c with ignored := bump c.ignored }, none)
  else
    match (s.stand n).refusal (groupSetpoint f.kind) with
    | some cause => (s.countSetpoint n fun c => { c with refused := bump c.refused }, some cause)
    | none => (s.acceptSetpoint n (groupSetpoint f.kind) f.value, none)

/-- A passed GROUP frame at the masked stands in increasing order (R153): the stands refused. -/
def State.groupApply (f : GroupFields) : List Nat → State → State × List (Nat × RefusalCause)
  | [], s => (s, [])
  | n :: ns, s =>
    let (s, refused) := s.groupApplyAt f n
    let (s, l) := s.groupApply f ns
    (s, match refused with | some c => (n, c) :: l | none => l)

/-- The stands a mask names, in increasing order. -/
def maskedStands (mask : Byte) : List Nat := standNumbers.filter fun n => inMask mask n

/-- A GROUP frame taken by the stand unit at its arrival port (R151 to R153). -/
def State.takeGroup (p : Nat) (f : GroupFields) (s : State) : State :=
  let stands := maskedStands f.mask
  if stands.all fun n => !(s.stand n).record.configured then { s with net := s.net.count p .malformed }
  else
    match judgeSequence s.group.sequence f.sequence with
    | (_, .duplicate) => { s with group := { s.group with duplicates := bump s.group.duplicates } }
    | (q, .passed) =>
      let s := { s with group := { s.group with sequence := q, accepted := bump s.group.accepted } }
      let (s, refused) := s.groupApply f stands
      s.groupRefusedNotice f refused
    | (q, .error e) =>
      let s := { s with group := { s.group with sequence := q, errors := bump s.group.errors } }
      s.groupErrors f e stands

end Sys2Proof.Machine
end

