-- ==== Sys2Proof/Machine/Arrival.lean ====
section
/-! DEFINITION. The arrival of a frame (R4, R8, R19, R42, R57): claims, judgement, the test modes, and the forwarding engine's
order of handling. -/

namespace Sys2Proof.Machine

/-- The port's receiver takes bursts from the line: in UP, but not in LOCAL LOOP (R19, R32). -/
def Port.hearsLine (P : Port) : Bool := P.link == .up && P.mode != .localLoop

/-- The arrival a MANAGE frame names (R14). -/
def arrivalOf (p : Fin 12) (f : Frame) : Arrival := ⟨p, f.source, f.payload.getD 1 0#8⟩

/-- A MANAGE frame for the part (R57, R171). -/
def State.manageArrival (p : Fin 12) (f : Frame) (s : State) : State :=
  let code := (f.payload.getD 0 0#8).toNat
  s.manage f (arrivalOf p f) code (decodeRequest code (f.payload.drop 2))

/-- Steps 3 to 6 of R57 for a stored frame in port `p`'s burst. A consumed frame of fixed fields is released when its unit
has read it (R60). -/
def State.forward (p : Fin 12) (f : Frame) (s : State) : State :=
  match s.treatment p f with
  | .gauge =>
    match getSample f.payload with
    | some x => s.sampleFrame p f x
    | none => s.drop p
  | .standUnit n =>
    match getStatus f.payload with
    | some x => s.statusFrame p n f x
    | none => s.drop p
  | .lines => s.forwardLines p f
  | .setpoint =>
    match getSetpoint f.payload with
    | some x => (s.takeSetpoint x).drop p
    | none => s.drop p
  | .group =>
    match getGroup f.payload with
    | some x => (s.takeGroup p x).drop p
    | none => s.drop p
  | .panel =>
    match getStop f.payload with
    | some x => (s.panelStop p x.cls).drop p
    | none => s.drop p
  | .manage => s.manageArrival p f
  | .noRoute => s.discard p .noRoute
  | .unicast => s.forwardUnicast p f
  | .role => s.discard p .role

/-- A valid frame that the buffer has stored, at a port in test mode NONE (R57). -/
def State.engine (p : Fin 12) (f : Frame) (s : State) : State :=
  if f.kind = .pattern then s.drop p
  else
    s.sourced p f.source (State.forward p f)

/-- A valid frame in REMOTE LOOP is queued back on its own port (R33). -/
def Net.echo (p : Nat) (f : Frame) (n : Net) : Net :=
  let k := n.keep p f
  (k.1.enqueue p k.2).1.release k.2

/-- A valid frame that the buffer has stored, by the port's test mode (R31, R32, R33, R35). -/
def State.dispose (p : Fin 12) (f : Frame) (s : State) : State :=
  match (s.port p).mode with
  | .none => s.engine p f
  | .localLoop => s.drop p
  | .remoteLoop => { s with net := s.net.echo p f }
  | .pattern =>
    if f.kind = .pattern then { s with net := (s.net.patternCheck p f).dropBurst p } else s.drop p

/-- A frame judged valid (R26, R38, R42): counted as received, the silence timer restarted; one short of buffer is discarded
as NO_BUFFER. A PATTERN frame so discarded in PATTERN does not reach the checker, though R35 hands it each valid one: a DESIGN
CHOICE (log 31). -/
def State.validFrame (p : Fin 12) (f : Frame) (s : State) : State :=
  let s := ({ s with net := s.net.count p .received }).heard p
  if (s.port p).isShort .line then s.discard p .noBuffer else s.dispose p f

/-- A frame discarded as CHECK (R8); in PATTERN it counts for the checker (R35). -/
def State.checkDiscard (p : Nat) (s : State) : State :=
  let s := s.discard p .check
  if (s.port p).mode = .pattern then { s with net := s.net.setChecker p (s.port p).checker.checkDiscard } else s

/-- A burst of these symbols has ended at an end delimiter (R4, R19): its blocks claimed, and the frame judged. -/
def State.burstEnded (p : Fin 12) (l : List Symbol) (s : State) : State :=
  let s := { s with net := s.net.completeClaims .line p (claimsNeeded ((nibbles l).length / 2)) }
  match judge s.part.own l with
  | .malformed => s.discard p .malformed
  | .check => s.checkDiscard p
  | .valid f => s.validFrame p f

/-- A row of the table that carries a SAMPLE or a STATUS (log 3): the frame's one block is claimed if the burst has not
claimed it, and the frame goes on at step 2 of R57. -/
def State.arrive (p : Nat) (source : Byte) (f : State → State) (s : State) : State :=
  if s.running && (s.port p).passesInward then
    let s := { s with net := s.net.completeClaims .line p 1 }
    if (s.port p).isShort .line then s.discard p .noBuffer else s.sourced p source f
  else s

/-- The SAMPLE frame of a row's operands (R9). -/
def sampleFrameOf (dest source : Byte) (x : SampleFields) : Frame := ⟨dest, source, .sample, putSample x⟩

/-- The STATUS frame of a row's operands (R10). -/
def statusFrameOf (dest source : Byte) (x : StatusFields) : Frame := ⟨dest, source, .status, putStatus x⟩

/-- A SAMPLE at step 3 of R57: only a SENSOR port takes it (R58). -/
def State.sampleAtRole (p : Nat) (f : Frame) (x : SampleFields) (s : State) : State :=
  if (s.port p).hasRole .sensor then s.sampleFrame p f x else s.discard p .role

/-- A STATUS at step 3 of R57: handed to the stand unit when it comes from the stand node of the stand whose STAND port this
is, and copied to the LINE ports in any case (R58). -/
def State.statusAtRole (p : Nat) (f : Frame) (x : StatusFields) (s : State) : State :=
  if (s.port p).hasRole .stand then
    match s.standOf p f.source with
    | some n => s.statusFrame p n f x
    | none => s.forwardLines p f
  else s.forwardLines p f

/-- A row of the table that carries a consumed frame of fixed fields (log 3), released when its unit has read it (R60). -/
def State.consume (p : Nat) (source : Byte) (role : Role) (f : State → State) (s : State) : State :=
  s.arriving p source (State.atRole p role fun s => (f s).drop p)

end Sys2Proof.Machine
end

