-- ==== Sys2Proof/Machine/CmdLink.lean ====
section
/-! DEFINITION. Meanings of the commands at the ports: frames and bursts, line events, monitors, transmitters, node-table aging,
and the receiver's block claims. -/

namespace Sys2Proof.Machine

/-- FRAME_RECEIVED (R4): a burst from the line ended by an end delimiter, if the receiver takes bursts from the line. -/
def execFrameReceived (p : Fin 12) (l : List Symbol) (s : State) : Host.Outcome State Fault Refusal :=
  .next (if s.running && (s.port p).hearsLine then s.burstEnded p l else s)

/-- BURST_TRUNCATED (R19): a burst ended by an idle symbol is discarded as MALFORMED. -/
def execBurstTruncated (p : Fin 12) (s : State) : Host.Outcome State Fault Refusal :=
  .next (if s.running && (s.port p).hearsLine then s.discard p .malformed else s)

/-- RUNAWAY_BURST (R24). -/
def execRunawayBurst (p : Fin 12) (s : State) : Host.Outcome State Fault Refusal := .next (s.runawayBurst p)

/-- ENERGY_DETECTED (R21). -/
def execEnergyDetected (p : Fin 12) (s : State) : Host.Outcome State Fault Refusal := .next (s.energyDetected p)

/-- ENERGY_LOST (R21). -/
def execEnergyLost (p : Fin 12) (s : State) : Host.Outcome State Fault Refusal := .next (s.energyLost p)

/-- IDLE_RUN_COMPLETE (R22). -/
def execIdleRunComplete (p : Fin 12) (s : State) : Host.Outcome State Fault Refusal := .next (s.idleRunComplete p)

/-- HOLD_PERIOD_EXPIRY (R23). -/
def execHoldPeriodExpiry (p : Fin 12) (s : State) : Host.Outcome State Fault Refusal := .next (s.holdPeriodExpiry p)

/-- BABBLE_QUIET_EXPIRY (R24). -/
def execBabbleQuietExpiry (p : Fin 12) (s : State) : Host.Outcome State Fault Refusal := .next (s.babbleQuiet p)

/-- SILENCE_TIMEOUT (R26). -/
def execSilenceTimeout (p : Fin 12) (s : State) : Host.Outcome State Fault Refusal := .next (s.silenceExpiry p)

/-- RATE_WINDOW_END (R27). -/
def execRateWindowEnd (p : Fin 12) (n : Nat) (s : State) : Host.Outcome State Fault Refusal := .next (s.rateWindowEnd p n)

/-- STORM_WINDOW_END (R29). -/
def execStormWindowEnd (p : Fin 12) (s : State) : Host.Outcome State Fault Refusal := .next (s.stormWindowEnd p)

/-- TRANSMIT_BEGIN (R50). -/
def execTransmitBegin (p : Fin 12) (s : State) : Host.Outcome State Fault Refusal :=
  .next { s with net := s.net.transmitBegin s.part.own p }

/-- TRANSMIT_END (R20, R32, R38, R43). -/
def execTransmitEnd (p : Fin 12) (s : State) : Host.Outcome State Fault Refusal := .next (s.transmitEnd p)

/-- NODE_TABLE_AGING (R54). -/
def execNodeTableAging (s : State) : Host.Outcome State Fault Refusal := .next s.ageNodes

/-- The lane a port's receiver takes bytes from: the line in UP, or, in LOCAL LOOP, a frame of the port's own (R19, R32). -/
def Port.hearing (P : Port) : Option Lane :=
  if P.hearsLine then some .line else if P.mode = .localLoop ∧ P.loop.isSome then some .loop else none

/-- RECEIVER_BLOCK_CLAIM (R42): the first or the 129th byte of a burst has arrived. -/
def execReceiverBlockClaim (p : Fin 12) (b : ClaimByte) (s : State) : Host.Outcome State Fault Refusal :=
  .next (match (s.port p).hearing with
    | some l =>
      if s.running then { s with net := s.net.completeClaims l p (match b with | .first => 1 | .byte129 => 2) } else s
    | none => s)

end Sys2Proof.Machine
end

