-- ==== Sys2Proof/Machine/CmdManage.lean ====
section
/-! DEFINITION. Meanings of the management rows (chapter 10), each a request taken by the agent at its arrival port (log 3). -/

namespace Sys2Proof.Machine

/-- UNKNOWN_REQUEST (R171): the agent judges the code and the body as it does any frame's. -/
def execUnknownRequest (a : Arrival) (code : Byte) (l : List Byte) (s : State) : Host.Outcome State Fault Refusal :=
  .next (s.request a code.toNat l (decodeRequest code.toNat l))

/-- IDENTIFY (R174). -/
def execIdentify (a : Arrival) (s : State) : Host.Outcome State Fault Refusal := .next (s.ask a (.identify false))

/-- IDENTIFY_CLEAR (R174). -/
def execIdentifyClear (a : Arrival) (s : State) : Host.Outcome State Fault Refusal := .next (s.ask a (.identify true))

/-- READ_PORT (R38). -/
def execReadPort (a : Arrival) (p : Nat) (s : State) : Host.Outcome State Fault Refusal :=
  .next (s.ask a (.readPort false p))

/-- READ_PORT_CLEAR (R38). -/
def execReadPortClear (a : Arrival) (p : Nat) (s : State) : Host.Outcome State Fault Refusal :=
  .next (s.ask a (.readPort true p))

/-- READ_CHANNEL (R81). -/
def execReadChannel (a : Arrival) (c : Nat) (s : State) : Host.Outcome State Fault Refusal :=
  .next (s.ask a (.readChannel false c))

/-- READ_CHANNEL_CLEAR (R81). -/
def execReadChannelClear (a : Arrival) (c : Nat) (s : State) : Host.Outcome State Fault Refusal :=
  .next (s.ask a (.readChannel true c))

/-- READ_STAND (R125, R154). -/
def execReadStand (a : Arrival) (n : Nat) (s : State) : Host.Outcome State Fault Refusal :=
  .next (s.ask a (.readStand false n))

/-- READ_STAND_CLEAR (R125, R154). -/
def execReadStandClear (a : Arrival) (n : Nat) (s : State) : Host.Outcome State Fault Refusal :=
  .next (s.ask a (.readStand true n))

/-- READ_SPAN (R104). -/
def execReadSpan (a : Arrival) (i first : Nat) (s : State) : Host.Outcome State Fault Refusal :=
  .next (s.ask a (.readSpan false i first))

/-- READ_SPAN_CLEAR (R104). -/
def execReadSpanClear (a : Arrival) (i first : Nat) (s : State) : Host.Outcome State Fault Refusal :=
  .next (s.ask a (.readSpan true i first))

/-- READ_TRIP_LOG (R170). -/
def execReadTripLog (a : Arrival) (first : Nat) (s : State) : Host.Outcome State Fault Refusal :=
  .next (s.ask a (.readTripLog false first))

/-- READ_TRIP_LOG_CLEAR (R170). -/
def execReadTripLogClear (a : Arrival) (first : Nat) (s : State) : Host.Outcome State Fault Refusal :=
  .next (s.ask a (.readTripLog true first))

/-- READ_NODE_TABLE (R176). -/
def execReadNodeTable (a : Arrival) (first : Nat) (s : State) : Host.Outcome State Fault Refusal :=
  .next (s.ask a (.readNodeTable first))

/-- LOAD_PORT (R17, R18, R41, R44). -/
def execLoadPort (a : Arrival) (p : Nat) (x : PortRecord) (s : State) : Host.Outcome State Fault Refusal :=
  .next (s.ask a (.loadPort p x))

/-- LOAD_PORT_PART_WIDE (R51). -/
def execLoadPortPartWide (a : Arrival) (x : PartWide) (s : State) : Host.Outcome State Fault Refusal :=
  .next (s.ask a (.loadPartWide x))

/-- BIND_NODE (R55). -/
def execBindNode (a : Arrival) (n p : Nat) (s : State) : Host.Outcome State Fault Refusal := .next (s.ask a (.bindNode n p))

/-- UNBIND_NODE (R56). -/
def execUnbindNode (a : Arrival) (n : Nat) (s : State) : Host.Outcome State Fault Refusal := .next (s.ask a (.unbindNode n))

/-- LOAD_CHANNEL (R63, R79, R80). -/
def execLoadChannel (a : Arrival) (c : Nat) (x : ChannelRecord) (s : State) : Host.Outcome State Fault Refusal :=
  .next (s.ask a (.loadChannel c x))

/-- LOAD_SPAN (R82, R83). -/
def execLoadSpan (a : Arrival) (i : Nat) (x : SpanRecord) (s : State) : Host.Outcome State Fault Refusal :=
  .next (s.ask a (.loadSpan i x))

/-- FLUSH_SPAN (R102). -/
def execFlushSpan (a : Arrival) (i : Nat) (s : State) : Host.Outcome State Fault Refusal := .next (s.ask a (.flushSpan i))

/-- LOAD_STAND (R106). -/
def execLoadStand (a : Arrival) (n : Nat) (x : StandRecord) (p : Option PassRecord) (s : State) : Host.Outcome State Fault Refusal :=
  .next (s.ask a (.loadStand n x p))

/-- LOAD_PASS_CURRENT (R107). -/
def execLoadPassCurrent (a : Arrival) (n : Nat) (p : PassRecord) (s : State) : Host.Outcome State Fault Refusal :=
  .next (s.ask a (.loadPassCurrent n p))

/-- LOAD_PASS_NEXT (R107). -/
def execLoadPassNext (a : Arrival) (n : Nat) (p : PassRecord) (s : State) : Host.Outcome State Fault Refusal :=
  .next (s.ask a (.loadPassNext n p))

/-- ADMIT (R110, R166). -/
def execAdmit (a : Arrival) (n : Nat) (s : State) : Host.Outcome State Fault Refusal := .next (s.ask a (.admitStand n))

/-- BYPASS (R111). -/
def execBypass (a : Arrival) (n : Nat) (s : State) : Host.Outcome State Fault Refusal := .next (s.ask a (.bypass n))

/-- SWITCH_PASS (R124). -/
def execSwitchPass (a : Arrival) (n : Nat) (s : State) : Host.Outcome State Fault Refusal := .next (s.ask a (.switchPass n))

/-- CLEAR_HOLD (R150). -/
def execClearHold (a : Arrival) (n : Nat) (s : State) : Host.Outcome State Fault Refusal := .next (s.ask a (.clearHold n))

/-- LOAD_TRIP_ENTRY (R158, R159). -/
def execLoadTripEntry (a : Arrival) (e : Nat) (x : TripEntryRecord) (s : State) : Host.Outcome State Fault Refusal :=
  .next (s.ask a (.loadTripEntry e x))

/-- LOAD_TRIP_ENTRY_PART_WIDE (R158). -/
def execLoadTripEntryPartWide (a : Arrival) (k : Nat) (s : State) : Host.Outcome State Fault Refusal :=
  .next (s.ask a (.loadTripInterval k))

/-- STOP_REQUEST (R164). -/
def execStopRequest (a : Arrival) (c : Nat) (m : Byte) (s : State) : Host.Outcome State Fault Refusal :=
  .next (s.ask a (.stop c m))

/-- RESET_TRIP (R169). -/
def execResetTrip (a : Arrival) (m : Byte) (s : State) : Host.Outcome State Fault Refusal := .next (s.ask a (.resetTrip m))

/-- SET_PORT_TEST (R30, R31). -/
def execSetPortTest (a : Arrival) (p m : Nat) (s : State) : Host.Outcome State Fault Refusal :=
  .next (s.ask a (.setPortTest p m))

/-- INJECT_ERROR (R36). -/
def execInjectError (a : Arrival) (p : Nat) (s : State) : Host.Outcome State Fault Refusal :=
  .next (s.ask a (.injectError p))

/-- STORE_ENABLE (R179). -/
def execStoreEnable (a : Arrival) (s : State) : Host.Outcome State Fault Refusal := .next (s.ask a .storeEnable)

/-- STORE_DISABLE (R179). -/
def execStoreDisable (a : Arrival) (s : State) : Host.Outcome State Fault Refusal := .next (s.ask a .storeDisable)

/-- STORE_SAVE (R180). -/
def execStoreSave (a : Arrival) (k : Nat) (s : State) : Host.Outcome State Fault Refusal := .next (s.ask a (.storeSave k))

/-- STORE_ERASE (R181). -/
def execStoreErase (a : Arrival) (k : Nat) (s : State) : Host.Outcome State Fault Refusal := .next (s.ask a (.storeErase k))

/-- STORE_PROTECT (R182). -/
def execStoreProtect (a : Arrival) (v : Nat) (s : State) : Host.Outcome State Fault Refusal :=
  .next (s.ask a (.storeProtect v))

/-- RESTART (R40, R62, R177). -/
def execRestart (a : Arrival) (s : State) : Host.Outcome State Fault Refusal := .next (s.ask a .restart)

end Sys2Proof.Machine
end

