-- ==== Sys2Proof/Machine/CmdPower.lean ====
section
/-! DEFINITION. Meanings of the power, reset, start-up and time-base commands (R183 to R186). -/

namespace Sys2Proof.Machine

/-- POWER_ON (R184). -/
def execPowerOn (s : State) : Host.Outcome State Fault Refusal := .next s.powerOn

/-- POWER_LOSS (R183, R186). -/
def execPowerLoss (s : State) : Host.Outcome State Fault Refusal := .next s.powerLoss

/-- RESET_INPUT_ASSERT (R183, R184). -/
def execResetInputAssert (s : State) : Host.Outcome State Fault Refusal := .next s.resetAssert

/-- RESET_INPUT_RELEASE (R184). -/
def execResetInputRelease (s : State) : Host.Outcome State Fault Refusal := .next s.resetRelease

/-- BROWN_OUT (R186). -/
def execBrownOut (s : State) : Host.Outcome State Fault Refusal := .next s.brownOut

/-- START_UP_READ_COMPLETE (R184). -/
def execStartUpReadComplete (s : State) : Host.Outcome State Fault Refusal := .next s.readComplete

/-- TIME_BASE_TICK (R185). -/
def execTimeBaseTick (s : State) : Host.Outcome State Fault Refusal := .next s.tick

end Sys2Proof.Machine
end

