-- ==== Sys2Proof/Machine/CmdUnits.lean ====
section
/-! DEFINITION. Meanings of the frames the units read, of the timers of channels, stands and trip entries, and of the store's
completions. -/

namespace Sys2Proof.Machine

/-- SAMPLE (R65, log 3). -/
def execSample (p : Fin 12) (dest source : Byte) (x : SampleFields) (s : State) : Host.Outcome State Fault Refusal :=
  .next (s.arrive p source (State.sampleAtRole p (sampleFrameOf dest source x) x))

/-- STATUS (R114, log 3). -/
def execStatus (p : Fin 12) (dest source : Byte) (x : StatusFields) (s : State) : Host.Outcome State Fault Refusal :=
  .next (s.arrive p source (State.statusAtRole p (statusFrameOf dest source x) x))

/-- SETPOINT (R142, log 3). -/
def execSetpoint (a : Origin) (x : SetpointFields) (s : State) : Host.Outcome State Fault Refusal :=
  .next (s.consume a.port a.source .line (State.takeSetpoint x))

/-- GROUP (R151, log 3). -/
def execGroup (a : Origin) (x : GroupFields) (s : State) : Host.Outcome State Fault Refusal :=
  .next (s.consume a.port a.source .line (State.takeGroup a.port x))

/-- PANEL_STOP (R156, log 3). -/
def execPanelStop (a : Origin) (x : StopFields) (s : State) : Host.Outcome State Fault Refusal :=
  .next (s.consume a.port a.source .panel (State.panelStop a.port x.cls))

/-- STALE_TIMER_EXPIRY (R71). -/
def execStaleTimerExpiry (c : Fin 32) (s : State) : Host.Outcome State Fault Refusal := .next (s.staleExpiry c)

/-- MOVE_TIMEOUT (R119). -/
def execMoveTimeout (n : Fin 8) (s : State) : Host.Outcome State Fault Refusal := .next (s.moveTimeout (n + 1))

/-- HOLD_TIMER_EXPIRY (R149). -/
def execHoldTimerExpiry (n : Fin 8) (s : State) : Host.Outcome State Fault Refusal := .next (s.holdExpiry (n + 1))

/-- TRIP_DELAY_EXPIRY (R159). -/
def execTripDelayExpiry (e : Fin 64) (s : State) : Host.Outcome State Fault Refusal := .next (s.delayExpiry e)

/-- REPEAT_TIMER_EXPIRY (R162). -/
def execRepeatTimerExpiry (n : Fin 8) (s : State) : Host.Outcome State Fault Refusal := .next (s.repeatExpiry (n + 1))

/-- STORE_SAVE_COMPLETE (R180); the operand says whether the section read back agrees with the snapshot (log 26). -/
def execStoreSaveComplete (verified : Bool) (s : State) : Host.Outcome State Fault Refusal := .next (s.saveComplete verified)

/-- STORE_ERASE_COMPLETE (R181). -/
def execStoreEraseComplete (s : State) : Host.Outcome State Fault Refusal := .next s.eraseComplete

/-- STORE_PROTECT_COMPLETE (R182, log 26). -/
def execStoreProtectComplete (verified : Bool) (s : State) : Host.Outcome State Fault Refusal :=
  .next (s.protectComplete verified)

end Sys2Proof.Machine
end

