-- ==== Sys2Proof/Machine/Dispatch.lean ====
section
/-! DEFINITION. One arm per command. -/

namespace Sys2Proof.Machine

/-- The meaning of a command on everything but the queue. -/
def exec (i : Instr) (s : State) : Host.Outcome State Fault Refusal :=
  match i with
  | .frameReceived port symbols => Sys2Proof.Machine.execFrameReceived port symbols s
  | .burstTruncated port => Sys2Proof.Machine.execBurstTruncated port s
  | .runawayBurst port => Sys2Proof.Machine.execRunawayBurst port s
  | .energyDetected port => Sys2Proof.Machine.execEnergyDetected port s
  | .energyLost port => Sys2Proof.Machine.execEnergyLost port s
  | .idleRunComplete port => Sys2Proof.Machine.execIdleRunComplete port s
  | .holdPeriodExpiry port => Sys2Proof.Machine.execHoldPeriodExpiry port s
  | .babbleQuietExpiry port => Sys2Proof.Machine.execBabbleQuietExpiry port s
  | .silenceTimeout port => Sys2Proof.Machine.execSilenceTimeout port s
  | .rateWindowEnd port symbols => Sys2Proof.Machine.execRateWindowEnd port symbols s
  | .stormWindowEnd port => Sys2Proof.Machine.execStormWindowEnd port s
  | .transmitBegin port => Sys2Proof.Machine.execTransmitBegin port s
  | .transmitEnd port => Sys2Proof.Machine.execTransmitEnd port s
  | .nodeTableAging => Sys2Proof.Machine.execNodeTableAging s
  | .sample port dest source fields => Sys2Proof.Machine.execSample port dest source fields s
  | .status port dest source fields => Sys2Proof.Machine.execStatus port dest source fields s
  | .setpoint port fields => Sys2Proof.Machine.execSetpoint port fields s
  | .group port fields => Sys2Proof.Machine.execGroup port fields s
  | .panelStop port fields => Sys2Proof.Machine.execPanelStop port fields s
  | .unknownRequest a code body => Sys2Proof.Machine.execUnknownRequest a code body s
  | .identify a => Sys2Proof.Machine.execIdentify a s
  | .identifyClear a => Sys2Proof.Machine.execIdentifyClear a s
  | .readPort a port => Sys2Proof.Machine.execReadPort a port s
  | .readPortClear a port => Sys2Proof.Machine.execReadPortClear a port s
  | .readChannel a channel => Sys2Proof.Machine.execReadChannel a channel s
  | .readChannelClear a channel => Sys2Proof.Machine.execReadChannelClear a channel s
  | .readStand a stand => Sys2Proof.Machine.execReadStand a stand s
  | .readStandClear a stand => Sys2Proof.Machine.execReadStandClear a stand s
  | .readSpan a span first => Sys2Proof.Machine.execReadSpan a span first s
  | .readSpanClear a span first => Sys2Proof.Machine.execReadSpanClear a span first s
  | .readTripLog a first => Sys2Proof.Machine.execReadTripLog a first s
  | .readTripLogClear a first => Sys2Proof.Machine.execReadTripLogClear a first s
  | .readNodeTable a first => Sys2Proof.Machine.execReadNodeTable a first s
  | .loadPort a port record => Sys2Proof.Machine.execLoadPort a port record s
  | .loadPortPartWide a record => Sys2Proof.Machine.execLoadPortPartWide a record s
  | .bindNode a node port => Sys2Proof.Machine.execBindNode a node port s
  | .unbindNode a node => Sys2Proof.Machine.execUnbindNode a node s
  | .loadChannel a channel record => Sys2Proof.Machine.execLoadChannel a channel record s
  | .loadSpan a span record => Sys2Proof.Machine.execLoadSpan a span record s
  | .flushSpan a span => Sys2Proof.Machine.execFlushSpan a span s
  | .loadStand a stand record pass => Sys2Proof.Machine.execLoadStand a stand record pass s
  | .loadPassCurrent a stand pass => Sys2Proof.Machine.execLoadPassCurrent a stand pass s
  | .loadPassNext a stand pass => Sys2Proof.Machine.execLoadPassNext a stand pass s
  | .admitStand a stand => Sys2Proof.Machine.execAdmit a stand s
  | .bypass a stand => Sys2Proof.Machine.execBypass a stand s
  | .switchPass a stand => Sys2Proof.Machine.execSwitchPass a stand s
  | .clearHold a stand => Sys2Proof.Machine.execClearHold a stand s
  | .loadTripEntry a entry record => Sys2Proof.Machine.execLoadTripEntry a entry record s
  | .loadTripEntryPartWide a interval => Sys2Proof.Machine.execLoadTripEntryPartWide a interval s
  | .stopRequest a cls mask => Sys2Proof.Machine.execStopRequest a cls mask s
  | .resetTrip a mask => Sys2Proof.Machine.execResetTrip a mask s
  | .setPortTest a port mode => Sys2Proof.Machine.execSetPortTest a port mode s
  | .injectError a port => Sys2Proof.Machine.execInjectError a port s
  | .storeEnable a => Sys2Proof.Machine.execStoreEnable a s
  | .storeDisable a => Sys2Proof.Machine.execStoreDisable a s
  | .storeSave a sec => Sys2Proof.Machine.execStoreSave a sec s
  | .storeErase a sec => Sys2Proof.Machine.execStoreErase a sec s
  | .storeProtect a value => Sys2Proof.Machine.execStoreProtect a value s
  | .restart a => Sys2Proof.Machine.execRestart a s
  | .staleTimerExpiry channel => Sys2Proof.Machine.execStaleTimerExpiry channel s
  | .moveTimeout stand => Sys2Proof.Machine.execMoveTimeout stand s
  | .holdTimerExpiry stand => Sys2Proof.Machine.execHoldTimerExpiry stand s
  | .tripDelayExpiry entry => Sys2Proof.Machine.execTripDelayExpiry entry s
  | .repeatTimerExpiry stand => Sys2Proof.Machine.execRepeatTimerExpiry stand s
  | .storeSaveComplete verified => Sys2Proof.Machine.execStoreSaveComplete verified s
  | .storeEraseComplete => Sys2Proof.Machine.execStoreEraseComplete s
  | .storeProtectComplete verified => Sys2Proof.Machine.execStoreProtectComplete verified s
  | .powerOn => Sys2Proof.Machine.execPowerOn s
  | .powerLoss => Sys2Proof.Machine.execPowerLoss s
  | .resetInputAssert => Sys2Proof.Machine.execResetInputAssert s
  | .resetInputRelease => Sys2Proof.Machine.execResetInputRelease s
  | .brownOut => Sys2Proof.Machine.execBrownOut s
  | .startUpReadComplete => Sys2Proof.Machine.execStartUpReadComplete s
  | .receiverBlockClaim port byte => Sys2Proof.Machine.execReceiverBlockClaim port byte s
  | .timeBaseTick => Sys2Proof.Machine.execTimeBaseTick s

end Sys2Proof.Machine
end

