-- ==== Sys2Proof/Safety.lean ====
section
/-! DEFINITION. The terms the statements use: what notices and events leave alone, the invariants that every step keeps, and
the parts of a state that a rule speaks of. -/

namespace Sys2Proof.Machine

/-! ### The frame buffer -/

/-- The references of a port to the frame named `id`: its queue entries and the frame on its line (R43, R49). -/
def Port.refsTo (P : Port) (id : Nat) : Nat :=
  P.queue.count id + (if P.sending.bind Sending.held = some id then 1 else 0)

/-- The references of all ports to the frame named `id`. -/
def Net.refsTo (n : Net) (id : Nat) : Nat := (portNumbers.map fun p => (n.port p).refsTo id).sum

/-- Every held frame has a reference and an old name, and no name is held twice (R43). -/
structure Net.Sound (n : Net) : Prop where
  refs : ∀ h ∈ n.frames, h.refs ≠ 0
  ids : ∀ h ∈ n.frames, h.id < n.nextId
  nodup : (n.frames.map HeldFrame.id).Nodup

/-- The reference counts are exact (R43): every held frame counts the references to it, those of the ports and those of the
units, which `units` lists, and every reference is to a held frame. -/
structure Net.Exact (units : List Nat) (n : Net) : Prop extends Net.Sound n where
  count : ∀ h ∈ n.frames, h.refs = n.refsTo h.id + units.count h.id
  named : ∀ id, n.refsTo id + units.count id ≠ 0 → id ∈ n.frames.map HeldFrame.id

/-- Every frame held before is still held, byte for byte, under the same name and with the same references, and the frames
held besides are new. -/
def Net.KeepsFrames (n m : Net) : Prop :=
  n.Sound → m.Sound ∧ n.nextId ≤ m.nextId ∧ (m.frames.filter fun h => decide (h.id < n.nextId)) = n.frames

/-- Exact reference counts stay exact, whatever the units hold. -/
def Net.KeepsExact (n m : Net) : Prop := ∀ units, n.Exact units → m.Exact units

/-- No normal queue loses or reorders an entry, and none passes 64 entries that did not hold more before (R46, R49). -/
def Net.KeepsQueues (n m : Net) : Prop :=
  ∀ p, ∃ l, (m.port p).queue = (n.port p).queue ++ l ∧ (l ≠ [] → (m.port p).queue.length ≤ Config.queueCapacity)

/-! ### What a notice or a reply leaves alone (R45, R61) -/

/-- A port but for its normal queue and its QUEUE_FULL count. -/
def Port.unqueued (P : Port) : Port := { P with queue := [], counters := { P.counters with queueFull := 0 } }

/-- `m` is `n` after frames of the part's own making alone: they are built, queued or counted as dropped. -/
structure Net.Quiet (n m : Net) : Prop where
  ports : ∀ p, (m.port p).unqueued = (n.port p).unqueued
  queues : n.KeepsQueues m
  frames : n.KeepsFrames m
  exact : n.KeepsExact m

/-- `t` is `s` after frames of the part's own making alone. -/
structure QuietFrame (s t : State) : Prop where
  rest : t = { s with net := t.net }
  net : s.net.Quiet t.net

/-! ### Requests and their replies (R60, R61, R171) -/

/-- The frame of a request has left the burst of its arrival port. -/
def State.taken (p : Nat) (s : State) : State := { s with net := s.net.dropBurst p }

/-- A frame from a node is taken at a port with no more to learn of it (R52, R57, R184): the part runs, the port is UP in test
mode NONE, and the node is STATIC or BOUND there, or LEARNED there with age 0 on a port without NODE LOCK. -/
structure State.Takes (s : State) (p : Nat) (source : Byte) : Prop where
  running : s.phase = .running
  up : (s.port p).link = .up
  test : (s.port p).mode = .none
  known : (s.node source.toNat).binding = .static p ∨ (s.node source.toNat).binding = .bound p ∨
    ((s.node source.toNat).binding = .learned p 0 ∧ (s.port p).record.nodeLock = false)

/-- A request is taken at its arrival port, a LINE port (R58, R171). -/
structure State.Hears (s : State) (a : Arrival) : Prop extends State.Takes s a.port a.source where
  line : (s.port a.port).record.role = .line

/-- A reply can be queued on the arrival port: its queue has room, and the shared pool has the two blocks that the longest
reply takes (R45, R49, R61). -/
structure State.CanReply (s : State) (a : Arrival) : Prop extends State.Hears s a where
  room : (s.port a.port).queue.length < Config.queueCapacity
  blocks : 2 ≤ s.net.sharedFree
  sound : s.net.Sound

/-- A frame of one block in the burst of port `p` has its block, or the port's reservation has one for it (R42). -/
def State.HasBlock (s : State) (p : Nat) : Prop :=
  match (s.port p).burst with
  | none => s.net.used p < s.net.reservation p
  | some b => 1 ≤ b.claims ∧ b.short = false

/-- A frame of any length in the burst of port `p` has its blocks, or the port's reservation has two for it (R42). -/
def State.HasBlocks (s : State) (p : Nat) : Prop :=
  s.net.used p + 2 ≤ s.net.reservation p ∧ ∀ b, (s.port p).burst = some b → b.short = false

/-- A port as a frame judged valid leaves it, its burst over (R26, R38). -/
def Port.afterValid (P : Port) : Port :=
  { P with burst := none, silent := false, silenceTimer := some P.record.silenceTime,
           counters := { P.counters with received := bump P.counters.received } }

/-! ### Copies and notices (R49, R59, R61) -/

/-- A copy of the frame stands at the tail of port `q`'s normal queue (R49). -/
def State.Queued (s t : State) (q : Nat) (f : Frame) : Prop :=
  ∃ h ∈ t.net.frames, h.frame = f ∧ (t.port q).queue = (s.port q).queue ++ [h.id]

/-- Port `q` takes a copy of a frame that goes to the LINE ports (R59), and its queue has room (R49). -/
structure State.TakesCopy (s : State) (q : Nat) : Prop where
  number : q < 12
  line : (s.port q).record.role = .line
  forwards : (s.port q).forwards = true
  room : (s.port q).queue.length < Config.queueCapacity

/-- Every LINE port that takes a copy, but for port `p`, has one of the frame at the tail of its queue (R59). -/
def State.Copied (s t : State) (p : Nat) (f : Frame) : Prop :=
  s.net.Sound → ∀ q, q ≠ p → s.TakesCopy q → s.Queued t q f

/-- A notice can be built, and LINE port `q` takes a copy of it (R45, R61). -/
structure State.CanNotify (s : State) (q : Nat) : Prop extends State.TakesCopy s q where
  block : 0 < s.net.sharedFree
  sound : s.net.Sound

/-- Port `q`'s normal queue holds a notice built since `s` (R178). -/
def State.Notified (s t : State) (q : Nat) (k : NoticeKind) (subject : Nat) (detail : List Byte) : Prop :=
  ∃ h ∈ t.net.frames, s.net.nextId ≤ h.id ∧ h.frame = noticeFrame s.part.own s.time k subject detail ∧
    h.id ∈ (t.port q).queue

/-- One reply to the request stands at the tail of the arrival port's normal queue (R61, R172). -/
def State.Replied (s t : State) (a : Arrival) (code : Nat) (ans : Answer) : Prop :=
  ∃ h ∈ t.net.frames, h.frame = replyFrame t.part.own a code ans ∧ h.refs = 1 ∧
    (t.port a.port).queue = (s.port a.port).queue ++ [h.id]

/-! ### Rows that carry a frame (R57, log 3) -/

/-- The row of the table that carries a request. -/
def Request.row (a : Arrival) : Request → Instr
  | .identify false => .identify a
  | .identify true => .identifyClear a
  | .readPort false p => .readPort a p
  | .readPort true p => .readPortClear a p
  | .readChannel false c => .readChannel a c
  | .readChannel true c => .readChannelClear a c
  | .readStand false n => .readStand a n
  | .readStand true n => .readStandClear a n
  | .readSpan false i k => .readSpan a i k
  | .readSpan true i k => .readSpanClear a i k
  | .readTripLog false k => .readTripLog a k
  | .readTripLog true k => .readTripLogClear a k
  | .readNodeTable k => .readNodeTable a k
  | .loadPort p x => .loadPort a p x
  | .loadPartWide x => .loadPortPartWide a x
  | .loadChannel c x => .loadChannel a c x
  | .loadStand n x p => .loadStand a n x p
  | .loadSpan i x => .loadSpan a i x
  | .loadPassCurrent n p => .loadPassCurrent a n p
  | .loadPassNext n p => .loadPassNext a n p
  | .loadTripEntry e x => .loadTripEntry a e x
  | .loadTripInterval k => .loadTripEntryPartWide a k
  | .bindNode n p => .bindNode a n p
  | .unbindNode n => .unbindNode a n
  | .admitStand n => .admitStand a n
  | .bypass n => .bypass a n
  | .switchPass n => .switchPass a n
  | .clearHold n => .clearHold a n
  | .stop c m => .stopRequest a c m
  | .resetTrip m => .resetTrip a m
  | .flushSpan i => .flushSpan a i
  | .setPortTest p m => .setPortTest a p m
  | .injectError p => .injectError a p
  | .storeEnable => .storeEnable a
  | .storeDisable => .storeDisable a
  | .storeSave k => .storeSave a k
  | .storeErase k => .storeErase a k
  | .storeProtect v => .storeProtect a v
  | .restart => .restart a

/-- The row carries a SAMPLE or a STATUS that node `source` sent to port `p`. -/
def Instr.Reports (p : Fin 12) (source : Byte) (c : Instr) : Prop :=
  (∃ dest f, c = .sample p dest source f) ∨ ∃ dest f, c = .status p dest source f

/-- The row carries another frame that node `source` sent to port `p`. -/
def Instr.Asks (p : Fin 12) (source : Byte) (c : Instr) : Prop :=
  (∃ f, c = .setpoint ⟨p, source⟩ f) ∨ (∃ f, c = .group ⟨p, source⟩ f) ∨ (∃ f, c = .panelStop ⟨p, source⟩ f) ∨
    (∃ a k l, a.port = p ∧ a.source = source ∧ c = .unknownRequest a k l) ∨
    ∃ a r, a.port = p ∧ a.source = source ∧ c = Request.row a r

/-- A request whose frame, held while it is served, is the one it arrived with. -/
def State.holding (s : State) (a : Arrival) (r : Request) : State :=
  { s with net := (s.net.keep a.port (manageFrame s.part.own a (requestCode r) (encodeRequest r))).1 }

/-! ### What taking conditions as events leaves alone

A raised condition may fire entries, and a firing trips stands, flushes spans, writes slots, ends test modes and queues
notices (chapter 9). Everything else stays. -/

/-- The part of a port that no event of another block changes: all but its test mode, burst from the line, checker,
injection, slots, queue and QUEUE_FULL count. -/
def Port.core (P : Port) : Port :=
  { P with mode := .none, burst := none, checker := ⟨false, 0, 0, 0#15⟩, injection := false, stopSlot := none,
           commandSlot := none, queue := [], counters := { P.counters with queueFull := 0 } }

/-- The part of a stand that tripping it, or ending its strip, leaves alone (R113, R120). -/
def Stand.core (S : Stand) : Stand :=
  { S with mode := .out, lastCommand := none, cff := none, estimate := none, biteOnRun := 0, biteOffRun := 0,
           followingRun := 0, handOn := false, moveFailed := false, following := false,
           counters := { S.counters with gaps := 0, biteOffs := 0 } }

/-- The part of a span that a flush and the end of its pushes leave alone (R86, R102). -/
def Span.core (P : Span) : Span :=
  { P with state := .idle, queue := [], pushAcc := 0, popAcc := 0, weldPending := false, trackLimit := false,
           counters := { P.counters with flushes := 0, weldsLost := 0 } }

/-- A stand after events: its state is as before, or its strip has ended (R113), or it was not OUT and is now TRIPPED with a
class no less severe than any it held (R120, R160). -/
def Stand.heldAs (S T : Stand) : Prop :=
  T.mode = S.mode ∨ (S.mode = .rolling ∧ T.mode = .ready) ∨
    (S.mode ≠ .out ∧ ∃ b, T.mode = .tripped b ∧ ∀ a, S.mode = .tripped a → severityRank a.cls ≤ severityRank b.cls)

/-- A port's test after events: as before, or ended by a stop order (R31, R37). -/
def Port.testKept (P Q : Port) : Prop :=
  (Q.mode = P.mode ∧ Q.burst = P.burst ∧ Q.checker = P.checker ∧ Q.injection = P.injection) ∨
    (P.mode ≠ .none ∧ Q.mode = .none ∧ Q.burst = none ∧ Q.checker.inSync = false ∧ Q.injection = false)

/-- A span's queue after events: as before, or emptied by a flush (R102). -/
def Span.queueKept (P Q : Span) : Prop := Q.queue = P.queue ∨ Q.queue = []

/-- A port's slots after events: a pending stop order is not lost, what takes its place being no less severe and naming no
fewer stands (R47, R161); a DISABLED port takes no order and no command (R46). -/
structure Port.slotsKept (P Q : Port) : Prop where
  link : Q.link = P.link
  order : ∀ o, P.stopSlot = some o →
    ∃ o', Q.stopSlot = some o' ∧ severityRank o.cls ≤ severityRank o'.cls ∧ o'.mask ||| o.mask = o'.mask
  disabled : P.link = .disabled →
    Q.stopSlot = P.stopSlot ∧ (Q.commandSlot = P.commandSlot ∨ Q.commandSlot = none)

/-- `t` is `s` after events alone: nothing an event does not reach has changed, no stand has left OUT or TRIPPED, no stand
has become OUT, no pending stop order has been lost, and no frame has been lost. -/
structure EventFrame (s t : State) : Prop where
  phase : t.phase = s.phase
  resetInput : t.resetInput = s.resetInput
  supplyLow : t.supplyLow = s.supplyLow
  time : t.time = s.time
  part : t.part = s.part
  nodes : t.nodes = s.nodes
  channels : t.channels = s.channels
  group : t.group = s.group
  store : t.store = s.store
  freeCount : t.freeCount = s.freeCount
  pending : t.pending = s.pending
  ports : ∀ p, (t.port p).core = (s.port p).core
  tests : ∀ p, (s.port p).testKept (t.port p)
  slots : ∀ p, (s.port p).slotsKept (t.port p)
  queues : s.net.KeepsQueues t.net
  frames : s.net.KeepsFrames t.net
  exact : s.net.KeepsExact t.net
  stands : ∀ n, (t.stand n).core = (s.stand n).core
  held : ∀ n, (s.stand n).heldAs (t.stand n)
  spans : ∀ i, (t.span i).core = (s.span i).core
  segments : ∀ i, (s.span i).queueKept (t.span i)
  entries : ∀ e, (t.entry e).record = (s.entry e).record
  interval : t.trip.interval = s.trip.interval
  protect : t.trip.protect = s.trip.protect
  refusedResets : t.trip.refusedResets = s.trip.refusedResets

/-! ### Start-up (R39, R184) -/

/-- Step 1 of R184: every port DISABLED and silent in test mode NONE with empty slots and queue, no frame held, the node
table empty, every channel OFF, span IDLE, stand OUT and trip entry IDLE, the log empty, time 0, the store's sections as they
are with no operation in flight and the latch clear, STOP asserted and ALERT released. -/
structure State.AtStepOne (s t : State) : Prop where
  time : t.time = 0#32
  ports : ∀ p, (t.port p).link = .disabled ∧ (t.port p).mode = .none ∧ (t.port p).stopSlot = none ∧
    (t.port p).commandSlot = none ∧ (t.port p).queue = [] ∧ (t.port p).sending = none ∧ (t.port p).burst = none ∧
    (t.port p).loop = none ∧
    (t.port p).counters = {}
  energy : ∀ p, p < 12 → (t.port p).energy = (s.port p).energy
  conditions : ∀ c, t.level c = (c.kind == .link)
  frames : t.net.frames = [] ∧ t.net.dropped = 0
  nodes : ∀ n, (t.node n).binding = .empty ∧ (t.node n).conflict = none
  channels : ∀ c, (t.channel c).state = .off
  spans : ∀ i, (t.span i).state = .idle ∧ (t.span i).queue = []
  stands : ∀ n, (t.stand n).mode = .out ∧ (t.stand n).next = none ∧ (t.stand n).sequence = none ∧ (t.stand n).error = none
  entries : ∀ e, (t.entry e).state = .idle
  log : t.trip.log = []
  sections : t.store.ports = s.store.ports ∧ t.store.channels = s.store.channels ∧ t.store.stands = s.store.stands ∧
    t.store.trip = s.store.trip
  store : t.store.op = none ∧ t.store.latch = false
  lines : t.stopLine = true ∧ t.alertLine = false
  pending : t.pending = s.pending

/-- The state of a trip entry as the matrix comes into force over the condition levels of `s` (R159). -/
def State.entryAtStart (s : State) (r : TripEntryRecord) : EntryState :=
  if r.enabled = true ∧ s.level r.cond = true then (if r.delay = 0 then .fired else .timing r.delay) else .idle

/-- `t` as stand `n` of the content `c` is checked in it: the lower stands as they are in `t`, this one and the higher ones as
loaded (R184, log 20). -/
def State.checking (t : State) (c : StandsSection) (n : Nat) : State :=
  { t with stands := Vector.ofFn fun k : Fin 8 =>
      if k.val + 1 < n then t.stand (k.val + 1) else Stand.start (getAt c.stands builtInStand k) (getAt c.passes none k) }

/-- Stand `n` of `t` as the content `c` loads it (R108, R184): at start-up values under its record and pass, or, where the check of
R184 fails, unconfigured without a pass. -/
def State.StandLoaded (t : State) (c : StandsSection) (n : Nat) : Prop :=
  ∃ r x, r = getAt c.stands builtInStand (n - 1) ∧ x = getAt c.passes none (n - 1) ∧
    t.stand n = if (t.checking c n).standFails n = true then Stand.start { r with configured := false } none else Stand.start r x

/-- The blocks of `t` are as a start-up or a RESTART loads them from the store of `s` (R51, R64, R85, R108, R159, R168, R170,
R175, R184): every record from its section, or from the built-in content where the section is not valid, and every unit at its
start-up values. -/
structure State.LoadedFrom (s t : State) : Prop where
  part : t.part = s.store.portsIn.part
  ports : ∀ p, p < 12 → (t.port p).record = getAt s.store.portsIn.ports (builtInPort .disabled) p
  listed : ∀ n p, n < 256 → staticPort t.part.bindings n = some p → t.node n = ⟨.static p, none⟩
  unlisted : ∀ n, staticPort t.part.bindings n = none → t.node n = ⟨.empty, none⟩
  channels : ∀ c, c < 32 → t.channel c = Channel.start (getAt s.store.channelsIn builtInChannel c)
  spans : ∀ i, i < 9 → t.span i = Span.start (getAt s.store.standsIn.spans builtInSpan i)
  stands : ∀ n, 1 ≤ n → n ≤ 8 → t.StandLoaded s.store.standsIn n
  group : t.group = {}
  matrix : ∀ c, s.store.trip.read TripSection.bytes = some c → t.trip.interval = c.interval ∧ t.trip.protect = c.protect ∧
    ∀ e, e < 64 → (t.entry e).record = getAt c.entries builtInEntry e
  entries : ∀ e, e < 64 → (t.entry e).state = t.entryAtStart (t.entry e).record
  log : (∀ e, e < 64 → (t.entry e).state = .fired → (t.entry e).record.cls ≠ none) →
    t.trip.log = [] ∧ t.trip.nextRecord = 0#16
  firings : t.trip.firings = ((List.range 64).filter fun e => (t.entry e).state == .fired).length
  counts : t.trip.ordersWritten = 0 ∧ t.trip.refusedResets = 0
  sections : t.store.ports = s.store.ports ∧ t.store.channels = s.store.channels ∧ t.store.stands = s.store.stands ∧
    t.store.trip = s.store.trip
  sources : ∀ k, k < 4 → (getAt t.store.sections ⟨false, false⟩ k).stored =
    (match k with
      | 0 => (s.store.ports.read PortsSection.bytes).isSome
      | 1 => (s.store.channels.read channelsBytes).isSome
      | 2 => (s.store.stands.read StandsSection.bytes).isSome
      | _ => (s.store.trip.read TripSection.bytes).isSome)
  modified : ∀ k, k < 4 → ((getAt t.store.sections ⟨false, false⟩ k).modified = true ↔
    k = 2 ∧ ∃ n, 1 ≤ n ∧ n ≤ 8 ∧ (t.checking s.store.standsIn n).standFails n = true)

/-! ### What a sample gives (R65) -/

/-- `t` is `v` after frames have been built, copied, rewritten and released alone. -/
structure State.FramesAside (v t : State) : Prop where
  rest : t = { v with net := t.net }
  ports : ∀ q, (t.port q).unqueued = (v.port q).unqueued
  queues : v.net.KeepsQueues t.net

/-- A sample of channel `c` that its port admits leaves the channel as `C`, its conditions being taken as events, and is then
handed on by `hand` (R65, R72, R73); the port counts it as offered (R28), and its frame is held meanwhile (R60). A sample that
leaves its channel FAILED under MUTE counts as muted. -/
def State.SampleGives (s : State) (p : Fin 12) (dest source : Byte) (f : SampleFields) (c : Nat) (C : Channel)
    (hand : State → State) : Prop :=
  ∃ b tags u t, b = s.modPort p (fun P => { P with burst := none, stormCount := P.stormCount + 1 }) ∧
    EventFrame ({ b with net := b.net.hold ⟨dest, source, .sample, putSample f⟩ tags }.modChannel c fun _ => C) u ∧
    exec (.sample p dest source f) s = .next t ∧
    ((hand u).modChannel c fun K =>
      { K with muted := if C.state = .failed ∧ C.record.treatment = .mute then bump K.muted else K.muted }).FramesAside t

/-! ### The invariant that every step keeps -/

/-- What holds of every state of the part: no normal queue passes 64 entries (R46), the reference counts of the buffer are
exact (R43), the latch is clear while the store is BUSY (R179), and, in a running part, the DISABLED ports are those whose
role is DISABLED (R21), with both slots empty (R46), no silence timer (R26) and nothing in the loop (log 31). -/
structure State.Inv (s : State) : Prop where
  queues : ∀ p, (s.port p).queue.length ≤ Config.queueCapacity
  exact : s.net.Exact []
  latch : s.store.op.isSome → s.store.latch = false
  roles : s.phase = .running → ∀ p, p < 12 → ((s.port p).link = .disabled ↔ (s.port p).record.role = .disabled)
  disabled : ∀ p, (s.port p).link = .disabled →
    (s.port p).stopSlot = none ∧ (s.port p).commandSlot = none ∧ (s.port p).silenceTimer = none ∧ (s.port p).loop = none

/-- A span record that R82 admits stands at every place of a STANDS section. -/
def StandsSection.SpansAdmitted (c : StandsSection) : Prop :=
  ∀ i, i < 9 → SpanRecord.inRange (getAt c.spans builtInSpan i) = true

/-- Every span holds a record that R82 admits and no more segments than its capacity (R91), and so does what the store holds
or is writing as STANDS. -/
structure State.Tracked (s : State) : Prop where
  records : ∀ i, i < 9 → SpanRecord.inRange (s.span i).record = true
  queues : ∀ i, i < 9 → (s.span i).queue.length ≤ (s.span i).record.capacity
  stored : ∀ c, s.store.stands.read StandsSection.bytes = some c → c.SpansAdmitted
  writing : ∀ c, s.store.op = some (.save (.stands c)) ∨ s.store.op = some (.protect (.stands c)) → c.SpansAdmitted

/-! ### Firings (R160 to R163, R168) -/

/-- A firing of class `cls` acts on the stand numbered `m` (R160): its mask names the stand, which is configured, is not OUT, and
is not TRIPPED with the same or a more severe class. -/
def State.ActsOn (s : State) (cls : Severity) (mask : Byte) (m : Nat) : Prop :=
  1 ≤ m ∧ m ≤ 8 ∧ inMask mask m = true ∧ (s.stand m).record.configured = true ∧ (s.stand m).mode ≠ .out ∧
    ∀ x, (s.stand m).mode = .tripped x → severityRank x.cls < severityRank cls

/-- `t` is `s` after a firing of a stop class with entry index `e` (R120, R160, R161, R163, R168): the stands it acts on are
TRIPPED with its class and index, the entry and exit spans of those newly tripped are flushed, the ports of their stand nodes
and extra stop nodes hold orders no less severe that name them all, and the log holds one record of it, for which a full log
has lost its oldest record that is not FIRST. The command slot of a stand newly tripped is emptied; class OPEN writes the
open-position command instead, which becomes the last command. -/
structure State.Stopped (s t : State) (e : Nat) (cls : Severity) (mask : Byte) (cause : Cause) : Prop where
  frame : EventFrame s t
  acted : ∀ m, s.ActsOn cls mask m → (t.stand m).mode = .tripped ⟨cls, e, 0#8, s.trip.interval⟩
  passed : ∀ m, ¬ s.ActsOn cls mask m → (t.stand m).tripOf = (s.stand m).tripOf
  flushed : ∀ m i, s.ActsOn cls mask m → (s.stand m).isTripped = false → s.entrySpan m = some i ∨ s.exitSpan m = some i →
    (t.span i).state = .idle ∧ (t.span i).queue = []
  commands : ∀ m, cls ≠ .opened ∨ ¬ s.ActsOn cls mask m → (t.stand m).lastCommand = (s.stand m).lastCommand
  emptied : ∀ m, s.ActsOn cls mask m → (s.stand m).isTripped = false → cls ≠ .opened → (s.stand m).record.port < 12 →
    (t.port (s.stand m).record.port).commandSlot = none
  opened : ∀ m, s.ActsOn cls mask m → cls = .opened → (t.stand m).lastCommand = some (s.stand m).record.openPos ∧
    ((s.stand m).record.port < 12 → (s.port (s.stand m).record.port).link ≠ .disabled →
      (∀ k, s.ActsOn cls mask k → (s.stand k).record.port = (s.stand m).record.port → k = m) →
      (t.port (s.stand m).record.port).commandSlot =
        some ⟨(s.stand m).record.openPos, ((s.stand m).current.map PassRecord.id).getD 0, 0x20#8, m,
          BitVec.ofNat 8 (s.stand m).record.node⟩)
  orders : ∀ m, s.ActsOn cls mask m → ∀ q ∈ StandRecord.ports (s.stand m).record, q < 12 → (s.port q).link ≠ .disabled →
    ∃ o, (t.port q).stopSlot = some o ∧ severityRank cls ≤ severityRank o.cls ∧
      ∀ k, s.ActsOn cls mask k → inMask o.mask k = true
  firings : t.trip.firings = bump s.trip.firings
  unlogged : (∀ m, ¬ s.ActsOn cls mask m) → t.trip.log = s.trip.log ∧ t.trip.evicted = s.trip.evicted
  logged : (∃ m, s.ActsOn cls mask m) → ∃ r : LogRecord,
    r.number = s.trip.nextRecord ∧ r.entry = e ∧ r.cause = cause ∧ r.cls = some cls ∧ r.time = s.time ∧
    (∀ m, 1 ≤ m → m ≤ 8 → (inMask r.tripped m = true ↔ s.ActsOn cls mask m)) ∧
    (r.first = true ↔ ∀ m, (s.stand m).isTripped = false) ∧
    (s.trip.log.length < Config.logCapacity → t.trip.log = s.trip.log ++ [r] ∧ t.trip.evicted = s.trip.evicted) ∧
    ∀ pre x post, s.trip.log = pre ++ x :: post → Config.logCapacity ≤ s.trip.log.length → x.first = false →
      (∀ y ∈ pre, y.first = true) → t.trip.log = pre ++ post ++ [r] ∧ t.trip.evicted = bump s.trip.evicted

/-! ### Requests that name nothing (R171) -/

/-- The request names a port, channel, stand, span, entry or node outside its numbering (R171); `own` is the own node number. The
store requests, which also clear the latch, are not among these. -/
def Request.Outside (own : Nat) : Request → Prop
  | .readPort _ p | .loadPort p _ | .setPortTest p _ | .injectError p => 12 ≤ p
  | .readChannel _ c | .loadChannel c _ => 32 ≤ c
  | .readStand _ n | .loadStand n _ _ | .loadPassCurrent n _ | .loadPassNext n _ => n = 0 ∨ 8 < n
  | .admitStand n | .bypass n | .switchPass n | .clearHold n => n = 0 ∨ 8 < n
  | .readSpan _ i _ | .loadSpan i _ | .flushSpan i => 9 ≤ i
  | .loadTripEntry e _ => 64 ≤ e
  | .readNodeTable n => n = 0 ∨ 254 < n
  | .bindNode n p => n = 0 ∨ 254 < n ∨ n = own ∨ 12 ≤ p
  | .unbindNode n => n = 0 ∨ 254 < n ∨ n = own
  | .identify _ | .readTripLog _ _ | .loadPartWide _ | .loadTripInterval _ | .stop _ _ | .resetTrip _ => False
  | .storeEnable | .storeDisable | .storeSave _ | .storeErase _ | .storeProtect _ | .restart => False

/-! ### The setting store (R179 to R182) -/

/-- `u` holds the sections that `l` does not name as `t` does. -/
structure Store.SameBut (l : List Nat) (t u : Store) : Prop where
  ports : 0 ∉ l → u.ports = t.ports
  channels : 1 ∉ l → u.channels = t.channels
  stands : 2 ∉ l → u.stands = t.stands
  trip : 3 ∉ l → u.trip = t.trip
  status : ∀ k, k ∉ l → getAt u.sections ⟨false, false⟩ k = getAt t.sections ⟨false, false⟩ k

/-- The sections that `l` names hold neither content nor an erasure (R180, R181). -/
structure Store.Unreadable (l : List Nat) (t : Store) : Prop where
  ports : 0 ∈ l → t.ports = .spoiled
  channels : 1 ∈ l → t.channels = .spoiled
  stands : 2 ∈ l → t.stands = .spoiled
  trip : 3 ∈ l → t.trip = .spoiled

/-- The section of a snapshot holds the snapshot with the check code of its content (R179, R180). -/
def Store.Has (t : Store) : Snapshot → Prop
  | .ports c => t.ports = .holds c (checkCode c.bytes)
  | .channels c => t.channels = .holds c (checkCode (channelsBytes c))
  | .stands c => t.stands = .holds c (checkCode c.bytes)
  | .trip c => t.trip = .holds c (checkCode c.bytes)

/-- The modified flag of a section (R175). -/
def Store.isModified (k : Nat) (t : Store) : Bool := (getAt t.sections ⟨false, false⟩ k).modified

end Sys2Proof.Machine
end

