-- ==== Sys2Proof/WellFormed.lean ====
section
/-! DEFINITION. Well-formed commands: every operand fits the field of the frame that carries it (R1, R172, R173).
The values a well-formed request may still get wrong (RANGE) are the owner's to judge. -/

namespace Sys2Proof

/-- A value of a one-byte field. -/
abbrev FitsByte (n : Nat) : Prop := n < 256
/-- A value of a two-byte field. -/
abbrev FitsHalf (n : Nat) : Prop := n < 65536
/-- An unsigned value of a four-byte field. -/
abbrev FitsQuad (n : Nat) : Prop := n < 4294967296
/-- A signed value of a four-byte field, two's complement (R1). -/
abbrev FitsInt (z : Int) : Prop := -2147483648 ≤ z ∧ z ≤ 2147483647

/-- An optional signed value. -/
abbrev FitsOptInt : Option Int → Prop
  | none => True
  | some z => FitsInt z

abbrev PortRecord.Fits (r : PortRecord) : Prop :=
  FitsByte r.reservation ∧ FitsByte r.silenceTime ∧ FitsByte r.stormWindow ∧ FitsHalf r.rising ∧ FitsHalf r.falling

abbrev PartWide.Fits (r : PartWide) : Prop :=
  FitsByte r.own ∧ FitsHalf r.aging ∧ FitsByte r.bindings.length ∧
    ∀ b ∈ r.bindings, FitsByte b.1 ∧ FitsByte b.2

abbrev ChannelRecord.Fits (r : ChannelRecord) : Prop :=
  FitsByte r.node ∧ FitsByte r.point ∧ FitsByte r.table.length ∧
    (∀ b ∈ r.table, FitsInt b.1 ∧ FitsInt b.2) ∧ FitsInt r.engMin ∧ FitsInt r.engMax ∧
    FitsQuad r.stepLimit ∧ FitsQuad r.lengthLimit ∧ FitsByte r.rejectLimit ∧ FitsHalf r.staleTime ∧
    FitsOptInt r.high ∧ FitsOptInt r.low

/-- An optional gauge: channel and distance. -/
abbrev FitsGauge : Option (Nat × Nat) → Prop
  | none => True
  | some g => FitsByte g.1 ∧ FitsHalf g.2

/-- An optional one-byte number. -/
abbrev FitsOptByte : Option Nat → Prop
  | none => True
  | some n => FitsByte n

abbrev SpanRecord.Fits (r : SpanRecord) : Prop :=
  FitsByte r.upstream ∧ FitsByte r.downstream ∧ FitsHalf r.length ∧ FitsHalf r.segment ∧
    FitsByte r.capacity ∧ FitsByte r.push ∧ FitsByte r.pop ∧ FitsGauge r.gauge ∧ FitsOptByte r.marker

abbrev StandRecord.Fits (r : StandRecord) : Prop :=
  FitsByte r.node ∧ FitsByte r.port ∧ FitsByte r.extras.length ∧
    (∀ e ∈ r.extras, FitsByte e.1 ∧ FitsByte e.2) ∧ FitsByte r.force ∧ FitsHalf r.modulus ∧
    FitsInt r.zero ∧ FitsInt r.limLo ∧ FitsInt r.limHi ∧ FitsInt r.openPos ∧ FitsHalf r.rateStep ∧
    FitsHalf r.moveStep ∧ FitsHalf r.band ∧ FitsHalf r.moveTime ∧ FitsHalf r.biteOn ∧ FitsHalf r.biteOff ∧
    FitsQuad r.followLimit ∧ FitsByte r.followCount ∧ FitsHalf r.holdTime

abbrev PassRecord.Fits (r : PassRecord) : Prop :=
  FitsByte r.id ∧ FitsInt r.entryThickness ∧ FitsInt r.exitThickness ∧ FitsInt r.preset ∧
    FitsInt r.winLo ∧ FitsInt r.winHi ∧ FitsHalf r.kFb ∧ FitsHalf r.kFf ∧ FitsHalf r.kMon ∧
    FitsHalf r.corrLimit ∧ FitsHalf r.trimLimit

abbrev TripEntryRecord.Fits (r : TripEntryRecord) : Prop :=
  FitsByte r.cond.source ∧ FitsHalf r.delay

/-- An optional pass record. -/
abbrev FitsOptPass : Option PassRecord → Prop
  | none => True
  | some p => p.Fits

/-- The operands of a command fit the fields of the frame that carries them. Commands that carry no such field
are well-formed as they stand. -/
abbrev Instr.WF : Instr → Prop
  | .frameReceived _ _ | .burstTruncated _ | .runawayBurst _ | .energyDetected _ | .energyLost _ => True
  | .idleRunComplete _ | .holdPeriodExpiry _ | .babbleQuietExpiry _ | .silenceTimeout _ => True
  | .rateWindowEnd _ _ | .stormWindowEnd _ | .transmitBegin _ | .transmitEnd _ | .nodeTableAging => True
  | .sample _ _ _ f => FitsInt f.raw ∧ FitsInt f.eng
  | .status _ _ _ f => FitsInt f.actual ∧ FitsInt f.echo
  | .setpoint _ f => FitsInt f.value
  | .group _ f => FitsInt f.value
  | .panelStop _ _ => True
  | .unknownRequest _ _ body => body.length ≤ 238
  | .identify _ | .identifyClear _ => True
  | .readPort _ n | .readPortClear _ n | .readChannel _ n | .readChannelClear _ n => FitsByte n
  | .readStand _ n | .readStandClear _ n | .readTripLog _ n | .readTripLogClear _ n => FitsByte n
  | .readNodeTable _ n | .flushSpan _ n | .admitStand _ n | .bypass _ n | .switchPass _ n | .clearHold _ n => FitsByte n
  | .unbindNode _ n | .loadTripEntryPartWide _ n | .injectError _ n => FitsByte n
  | .storeSave _ n | .storeErase _ n | .storeProtect _ n => FitsByte n
  | .readSpan _ n k | .readSpanClear _ n k | .bindNode _ n k | .setPortTest _ n k => FitsByte n ∧ FitsByte k
  | .loadPort _ n r => FitsByte n ∧ r.Fits
  | .loadPortPartWide _ r => r.Fits
  | .loadChannel _ n r => FitsByte n ∧ r.Fits
  | .loadSpan _ n r => FitsByte n ∧ r.Fits
  | .loadStand _ n r p => FitsByte n ∧ r.Fits ∧ FitsOptPass p
  | .loadPassCurrent _ n p | .loadPassNext _ n p => FitsByte n ∧ p.Fits
  | .loadTripEntry _ n r => FitsByte n ∧ r.Fits
  | .stopRequest _ c _ => FitsByte c
  | .resetTrip _ _ | .storeEnable _ | .storeDisable _ | .restart _ => True
  | .staleTimerExpiry _ | .moveTimeout _ | .holdTimerExpiry _ | .tripDelayExpiry _ | .repeatTimerExpiry _ => True
  | .storeSaveComplete _ | .storeEraseComplete | .storeProtectComplete _ => True
  | .powerOn | .powerLoss | .resetInputAssert | .resetInputRelease | .brownOut | .startUpReadComplete => True
  | .receiverBlockClaim _ _ | .timeBaseTick => True

end Sys2Proof
end

