-- ==== Sys2Proof/Certificates/Slice0/Obligations.lean ====
section
/-! DEFINITION. The statements for the provers, chapter by chapter. Each docstring names the rules it formalises. -/

open Sys2Proof Sys2Proof.Machine

/-! ### The machine -/

/-- A step takes the command at the front of the queue and runs it on the rest; on an empty queue it idles (log 1). -/
def Obligations.StepTakesFront : Prop :=
  ∀ (s : State), (∀ (c : Instr) (rest : List Instr), s.pending = c :: rest → step s = exec c { s with pending := rest }) ∧
    (s.pending = [] → step s = .next s)

/-- No command stops the part, and no command's meaning touches the queue of waiting commands. -/
def Obligations.EveryCommandCompletes : Prop :=
  ∀ (c : Instr) (s : State), ∃ t, exec c s = .next t ∧ t.pending = s.pending

/-- The machine after reset meets the invariant. What it holds at reset beside the values the spec states is log 6. -/
def Obligations.ResetMeetsInvariant : Prop := State.reset.Inv

/-- Every step keeps the invariant: queues within 64 entries (R46), exact reference counts (R43), a clear latch while the
store is BUSY (R179), and DISABLED ports as R21, R26 and R46 state. That nothing is in the loop of a DISABLED port is log 31. -/
def Obligations.StepKeepsInvariant : Prop :=
  ∀ (s t : State), s.Inv → step s = .next t → t.Inv

/-! ### Power, reset, start-up and the time base (chapter 11) -/

/-- POWER_ON, POWER_LOSS, the reset input and BROWN_OUT take the part to step 1 of R184 (R39, R155, R183, R184, R186): power
on and a release of the reset input go on to read the store, unless the reset input or a low supply holds the part there. A
low supply asserts the reset input internally until it recovers: a release of the pin meanwhile starts nothing. A part without
supply takes note of the pin alone. The model's choices here are log 19 (POWER_ON in any phase stands for the recovery). -/
def Obligations.PowerAndResetReachStepOne : Prop :=
  ∀ s : State,
    (∃ t, exec .powerOn s = .next t ∧ s.AtStepOne t ∧ t.resetInput = s.resetInput ∧ t.supplyLow = false ∧
      t.phase = if s.resetInput then .heldInReset else .reading) ∧
    (∃ t, exec .powerLoss s = .next t ∧ s.AtStepOne t ∧ t.resetInput = s.resetInput ∧ t.supplyLow = false ∧
      t.phase = .unpowered) ∧
    (s.phase ≠ .unpowered →
      (∃ t, exec .resetInputAssert s = .next t ∧ s.AtStepOne t ∧ t.resetInput = true ∧ t.supplyLow = s.supplyLow ∧
        t.phase = .heldInReset) ∧
      ∃ t, exec .brownOut s = .next t ∧ s.AtStepOne t ∧ t.resetInput = s.resetInput ∧ t.supplyLow = true ∧
        t.phase = .heldInReset) ∧
    (s.phase = .heldInReset → s.supplyLow = false →
      ∃ t, exec .resetInputRelease s = .next t ∧ s.AtStepOne t ∧ t.resetInput = false ∧ t.supplyLow = false ∧
        t.phase = .reading) ∧
    (s.phase ≠ .heldInReset ∨ s.supplyLow = true → exec .resetInputRelease s = .next { s with resetInput := false }) ∧
    (s.phase = .unpowered → exec .resetInputAssert s = .next { s with resetInput := true } ∧ exec .brownOut s = .next s)

/-- When the sections have been read, the part starts (R39, R51, R64, R85, R108, R159, R168, R175, R184): every block is loaded
as `State.LoadedFrom` says, each port enters DISABLED, SYNC or DOWN by its role and its energy detector, and the part runs. The
model's choices here are log 16, log 20 and log 25. -/
def Obligations.StartUpLoadsSections : Prop :=
  ∀ s : State, s.phase = .reading →
    ∃ t, exec .startUpReadComplete s = .next t ∧ t.phase = .running ∧ t.time = s.time ∧ t.pending = s.pending ∧
      t.resetInput = s.resetInput ∧ t.supplyLow = s.supplyLow ∧ t.store.op = s.store.op ∧ t.store.latch = s.store.latch ∧
      s.LoadedFrom t ∧ t.net.frames = [] ∧
      ∀ p, p < 12 → ∃ r, r = (t.port p).record ∧ (t.port p).energy = (s.port p).energy ∧
        (t.port p).link = (if r.role = .disabled then .disabled else if (s.port p).energy then .sync else .down) ∧
        (t.port p).silenceTimer = (if r.role = .disabled then none else some r.silenceTime) ∧
        (t.port p).silent = false ∧ (t.port p).rate = false ∧ (t.port p).limiting = false ∧ (t.port p).panel = false ∧
        (t.port p).rateLeft = 10 ∧ (t.port p).stormLeft = r.stormWindow ∧ (t.port p).stormCount = 0 ∧
        (t.port p).mode = .none ∧ (t.port p).checker.inSync = false ∧ (t.port p).injection = false ∧
        (t.port p).burst = none ∧ (t.port p).loop = none ∧ (t.port p).sending = none ∧ (t.port p).stopSlot = none ∧
        (t.port p).commandSlot = none ∧ (t.port p).queue = [] ∧ (t.port p).counters = {}

/-- The built-in content (R187): a start-up without a valid section takes it, port 0 LINE and the others DISABLED with the
fields of R17, every channel and span disabled, every stand unconfigured without passes, and the minimal matrix, built from the
running ports and stands: FAST on all stands for each PANEL port, and FAST on its stands for the LINK of each stand port. A
section is valid when its check code matches its content (R179); how the content is encoded for it is log 25. -/
def Obligations.BuiltInContentGuardsPanelsAndCables : Prop :=
  (∀ c code, Stored.read PortsSection.bytes (.holds c code) = none ↔ checkCode c.bytes ≠ code) ∧
  ∀ s : State, s.phase = .reading → ∃ t, exec .startUpReadComplete s = .next t ∧
    (s.store.ports.read PortsSection.bytes = none → t.part = ⟨254, 60, []⟩ ∧ (∀ n, t.node n = ⟨.empty, none⟩) ∧
      ∀ p, p < 12 → (t.port p).record = ⟨if p = 0 then .line else .disabled, false, 8, 20, 10, 200, 100⟩) ∧
    (s.store.channels.read channelsBytes = none → ∀ c, (t.channel c).record.enabled = false) ∧
    (s.store.stands.read StandsSection.bytes = none →
      (∀ n, (t.stand n).record.configured = false ∧ (t.stand n).current = none ∧ (t.stand n).next = none) ∧
      ∀ i, (t.span i).record.enabled = false) ∧
    (s.store.trip.read TripSection.bytes = none → t.trip.interval = 10 ∧ t.trip.protect = false ∧
      ∀ e, e < 64 →
        (e < 12 → (t.port e).record.role = .panel → (t.entry e).record = ⟨true, ⟨.panel, e⟩, 0, some .fast, 0xFF#8⟩) ∧
        (∀ p, e = 12 + p → p < 12 → (∃ n, 1 ≤ n ∧ n ≤ 8 ∧ (t.stand n).record.configured = true ∧ (t.stand n).record.port = p) →
          ∃ m, (t.entry e).record = ⟨true, ⟨.link, p⟩, 0, some .fast, m⟩ ∧
            ∀ n, 1 ≤ n → n ≤ 8 → (inMask m n = true ↔ (t.stand n).record.configured = true ∧ (t.stand n).record.port = p)) ∧
        ((e < 12 → (t.port e).record.role ≠ .panel) →
          (∀ p n, e = 12 + p → p < 12 → 1 ≤ n → n ≤ 8 → (t.stand n).record.configured = true → (t.stand n).record.port ≠ p) →
          (t.entry e).record.enabled = false))

/-- A millisecond passes in a part that reads or runs (R185): the time base increases, wrapping, every running millisecond
timer counts down by one, and nothing else changes. That milliseconds are counted here and expiries come as commands is log
5. -/
def Obligations.TickAdvancesTimers : Prop :=
  ∀ s : State, s.phase = .reading ∨ s.phase = .running →
    ∃ t, exec .timeBaseTick s = .next t ∧ t.time = s.time + 1 ∧
      (∀ p, t.port p = { s.port p with
        silenceTimer := (s.port p).silenceTimer.map (· - 1), rateLeft := (t.port p).rateLeft,
        stormLeft := (t.port p).stormLeft }) ∧
      (∀ p, p < 12 → (t.port p).rateLeft = (s.port p).rateLeft - 1 ∧ (t.port p).stormLeft = (s.port p).stormLeft - 1) ∧
      (∀ c, t.channel c = { s.channel c with staleTimer := (s.channel c).staleTimer.map (· - 1) }) ∧
      (∀ n, t.stand n = { s.stand n with
        holdTimer := (s.stand n).holdTimer.map (· - 1)
        mode := match (s.stand n).mode with
          | .moving m => .moving { m with timer := m.timer - 1 }
          | .tripped x => .tripped { x with timer := x.timer - 1 }
          | m => m }) ∧
      (∀ e, t.entry e = { s.entry e with
        state := match (s.entry e).state with
          | .timing k => .timing (k - 1)
          | x => x }) ∧
      t = { s with time := t.time, net := { s.net with ports := t.net.ports }, channels := t.channels, stands := t.stands,
                   trip := { s.trip with entries := t.trip.entries } }

/-! ### Link ports (chapters 1 and 2) -/

/-- The link state follows the line (R21 to R24): signal energy takes DOWN to SYNC with an idle run of zero, its loss takes
SYNC, UP and BABBLE to DOWN, an idle run of 32 takes SYNC to UP, an expired hold period UP to SYNC, a runaway burst UP to
BABBLE, and 5 ms of quiet BABBLE to SYNC; in any other link state the event changes no link state, and a DISABLED port keeps
its own. A port that leaves UP discards the burst it was receiving from the line (R19), in every test mode. Nothing else
changes but by the LINK and BABBLE conditions taken as events (R25, R155). The symbols are not counted one by one: log 23. -/
def Obligations.LinkStateFollowsTheLine : Prop :=
  ∀ (s : State) (p : Fin 12),
    (∃ t, exec (.energyDetected p) s = .next t ∧
      EventFrame (s.modPort p fun P =>
        { P with energy := true, link := if P.link = .down then .sync else P.link,
                 idleRun := if P.link = .down then 0 else P.idleRun,
                 burst := if P.link = .down then none else P.burst }) t) ∧
    (∃ t, exec (.energyLost p) s = .next t ∧
      EventFrame (s.modPort p fun P =>
        { P with energy := false, rateSpoiled := true, link := if P.link = .disabled then .disabled else .down,
                 burst := if P.link = .sync ∨ P.link = .up ∨ P.link = .babble then none else P.burst }) t) ∧
    ((s.port p).link = .sync →
      ∃ t, exec (.idleRunComplete p) s = .next t ∧
        EventFrame (s.modPort p fun P => { P with link := .up, idleRun := 32 }) t) ∧
    ((s.port p).link = .up →
      (∃ t, exec (.holdPeriodExpiry p) s = .next t ∧
        EventFrame (s.modPort p fun P => { P with link := .sync, idleRun := 0, burst := none }) t) ∧
      ∃ t, exec (.runawayBurst p) s = .next t ∧
        EventFrame (s.modPort p fun P => { P with link := .babble, burst := none }) t) ∧
    ((s.port p).link = .babble →
      ∃ t, exec (.babbleQuietExpiry p) s = .next t ∧
        EventFrame (s.modPort p fun P => { P with link := .sync, idleRun := 0, burst := none }) t) ∧
    ((s.port p).link ≠ .sync → exec (.idleRunComplete p) s = .next s) ∧
    ((s.port p).link ≠ .up → exec (.holdPeriodExpiry p) s = .next s ∧ exec (.runawayBurst p) s = .next s) ∧
    ((s.port p).link ≠ .babble → exec (.babbleQuietExpiry p) s = .next s)

/-- The three monitors (R26, R27, R29): an expired silence timer raises SILENT; a rate window without a verdict keeps RATE,
one with a deviation above 750 symbols raises it, one below 500 clears it, and one between keeps it; a storm window ends
with LIMITING kept only while more than F samples were offered, and the next window starts with a count of zero. That an
expiry comes as a command is log 5. -/
def Obligations.MonitorsJudgeTheirWindows : Prop :=
  ∀ (s : State) (p : Fin 12),
    ((s.port p).silenceTimer.isSome →
      ∃ t, exec (.silenceTimeout p) s = .next t ∧
        EventFrame (s.modPort p fun P => { P with silenceTimer := none, silent := true }) t) ∧
    (∀ n : Nat, ∃ t b, exec (.rateWindowEnd p n) s = .next t ∧
      EventFrame (s.modPort p fun P =>
        { P with rate := b, rateLeft := 10, rateSpoiled := !P.energy || P.link == .disabled }) t ∧
      ((s.port p).rateSpoiled = true → b = (s.port p).rate) ∧
      ((s.port p).rateSpoiled = false → 250000 + 750 < n ∨ n + 750 < 250000 → b = true) ∧
      ((s.port p).rateSpoiled = false → 250000 < n + 500 ∧ n < 250000 + 500 → b = false) ∧
      ((s.port p).rateSpoiled = false →
        (250000 + 500 ≤ n ∧ n ≤ 250000 + 750) ∨ (n + 500 ≤ 250000 ∧ 250000 ≤ n + 750) → b = (s.port p).rate)) ∧
    (∃ t, exec (.stormWindowEnd p) s = .next t ∧
      EventFrame (s.modPort p fun P =>
        { P with limiting := P.limiting && decide (P.record.falling < P.stormCount), stormCount := 0,
                 stormLeft := P.record.stormWindow }) t)

/-- A free transmitter of a port that is not DISABLED begins at once what its test mode serves (R20, R32, R34, R46 to R50): the
stop slot first, then the command slot, then the head of the normal queue; in LOCAL LOOP the command slot and the queue, each
frame going into the port's own receiver; in REMOTE LOOP the queue; in PATTERN the next PATTERN frame. The source chosen is
emptied of the item, nothing else changes; a transmitter that is busy, whose port is DISABLED, or that has nothing to send
changes nothing. That a transmitter is free whenever no frame is on the line, its 32 idle symbols not being counted, is log 23. -/
def Obligations.TransmitterChoosesItsSource : Prop :=
  ∀ (s : State) (p : Fin 12),
    ((s.port p).sending.isSome ∨ (s.port p).link = .disabled → exec (.transmitBegin p) s = .next s) ∧
    ((s.port p).sending = none → (s.port p).link ≠ .disabled →
      (∀ o, (s.port p).mode = .none → (s.port p).stopSlot = some o →
        exec (.transmitBegin p) s = .next (s.modPort p fun P =>
          { P with stopSlot := none, sending := some ⟨stopFrame s.part.own o, none⟩, loop := none })) ∧
      (∀ g, ((s.port p).mode = .none ∧ (s.port p).stopSlot = none) ∨ (s.port p).mode = .localLoop →
        (s.port p).commandSlot = some g →
        exec (.transmitBegin p) s = .next (s.modPort p fun P =>
          { P with commandSlot := none, sending := some ⟨gapFrame s.part.own g, none⟩,
                   loop := if P.mode = .localLoop then some ⟨[], 0, false⟩ else none })) ∧
      (∀ id l f, ((s.port p).mode = .none ∧ (s.port p).stopSlot = none ∧ (s.port p).commandSlot = none) ∨
          ((s.port p).mode = .localLoop ∧ (s.port p).commandSlot = none) ∨ (s.port p).mode = .remoteLoop →
        (s.port p).queue = id :: l → s.net.frame id = some f →
        exec (.transmitBegin p) s = .next (s.modPort p fun P =>
          { P with queue := l, sending := some ⟨f, some id⟩,
                   loop := if P.mode = .localLoop then some ⟨[], 0, false⟩ else none })) ∧
      ((s.port p).mode ≠ .pattern → (s.port p).stopSlot = none → (s.port p).commandSlot = none → (s.port p).queue = [] →
        exec (.transmitBegin p) s = .next s) ∧
      ((s.port p).mode = .pattern →
        ∃ f, f.kind = .pattern ∧ f.dest = 0#8 ∧ f.source = 0#8 ∧ f.payload.length = 66 ∧
          f.payload.take 2 = put16 (s.port p).patternIndex.toNat ∧
          f.payload.drop 2 = (if (s.port p).injection then
            invertFirst (packBits (patternDraw 512 (s.port p).patternRegister).1)
            else packBits (patternDraw 512 (s.port p).patternRegister).1) ∧
          exec (.transmitBegin p) s = .next (s.modPort p fun P =>
            { P with sending := some ⟨f, none⟩, loop := none, injection := false, patternIndex := P.patternIndex + 1,
                     patternRegister := (patternDraw 512 P.patternRegister).2 })))

/-- The end delimiter of a frame on the line (R38, R43, R47, R49): it counts as sent, and a STOP frame, an echo of REMOTE
LOOP too, as a stop order sent, and the reference the transmission held is released; with the last reference the frame's blocks are free. Without a frame on the
line nothing changes. -/
def Obligations.TransmissionEndCountsAndReleases : Prop :=
  ∀ (s : State) (p : Fin 12), ((s.port p).sending = none → exec (.transmitEnd p) s = .next s) ∧
    ∀ x : Sending, (s.port p).sending = some x → (s.port p).loop = none → s.net.Sound →
      ∃ t, exec (.transmitEnd p) s = .next t ∧ t = { s with net := t.net } ∧
        t.port p = { s.port p with sending := none, counters := { (s.port p).counters with
          sent := bump (s.port p).counters.sent
          stopSent := if x.frame.kind = .stop then bump (s.port p).counters.stopSent else (s.port p).counters.stopSent } } ∧
        (∀ q, q ≠ p.val → t.port q = s.port q) ∧ t.net.nextId = s.net.nextId ∧ t.net.dropped = s.net.dropped ∧
        ∀ h, h ∈ t.net.frames ↔
          (h ∈ s.net.frames ∧ x.held ≠ some h.id) ∨
            (x.held = some h.id ∧ h.refs ≠ 0 ∧ { h with refs := h.refs + 1 } ∈ s.net.frames)

/-- The receiver in a test mode (R32, R33, R35). LOCAL LOOP: a frame that ends in the loop is judged and counted at its end
delimiter, as MALFORMED or as received; a valid one restarts the silence timer and reaches no unit; the transmission then ends as
one on the line does. REMOTE LOOP: a valid frame is placed, with its blocks, at the tail of the port's own queue, or dropped as
QUEUE_FULL. PATTERN: a valid PATTERN frame goes to the checker, as a CHECK discard does, and any other valid frame is released, as
a PATTERN frame in NONE is. The clauses on valid frames are for a port whose SILENT condition no entry refers to. When the loop is
judged is log 31. -/
def Obligations.TestModesReceiveTheirFrames : Prop :=
  (∀ (s : State) (p : Fin 12) (x : Sending) (b : Burst), (s.port p).sending = some x → (s.port p).loop = some b →
    (judge s.part.own (symbolsOf x.frame.bytes) = .malformed → exec (.transmitEnd p) s = exec (.transmitEnd p)
      (s.modPort p fun P => { P with loop := none, counters := { P.counters with malformed := bump P.counters.malformed } })) ∧
    (∀ f, judge s.part.own (symbolsOf x.frame.bytes) = .valid f → s.refs ⟨.silent, p⟩ = [] →
      (b.short = true ∨ (b.short = false ∧ s.net.used p + 2 ≤ s.net.reservation p)) →
      exec (.transmitEnd p) s = exec (.transmitEnd p) (s.modPort p fun P =>
        { P with loop := none, silent := false, silenceTimer := some P.record.silenceTime,
                 counters := { P.counters with
                   received := bump P.counters.received
                   noBuffer := if b.short then bump P.counters.noBuffer else P.counters.noBuffer } }))) ∧
  (∀ (s : State) (p : Fin 12) (l : List Symbol), s.phase = .running → (s.port p).link = .up → s.HasBlocks p →
    s.refs ⟨.silent, p⟩ = [] →
    (∀ f, judge s.part.own l = .valid f →
      ((s.port p).mode = .remoteLoop → s.net.Sound → ∃ t h, exec (.frameReceived p l) s = .next t ∧
        h.id = s.net.nextId ∧ h.frame = f ∧ h.refs = 1 ∧
        ((s.port p).burst = none → h.tags = List.replicate (if f.size ≤ 128 then 1 else 2) (.reserved p)) ∧
        ((s.port p).queue.length < 64 →
          t = { s.modPort p (fun P => { P.afterValid with queue := P.queue ++ [h.id] }) with net := t.net } ∧
          t.net = { (s.net.modPort p fun P => { P.afterValid with queue := P.queue ++ [h.id] }) with
            frames := s.net.frames ++ [h], nextId := s.net.nextId + 1 }) ∧
        (64 ≤ (s.port p).queue.length →
          t = { s.modPort p (fun P => P.afterValid) with net := t.net } ∧
          t.net = { (s.net.modPort p fun P =>
              { P.afterValid with counters := { P.afterValid.counters with queueFull := bump P.counters.queueFull } }) with
            nextId := s.net.nextId + 1 })) ∧
      ((s.port p).mode = .pattern →
        (f.kind ≠ .pattern → exec (.frameReceived p l) s = .next (s.modPort p Port.afterValid)) ∧
        (f.kind = .pattern → ∃ K bad, (s.port p).checker.check (unpackBits (f.payload.drop 2)) = (K, bad) ∧
          exec (.frameReceived p l) s = .next (s.modPort p fun P =>
            { P.afterValid with checker := K, counters := { P.afterValid.counters with
              patternErrors := if bad = true then bump P.counters.patternErrors else P.counters.patternErrors } }))) ∧
      ((s.port p).mode = .none → f.kind = .pattern → exec (.frameReceived p l) s = .next (s.modPort p Port.afterValid))) ∧
  (∀ (s : State) (p : Fin 12) (l : List Symbol), s.phase = .running → (s.port p).link = .up → (s.port p).mode = .pattern →
    judge s.part.own l = .check →
      exec (.frameReceived p l) s = .next (s.modPort p fun P =>
        { P with burst := none
                 checker := if P.checker.inSync then
                     (if 3 ≤ P.checker.badRun then
                       ⟨false, 0, P.checker.badRun + 1, (patternDraw 512 P.checker.register).2⟩
                      else { P.checker with badRun := P.checker.badRun + 1,
                                            register := (patternDraw 512 P.checker.register).2 })
                   else { P.checker with goodRun := 0 }
                 counters := { P.counters with
                   check := bump P.counters.check
                   patternErrors := if P.checker.inSync then bump P.counters.patternErrors
                     else P.counters.patternErrors } }))) ∧
  (∀ (K : Checker) (bits : List Bool), bits.length = 512 →
    (K.inSync = true → (patternDraw 512 K.register).1 = bits →
      K.check bits = ({ K with badRun := 0, register := (patternDraw 512 K.register).2 }, false)) ∧
    (K.inSync = true → (patternDraw 512 K.register).1 ≠ bits → ∃ K', K.check bits = (K', true) ∧
      K'.register = (patternDraw 512 K.register).2 ∧ K'.badRun = K.badRun + 1 ∧ (K'.inSync = true ↔ K.badRun < 3) ∧
      (3 ≤ K.badRun → K'.goodRun = 0)) ∧
    (K.inSync = false → ∃ K', K.check bits = (K', false) ∧
      (¬ (∃ r : BitVec 15, r ≠ 0#15 ∧ (patternDraw 512 r).1 = bits) → K'.inSync = false ∧ K'.goodRun = 0) ∧
      (∀ r : BitVec 15, r ≠ 0#15 → (patternDraw 512 r).1 = bits → K'.register = (patternDraw 512 r).2 ∧
        (K'.inSync = true ↔ K.goodRun = 1 ∧ K.register = r) ∧ K'.goodRun = if K'.inSync then 2 else 1)))

/-- A LOAD PORT that is not refused and changes the tags of no block (R17, R18, R21, R26, R29, R41, R44): one that keeps the role
restarts the silence timer and the storm window when their fields change; one that changes it ends a test mode, restarts the
storm window and enters or leaves DISABLED, where the queue is emptied. A raise that the shared pool cannot cover is answered
BUSY. The blocks that a lowered reservation does not cover become shared ones; any other load keeps every tag, whatever a RESTART
has left held (R62). Which blocks are retagged, and when a burst is dropped, is log 14; that a port that becomes DISABLED drops
its loop is log 31; where the row starts is log 3. -/
def Obligations.LoadPortTakesTheRecord : Prop :=
  (∀ (s : State) (a : Arrival) (p : Nat) (r : PortRecord), s.Hears a → p < 12 → PortRecord.inRange r = true →
    s.linesFit p r = true → s.reservationsFit p r = true →
    (s.CanReply a → (s.port p).record.role = r.role → (s.port p).record.reservation + s.net.sharedFree < r.reservation →
      ∃ t, exec (.loadPort a p r) s = .next t ∧ QuietFrame (s.taken a.port) t ∧ s.Replied t a 0x20 .busy) ∧
    (s.net.used p ≤ r.reservation ∨ (s.port p).record.reservation ≤ r.reservation →
      r.reservation ≤ (s.port p).record.reservation + s.net.sharedFree →
      ((s.port p).record.role = r.role → ∃ t, exec (.loadPort a p r) s = .next t ∧
        QuietFrame (((s.taken a.port).modPort p fun P =>
          { P with
            record := r
            silenceTimer := if P.record.silenceTime = r.silenceTime ∨ r.role = .disabled then P.silenceTimer
              else some r.silenceTime
            stormCount := if P.record.stormWindow = r.stormWindow ∧ P.record.rising = r.rising ∧ P.record.falling = r.falling
              then P.stormCount else 0
            stormLeft := if P.record.stormWindow = r.stormWindow ∧ P.record.rising = r.rising ∧ P.record.falling = r.falling
              then P.stormLeft else r.stormWindow }).setModified secPorts) t) ∧
      ((s.port p).record.role ≠ r.role → s.roleHeld a.port p = false → s.net.Exact [] →
        ∃ v t, v = (if r.role = .disabled then { s.taken a.port with net := (s.taken a.port).net.emptyQueue p }
            else s.taken a.port) ∧
          exec (.loadPort a p r) s = .next t ∧ EventFrame ((v.modPort p fun P =>
          { P with
            record := r, mode := .none, stormCount := 0, stormLeft := r.stormWindow
            link := if r.role = .disabled then .disabled
              else if P.record.role = .disabled then (if P.energy then .sync else .down) else P.link
            idleRun := if r.role ≠ .disabled ∧ P.record.role = .disabled ∧ P.energy = true then 0 else P.idleRun
            burst := if P.mode ≠ .none ∨ r.role = .disabled ∨ P.record.role = .disabled then none else P.burst
            loop := if r.role = .disabled then none else P.loop
            checker := if P.mode = .none then P.checker else { P.checker with inSync := false, goodRun := 0, badRun := 0 }
            injection := if P.mode = .none then P.injection else false
            silenceTimer := if r.role = .disabled then none
              else if P.record.silenceTime = r.silenceTime ∧ P.record.role ≠ .disabled then P.silenceTimer else some r.silenceTime
            silent := if r.role = .disabled then false else P.silent
            rate := if r.role = .disabled then false else P.rate
            rateSpoiled := if r.role = .disabled then true else P.rateSpoiled
            limiting := if r.role = .disabled then false else P.limiting
            stopSlot := if r.role = .disabled then none else P.stopSlot
            commandSlot := if r.role = .disabled then none else P.commandSlot }).setModified secPorts) t))) ∧
  (∀ (n : Net) (p : Nat) (units : List Nat), n.Exact units → p < 12 →
    (n.emptyQueue p).Exact units ∧ ((n.emptyQueue p).port p) = { n.port p with queue := [] } ∧
    ∀ q, q ≠ p → (n.emptyQueue p).port q = n.port q) ∧
  (∀ (n : Net) (p r : Nat), p < 12 → (∀ q, q ≠ p → .reserved p ∉ (n.port q).heldTags) →
    (n.reservation p ≤ r → n.lowerReservation p r = n) ∧
    (r < n.reservation p →
      (n.lowerReservation p r).used p = min (n.used p) r ∧
      (n.lowerReservation p r).sharedUsed = n.sharedUsed + (n.used p - r) ∧
      ∀ q, q ≠ p → (n.lowerReservation p r).used q = n.used q))

/-- SET PORT TEST and INJECT ERROR (R30, R31, R34, R36): a mode is entered, or left for NONE, with the burst discarded, the checker
out of sync and the injection cancelled; on entry to REMOTE LOOP and PATTERN the normal queue is emptied; PATTERN starts its register
at all ones and its index at 0; an injection is pending in PATTERN and refused STATE elsewhere. That a request for NONE in NONE
changes nothing is the model's choice: log 32. Where the row starts is log 3. -/
def Obligations.PortTestEntersTheMode : Prop :=
  ∀ (s : State) (a : Arrival) (p : Nat), s.Hears a → p < 12 →
    ((s.port p).mode = .none → ∃ t, exec (.setPortTest a p 0) s = .next t ∧ QuietFrame (s.taken a.port) t) ∧
    (∀ m k, (m = .none ∧ k = 0 ∧ (s.port p).mode ≠ .none) ∨
        ((m = .localLoop ∧ k = 1 ∨ m = .remoteLoop ∧ k = 2 ∨ m = .pattern ∧ k = 3) ∧
          (s.port p).record.role ≠ .disabled ∧ p ≠ a.port ∧
          ((s.port p).record.role = .stand → s.namedInService p = false)) →
      (m = .remoteLoop ∨ m = .pattern → s.net.Exact []) →
      ∃ v t, v = (if m = .remoteLoop ∨ m = .pattern then { s.taken a.port with net := (s.taken a.port).net.emptyQueue p }
          else s.taken a.port) ∧
        exec (.setPortTest a p k) s = .next t ∧ EventFrame (v.modPort p fun P =>
        { P with mode := m, burst := none, injection := false,
                 checker := { P.checker with inSync := false, goodRun := 0, badRun := 0 },
                 patternRegister := if m = .pattern then BitVec.allOnes 15 else P.patternRegister,
                 patternIndex := if m = .pattern then 0#16 else P.patternIndex }) t) ∧
    ((s.port p).mode = .pattern → ∃ t, exec (.injectError a p) s = .next t ∧
      QuietFrame ((s.taken a.port).modPort p fun P => { P with injection := true }) t) ∧
    (s.CanReply a → (s.port p).mode ≠ .pattern → ∃ t, exec (.injectError a p) s = .next t ∧
      QuietFrame (s.taken a.port) t ∧ s.Replied t a 0x41 (.refused .state []))

/-! ### The frame buffer, the node table and frames at arrival (chapters 1 to 3) -/

/-- Claims and discards at the receiver (R4, R8, R19, R32, R42). The first byte of a burst, and the 129th, claim a block: from
the port's own reservation while that has a free block, else from the shared pool, else none, and the burst is marked short. In
UP the bytes are those of the line, but in LOCAL LOOP those of the port's own frame in the loop; a port takes bytes from nowhere
else. A frame discarded at arrival adds one to the port's discards under its reason and frees every block it had taken, and
nothing else changes: a frame that fails R4 as MALFORMED, one that fails as CHECK outside PATTERN, a truncated burst, and a SAMPLE
or STATUS row whose burst is short of buffer (where a row starts is log 3; how the loop is received is log 31). -/
def Obligations.ReceiverClaimsAndDiscards : Prop :=
  (∀ (s : State) (p : Fin 12) (b : Burst) (k : ClaimByte), s.phase = .running →
    (k = .first ∧ b = ⟨[], 0, false⟩) ∨ (k = .byte129 ∧ b.claims = 1 ∧ b.short = false) →
    ∃ b' : Burst, b'.claims = b.claims + 1 ∧
      (s.net.used p < s.net.reservation p → b'.tags = b.tags ++ [.reserved p] ∧ b'.short = false) ∧
      (s.net.reservation p ≤ s.net.used p → 0 < s.net.sharedFree → b'.tags = b.tags ++ [.shared] ∧ b'.short = false) ∧
      (s.net.reservation p ≤ s.net.used p → s.net.sharedFree = 0 → b'.tags = b.tags ∧ b'.short = true) ∧
      ((s.port p).link = .up → (s.port p).mode ≠ .localLoop →
        (s.port p).burst = some b ∨ (k = .first ∧ (s.port p).burst = none) →
        exec (.receiverBlockClaim p k) s = .next (s.modPort p fun P => { P with burst := some b' })) ∧
      ((s.port p).mode = .localLoop → (s.port p).loop = some b →
        exec (.receiverBlockClaim p k) s = .next (s.modPort p fun P => { P with loop := some b' }))) ∧
  (∀ (s : State) (p : Fin 12) (l : List Symbol), s.phase = .running → (s.port p).link = .up →
    (s.port p).mode ≠ .localLoop →
    (judge s.part.own l = .malformed → exec (.frameReceived p l) s = .next (s.modPort p fun P =>
      { P with burst := none, counters := { P.counters with malformed := bump P.counters.malformed } })) ∧
    (judge s.part.own l = .check → (s.port p).mode ≠ .pattern → exec (.frameReceived p l) s = .next (s.modPort p fun P =>
      { P with burst := none, counters := { P.counters with check := bump P.counters.check } })) ∧
    exec (.burstTruncated p) s = .next (s.modPort p fun P =>
      { P with burst := none, counters := { P.counters with malformed := bump P.counters.malformed } })) ∧
  (∀ (s : State) (p : Fin 12) (c : Instr) (source : Byte), s.phase = .running → (s.port p).link = .up →
    (s.port p).mode = .none → (s.port p).isShort .line = true → Instr.Reports p source c →
    exec c s = .next (s.modPort p fun P =>
      { P with burst := none, counters := { P.counters with noBuffer := bump P.counters.noBuffer } })) ∧
  (∀ (s : State) (p : Fin 12) (l : List Symbol) (b : ClaimByte),
    s.phase ≠ .running ∨ (s.port p).link ≠ .up ∨ (s.port p).mode = .localLoop →
    exec (.frameReceived p l) s = .next s ∧ exec (.burstTruncated p) s = .next s ∧
      ((s.port p).mode ≠ .localLoop ∨ (s.port p).loop = none → exec (.receiverBlockClaim p b) s = .next s))

/-- A valid frame that the port's buffer has stored, at an UP port in test mode NONE, is received (R26, R38) and then handled
exactly as the row of its kind with its fields (R57, R58, R60): a SAMPLE, a STATUS, a panel's STOP, and, where it is addressed to
the part, a SETPOINT, a GROUP and a MANAGE, whatever the role of its port and the node table's judgement of its source. A valid
frame whose burst is short of buffer is received and discarded as NO_BUFFER (R42). Where a row starts is log 3. -/
def Obligations.FrameReceivedIsItsRow : Prop :=
  ∀ (s : State) (p : Fin 12) (l : List Symbol) (f : Frame), s.phase = .running → (s.port p).link = .up →
    (s.port p).mode = .none → judge s.part.own l = .valid f →
    ((s.port p).isShort .line = true → ∃ u t, exec (.frameReceived p l) s = .next t ∧
      EventFrame (s.modPort p Port.afterValid) u ∧
      t = u.modPort p fun P => { P with counters := { P.counters with noBuffer := bump P.counters.noBuffer } }) ∧
    (s.HasBlocks p → ∃ u b, b.short = false ∧
      EventFrame (s.modPort p fun P => { P.afterValid with burst := some b }) u ∧
      (s.refs ⟨.silent, p⟩ = [] → u = s.modPort p fun P => { P.afterValid with burst := some b }) ∧
      (∀ x, f.kind = .sample → getSample f.payload = some x →
        exec (.frameReceived p l) s = exec (.sample p f.dest f.source x) u) ∧
      (∀ x, f.kind = .status → getStatus f.payload = some x →
        exec (.frameReceived p l) s = exec (.status p f.dest f.source x) u) ∧
      (∀ x, f.kind = .stop → getStop f.payload = some x →
        exec (.frameReceived p l) s = exec (.panelStop ⟨p, f.source⟩ x) u) ∧
      (f.dest.toNat = s.part.own →
        (∀ x, f.kind = .setpoint → getSetpoint f.payload = some x →
          exec (.frameReceived p l) s = exec (.setpoint ⟨p, f.source⟩ x) u) ∧
        (∀ x, f.kind = .group → getGroup f.payload = some x →
          exec (.frameReceived p l) s = exec (.group ⟨p, f.source⟩ x) u) ∧
        (∀ code tag body, f.kind = .manage → f.payload = code :: tag :: body →
          exec (.frameReceived p l) s = exec (.unknownRequest ⟨p, f.source, tag⟩ code body) u ∧
          ∀ r, (Request.row ⟨p, f.source, tag⟩ r).WF → code.toNat = requestCode r → body = encodeRequest r →
            exec (.frameReceived p l) s = exec (Request.row ⟨p, f.source, tag⟩ r) u)))

/-- The node table judges the source of a frame at an UP port in test mode NONE (R52, R53), for every row that carries one and for
every frame received. A source STATIC or BOUND at another port, or one to be learned at a port with NODE LOCK that holds a BOUND
entry, is a CONFLICT: counted, its entry's conflict-report field names the port, and no unit sees the frame; a NODE CONFLICT notice
goes out unless the field named the port already. Any other source that is EMPTY or LEARNED is LEARNED at the port with age 0, or
BOUND there under NODE LOCK, and the frame is then handled as from a known node; one that was LEARNED at another port makes a NODE
MOVED notice. Which BOUND node the notice of a lock conflict names is log 17; where a row starts is log 3. -/
def Obligations.NodeTableJudgesSources : Prop :=
  (∀ (s : State) (p : Fin 12) (source : Byte) (c : Instr) (n : Nat) (e : NodeEntry), s.phase = .running →
    (s.port p).link = .up → (s.port p).mode = .none → n = source.toNat → e = s.node n →
    Instr.Asks p source c ∨ (Instr.Reports p source c ∧ s.HasBlock p) →
    (∀ m, ((e.binding = .bound m ∨ e.binding = .static m) ∧ m ≠ p.val) ∨
        ((e.binding = .empty ∨ ∃ q k, e.binding = .learned q k) ∧ (s.port p).record.nodeLock = true ∧
          1 ≤ m ∧ m ≤ 254 ∧ (s.node m).binding = .bound p ∧ ∀ j, 1 ≤ j → j < m → (s.node j).binding ≠ .bound p) →
      ∃ t v, exec c s = .next t ∧
        v = (s.modPort p fun P =>
          { P with burst := none, counters := { P.counters with conflict := bump P.counters.conflict } }).setNode n
            { e with conflict := some p.val } ∧
        QuietFrame v t ∧ (e.conflict = some p.val → t = v) ∧
        (e.conflict ≠ some p.val → ∀ q, s.CanNotify q → s.Notified t q .nodeConflict n (put8 p ++ put8 m))) ∧
    (∀ b : Binding, ((s.port p).record.nodeLock = false ∧ b = .learned p 0) ∨
        ((s.port p).record.nodeLock = true ∧ b = .bound p ∧
          ∀ m, 1 ≤ m → m ≤ 254 → (s.node m).binding ≠ .bound p) →
      (e.binding = .empty ∨ (∃ k, e.binding = .learned p k) → exec c s = exec c (s.setNode n { e with binding := b })) ∧
      (∀ q k, e.binding = .learned q k → q ≠ p.val →
        ∃ u, QuietFrame (s.setNode n { e with binding := b }) u ∧ exec c s = exec c u ∧
          ∀ j, s.CanNotify j → s.Notified u j .nodeMoved n (put8 q ++ put8 p)))) ∧
  (∀ (s : State) (p : Fin 12) (l : List Symbol) (f : Frame) (n : Nat) (e : NodeEntry), s.phase = .running →
    (s.port p).link = .up → (s.port p).mode = .none → s.HasBlocks p → judge s.part.own l = .valid f →
    f.kind ≠ .pattern → n = f.source.toNat → e = s.node n →
    (∀ m, (e.binding = .bound m ∨ e.binding = .static m) → m ≠ p.val →
      ∃ t, exec (.frameReceived p l) s = .next t ∧
        EventFrame ((s.modPort p fun P =>
          { P.afterValid with counters := { P.afterValid.counters with conflict := bump P.counters.conflict } }).setNode n
            { e with conflict := some p.val }) t) ∧
    (f.kind ≠ .manage → ∃ t, exec (.frameReceived p l) s = .next t ∧
      (e.binding = .static p ∨ e.binding = .bound p → t.node n = e) ∧
      (e.binding = .empty ∨ (∃ q k, e.binding = .learned q k) → (s.port p).record.nodeLock = false →
        t.node n = { e with binding := .learned p 0 }) ∧
      (e.binding = .empty ∨ (∃ q k, e.binding = .learned q k) → (s.port p).record.nodeLock = true →
        (∀ m, 1 ≤ m → m ≤ 254 → (s.node m).binding ≠ .bound p) → t.node n = { e with binding := .bound p })))

/-- The treatment of a valid frame received from a known node at an UP port in test mode NONE (R58, R59, R60), where no entry
refers to the SILENT condition of its port. To the LINE ports go a REPLY or NOTICE with destination 255 and a STATUS that no stand
unit takes: one copy to each one that counts as UP, other than the arrival port, dropped as QUEUE_FULL where the queue is full. By
the node table goes a REPLY, a NOTICE, or a MANAGE at a LINE port, for another node: NO_ROUTE when its entry is EMPTY or names a
port that does not count as UP, nothing when it names the arrival port, else one copy to its port. A MANAGE with destination 255 at a
LINE port is NO_ROUTE. A GAP, a frame for the part at a port of another role, and a SETPOINT or GROUP for another node are ROLE. -/
def Obligations.FrameCopiesFollowKindAndDestination : Prop :=
  ∀ (s v : State) (p : Fin 12) (l : List Symbol) (f : Frame), s.Takes p f.source → s.HasBlocks p → s.net.Sound →
    s.refs ⟨.silent, p⟩ = [] → judge s.part.own l = .valid f → v = s.modPort p Port.afterValid →
    ∃ t, exec (.frameReceived p l) s = .next t ∧
      (((f.kind = .reply ∨ f.kind = .notice) ∧ f.dest = 255#8) ∨
          (f.kind = .status ∧ ((s.port p).record.role = .stand → s.standOf p f.source = none)) →
        QuietFrame v t ∧ v.Copied t p f ∧
        (∀ q, q < 12 → q ≠ p → (s.port q).record.role = .line → (s.port q).forwards = true → 64 ≤ (s.port q).queue.length →
          t.port q = { s.port q with counters := { (s.port q).counters with
            queueFull := bump (s.port q).counters.queueFull } }) ∧
        ∀ q, q = p.val ∨ (s.port q).record.role ≠ .line ∨ (s.port q).forwards = false → t.port q = v.port q) ∧
      (((f.kind = .reply ∨ f.kind = .notice) ∧ f.dest ≠ 255#8) ∨
          (f.kind = .manage ∧ (s.port p).record.role = .line ∧ f.dest ≠ 255#8 ∧ f.dest.toNat ≠ s.part.own) →
        (∀ q, (s.node f.dest.toNat).binding = .bound q ∨ (s.node f.dest.toNat).binding = .static q ∨
            (∃ k, (s.node f.dest.toNat).binding = .learned q k) →
          (q = p.val → QuietFrame v t ∧ ∀ j, t.port j = v.port j) ∧
          (q ≠ p.val → q < 12 → (s.port q).forwards = true → QuietFrame v t ∧ (∀ j, j ≠ q → t.port j = v.port j) ∧
            ((s.port q).queue.length < 64 → v.Queued t q f) ∧
            (64 ≤ (s.port q).queue.length → t.port q = { s.port q with counters := { (s.port q).counters with
              queueFull := bump (s.port q).counters.queueFull } })) ∧
          (q ≠ p.val → (s.port q).forwards = false → QuietFrame (v.modPort p fun P =>
            { P with counters := { P.counters with noRoute := bump P.counters.noRoute } }) t)) ∧
        ((s.node f.dest.toNat).binding = .empty → QuietFrame (v.modPort p fun P =>
          { P with counters := { P.counters with noRoute := bump P.counters.noRoute } }) t)) ∧
      (f.kind = .manage → (s.port p).record.role = .line → f.dest = 255#8 → s.part.own ≠ 255 → t = v.modPort p fun P =>
        { P with counters := { P.counters with noRoute := bump P.counters.noRoute } }) ∧
      (f.kind = .gap ∨ (f.kind = .sample ∧ (s.port p).record.role ≠ .sensor) ∨
          (f.kind = .stop ∧ (s.port p).record.role ≠ .panel) ∨ (f.kind = .manage ∧ (s.port p).record.role ≠ .line) ∨
          ((f.kind = .setpoint ∨ f.kind = .group) ∧ ((s.port p).record.role ≠ .line ∨ f.dest.toNat ≠ s.part.own)) →
        t = v.modPort p fun P => { P with counters := { P.counters with role := bump P.counters.role } })

/-- A frame at a port whose role its kind does not suit is discarded as ROLE (R57, R58), whatever it asks: a SETPOINT, a GROUP
or a request at a port that is no LINE port, a panel's STOP at one that is no PANEL port, a SAMPLE at one that is no SENSOR
port. A row that carries a frame has no effect at a port that passes none inward, one that is not UP or in a test mode (R21,
R31), nor in a part that does not run. Where the row starts is log 3. -/
def Obligations.WrongRoleDiscards : Prop :=
  (∀ (s : State) (p : Fin 12) (source : Byte), s.Takes p source →
    ∃ t, t = (s.modPort p fun P => { P with burst := none, counters := { P.counters with role := bump P.counters.role } }) ∧
      ((s.port p).record.role ≠ .line →
        (∀ f, exec (.setpoint ⟨p, source⟩ f) s = .next t) ∧ (∀ f, exec (.group ⟨p, source⟩ f) s = .next t) ∧
        (∀ (tag k : Byte) (l : List Byte), exec (.unknownRequest ⟨p, source, tag⟩ k l) s = .next t) ∧
        (∀ (a : Arrival) (r : Request), a.port = p → a.source = source → exec (Request.row a r) s = .next t)) ∧
      ((s.port p).record.role ≠ .panel → ∀ f, exec (.panelStop ⟨p, source⟩ f) s = .next t) ∧
      ((s.port p).record.role ≠ .sensor → s.HasBlock p → ∀ dest f, exec (.sample p dest source f) s = .next t)) ∧
  (∀ (s : State) (p : Fin 12) (source : Byte) (c : Instr), Instr.Asks p source c ∨ Instr.Reports p source c →
    s.phase ≠ .running ∨ (s.port p).link ≠ .up ∨ (s.port p).mode ≠ .none → exec c s = .next s)

/-- The node table is aged (R54): every conflict-report field is cleared; with an aging time of 0 no binding changes; else a
LEARNED entry's age increases by one and one then at least the aging time becomes EMPTY, and no other entry changes. BIND NODE,
UNBIND NODE and the part-wide LOAD PORT (R51, R55, R56): a node that is not STATIC becomes BOUND at the port named, its conflict
report cleared, or EMPTY; a STATIC one is refused STATE. The part-wide load makes every listed node STATIC at its listed port,
empties entries that were STATIC and are no longer listed and the entry of a new own number, keeps every other entry, and marks
the section modified (R175). Where the row starts is log 3. -/
def Obligations.NodeTableAgesBindsAndReleases : Prop :=
  (∀ s : State, ∃ t, exec .nodeTableAging s = .next t ∧ t = { s with nodes := t.nodes } ∧
    ∀ n, (t.node n).conflict = none ∧
      (∀ p k, (s.node n).binding = .learned p k → (t.node n).binding =
        if s.part.aging = 0 then .learned p k else if s.part.aging ≤ k + 1 then .empty else .learned p (k + 1)) ∧
      ((∀ p k, (s.node n).binding ≠ .learned p k) → (t.node n).binding = (s.node n).binding)) ∧
  (∀ (s : State) (a : Arrival), s.CanReply a →
    (∀ n p, 1 ≤ n → n ≤ 254 → n ≠ s.part.own → p < 12 →
      ∃ t u, exec (.bindNode a n p) s = .next t ∧ exec (.unbindNode a n) s = .next u ∧
        ((∃ q, (s.node n).binding = .static q) → QuietFrame (s.taken a.port) t ∧ QuietFrame (s.taken a.port) u ∧
          s.Replied t a 0x26 (.refused .state []) ∧ s.Replied u a 0x27 (.refused .state [])) ∧
        ((∀ q, (s.node n).binding ≠ .static q) → QuietFrame ((s.taken a.port).setNode n ⟨.bound p, none⟩) t ∧
          QuietFrame ((s.taken a.port).setNode n ⟨.empty, (s.node n).conflict⟩) u ∧
          s.Replied t a 0x26 (.done []) ∧ s.Replied u a 0x27 (.done []))) ∧
    (∀ r, PartWide.inRange r = true → s.keepsStands r = true →
      ∃ t, exec (.loadPortPartWide a r) s = .next t ∧
        QuietFrame ({ s.taken a.port with part := r, nodes := t.nodes }.setModified secPorts) t ∧
        ∀ n, n < 256 → (t.node n).conflict = (s.node n).conflict ∧
          (∀ p, (n, p) ∈ r.bindings → (t.node n).binding = .static p) ∧
          ((∀ p, (n, p) ∉ r.bindings) → (t.node n).binding =
            match (s.node n).binding with
            | .static _ => .empty
            | b => if n = r.own ∧ r.own ≠ s.part.own then .empty else b)))

/-! ### Gauge channels (chapter 4) -/

/-- Calibration (R66): the calibrated value lies within the engineering range; a raw value on a breakpoint gives that
breakpoint's engineering value through the table, unclamped; one between two neighbouring breakpoints gives the integer
nearest to the exact interpolation, a half rounded away from zero; one outside the table gives the end breakpoint's value, marked
clamped; the range then clamps the value; and the clamped mark is exactly that a clamp acted. -/
def Obligations.CalibrationFollowsTheTable : Prop :=
  (∀ (r : ChannelRecord) (raw : Int), r.engMin ≤ r.engMax →
    r.engMin ≤ (ChannelRecord.calibrate r raw).1 ∧ (ChannelRecord.calibrate r raw).1 ≤ r.engMax ∧
    (ChannelRecord.calibrate r raw).1 = max r.engMin (min r.engMax (throughTable r.table raw).1) ∧
    ((ChannelRecord.calibrate r raw).2 = false ↔
      (throughTable r.table raw).2 = false ∧ (ChannelRecord.calibrate r raw).1 = (throughTable r.table raw).1)) ∧
  (∀ (a : Int × Int) (l : List (Int × Int)) (raw : Int), risingRaw (a :: l) = true →
    (∀ e, (raw, e) ∈ a :: l → throughTable (a :: l) raw = (e, false)) ∧
    (raw < a.1 → throughTable (a :: l) raw = (a.2, true)) ∧
    (∀ z, (a :: l).getLast? = some z → z.1 < raw → throughTable (a :: l) raw = (z.2, true)) ∧
    (∀ x y pre post, a :: l = pre ++ x :: y :: post → x.1 < raw → raw < y.1 →
      ∃ v, throughTable (a :: l) raw = (v, false) ∧
        2 * |v * (y.1 - x.1) - (x.2 * (y.1 - x.1) + (raw - x.1) * (y.2 - x.2))| ≤ y.1 - x.1 ∧
        (2 * |v * (y.1 - x.1) - (x.2 * (y.1 - x.1) + (raw - x.1) * (y.2 - x.2))| = y.1 - x.1 →
          |x.2 * (y.1 - x.1) + (raw - x.1) * (y.2 - x.2)| ≤ |v * (y.1 - x.1)|)))

/-- A sample that its channel accepts, of type THICKNESS or TENSION (R65, R67, R68, R78): within the step limit of the held
value in VALID or SUSPECT, or in range in WAITING or STALE. The channel takes the value and is VALID with its runs at zero
and its stale timer restarted, HIGH and LOW are judged, and the port counts one more offered sample (R28). Nothing else
changes but by the conditions taken as events. When no entry refers to a condition of the channel, the sample goes on to
every UP LINE port whose queue has room with the value and the quality written into it (R59, R72). Where the row starts is
log 3; what a channel holds as last calibrated is log 27. -/
def Obligations.AcceptedSampleUpdatesItsChannel : Prop :=
  ∀ (s : State) (p : Fin 12) (dest source : Byte) (f : SampleFields) (c : Nat) (v : Int) (clamped : Bool),
    s.Takes p source → (s.port p).record.role = .sensor → s.HasBlock p →
    ((s.port p).limiting = true ∧ (s.port p).stormCount < (s.port p).record.falling) ∨
      ((s.port p).limiting = false ∧ (s.port p).stormCount < (s.port p).record.rising) →
    s.matching source f.point = some c →
    (s.channel c).record.type = .thickness ∨ (s.channel c).record.type = .tension →
    ChannelRecord.calibrate (s.channel c).record f.raw = (v, clamped) →
    (((s.channel c).state = .valid ∨ (s.channel c).state = .suspect) ∧ |v - (s.channel c).value| ≤ (s.channel c).record.stepLimit) ∨
      (((s.channel c).state = .waiting ∨ (s.channel c).state = .stale) ∧ clamped = false) →
    ∃ b t, b = ((s.modPort p fun P => { P with burst := none, stormCount := P.stormCount + 1 }).modChannel c fun C =>
        { C with value := v, state := .valid, valueAccepted := true, rejectCount := 0, recoveryRun := 0,
                 staleTimer := some C.record.staleTime, lastCalibrated := some (v, 0#32),
                 high := C.record.high.any fun h => decide (h < v), low := C.record.low.any fun l => decide (v < l),
                 matched := bump C.matched, accepted := bump C.accepted }) ∧
      exec (.sample p dest source f) s = .next t ∧ EventFrame b t ∧
      ((∀ k, s.refs ⟨k, c⟩ = []) → QuietFrame b t ∧ b.Copied t p ⟨dest, source, .sample,
        putSample { f with eng := v, quality := if clamped then .clamped else .good }⟩)

/-- A sample that its port or its channel turns away (R28, R29, R57, R67, R68, R69, R72, R73). One beyond the storm limit is
discarded as STORM at its port, which is LIMITING, and no channel sees it. One of type THICKNESS or TENSION outside the step limit
in VALID or SUSPECT, or out of range in WAITING or STALE, is rejected: the value is held, the counts go up, and VALID becomes
SUSPECT, or the channel FAILED with its stale timer stopped when the reject count reaches the reject limit; the frame goes on with
the held value, but under MUTE the sample that takes the channel to FAILED is muted. A sample that matches no channel goes on as it
arrived. Nothing else changes but by the conditions taken as events. Where the row starts is log 3; what a channel holds as last
calibrated is log 27. -/
def Obligations.SamplesTurnedAwayKeepTheValue : Prop :=
  ∀ (s : State) (p : Fin 12) (dest source : Byte) (f : SampleFields), s.Takes p source →
    (s.port p).record.role = .sensor → s.HasBlock p →
    (((s.port p).limiting = true ∧ (s.port p).record.falling ≤ (s.port p).stormCount) ∨
        ((s.port p).limiting = false ∧ (s.port p).record.rising ≤ (s.port p).stormCount) →
      ∃ t, exec (.sample p dest source f) s = .next t ∧
        EventFrame (s.modPort p fun P =>
          { P with burst := none, stormCount := P.stormCount + 1, limiting := true,
                   counters := { P.counters with storm := bump P.counters.storm } }) t) ∧
    (((s.port p).limiting = true ∧ (s.port p).stormCount < (s.port p).record.falling) ∨
        ((s.port p).limiting = false ∧ (s.port p).stormCount < (s.port p).record.rising) →
      ∃ v, v = (s.modPort p fun P => { P with burst := none, stormCount := P.stormCount + 1 }) ∧
        (s.matching source f.point = none → ∃ t, exec (.sample p dest source f) s = .next t ∧ QuietFrame v t ∧
          v.Copied t p ⟨dest, source, .sample, putSample f⟩) ∧
        (∀ c C x clamped, s.matching source f.point = some c → C = s.channel c →
          C.record.type = .thickness ∨ C.record.type = .tension →
          ChannelRecord.calibrate C.record f.raw = (x, clamped) →
          ((C.state = .valid ∨ C.state = .suspect) ∧ (C.record.stepLimit : Int) < |x - C.value|) ∨
            ((C.state = .waiting ∨ C.state = .stale) ∧ clamped = true) →
          ∃ (t : State) (failed : Bool) (b : State), failed = decide (C.record.rejectLimit ≤ C.rejectCount + 1) ∧
            b = (v.modChannel c fun C =>
              { C with rejectCount := C.rejectCount + 1, lastCalibrated := some (x, 0#32),
                       matched := bump C.matched, rejected := bump C.rejected,
                       state := if failed then .failed else if C.state = .valid then .suspect else C.state,
                       staleTimer := if failed then none else C.staleTimer,
                       recoveryRun := if failed then 0 else C.recoveryRun,
                       muted := if failed = true ∧ C.record.treatment = .mute then bump C.muted else C.muted }) ∧
            exec (.sample p dest source f) s = .next t ∧ EventFrame b t ∧
            ((∀ k, s.refs ⟨k, c⟩ = []) → QuietFrame b t ∧
              (failed = false ∨ C.record.treatment = .hold → b.Copied t p ⟨dest, source, .sample,
                putSample { f with eng := C.value, quality := if failed then .failed else .suspect }⟩) ∧
              (failed = true → C.record.treatment = .mute → s.net.Sound →
                (∀ q, t.port q = b.port q) ∧ t.net.frames = b.net.frames))))

/-- A sample is judged and handed on by its channel's type and state (R65 to R70, R73 to R76). An accepted SPEED sample hands on the
advance of its length count from the length reference, which it sets; a FORCE sample hands on its outcome, with its value when it is
accepted; a MARKER hands on HEAD, TAIL or WELD, and another code is rejected. A FAILED channel recovers at the third sample in a row
that is in range and within the step limits of the one before, which is accepted without an advance; at a MARKER the third valid code
in a row is accepted, one before it is not handed on, and another code ends the run. What the spans and stands make of it is stated
below. Where the row starts is log 3; what a channel holds as last calibrated is log 27. -/
def Obligations.SamplesAreHandedOnByType : Prop :=
  (∀ (s : State) (p : Fin 12) (dest source : Byte) (f : SampleFields) (c : Nat) (C : Channel) (v : Int) (clamped : Bool)
      (A : Channel → Channel),
    s.Takes p source → (s.port p).record.role = .sensor → s.HasBlock p → (s.port p).admits = true →
    s.matching source f.point = some c → C = s.channel c → ChannelRecord.calibrate C.record f.raw = (v, clamped) →
    A = (fun K => { K with
      value := v, state := .valid, valueAccepted := true, rejectCount := 0, recoveryRun := 0,
      staleTimer := some K.record.staleTime, matched := bump K.matched, accepted := bump K.accepted,
      high := K.record.high.any fun h => decide (h < v), low := K.record.low.any fun l => decide (v < l) }) →
    -- SPEED, accepted
    (C.record.type = .speed →
      (C.state = .valid ∨ C.state = .suspect → |v - C.value| ≤ C.record.stepLimit →
        (∀ r, C.lengthRef = some r → (f.lengthCount - r).toNat ≤ C.record.lengthLimit →
          s.SampleGives p dest source f c
            { A C with lengthRef := some f.lengthCount, lastCalibrated := some (v, f.lengthCount) }
            fun u => u.advance c (f.lengthCount - r).toNat) ∧
        (C.lengthRef = none → s.SampleGives p dest source f c
          { A C with lengthRef := some f.lengthCount, lastCalibrated := some (v, f.lengthCount) } id)) ∧
      (C.state = .waiting ∨ C.state = .stale → clamped = false → s.SampleGives p dest source f c
        { A C with lengthRef := some f.lengthCount, lastCalibrated := some (v, f.lengthCount) } id)) ∧
    -- FORCE, accepted
    (C.record.type = .force →
      ((C.state = .valid ∨ C.state = .suspect) ∧ |v - C.value| ≤ C.record.stepLimit) ∨
        ((C.state = .waiting ∨ C.state = .stale) ∧ clamped = false) →
      s.SampleGives p dest source f c { A C with lastCalibrated := some (v, 0#32) } fun u => u.forceOutcomes c (some v)) ∧
    -- SPEED and FORCE, rejected
    (C.record.type = .speed ∨ C.record.type = .force →
      ((C.state = .valid ∨ C.state = .suspect) ∧ ((C.record.stepLimit : Int) < |v - C.value| ∨
        (C.record.type = .speed ∧ ∃ r, C.lengthRef = some r ∧ C.record.lengthLimit < (f.lengthCount - r).toNat))) ∨
        ((C.state = .waiting ∨ C.state = .stale) ∧ clamped = true) →
      ∃ failed : Bool, failed = decide (C.record.rejectLimit ≤ C.rejectCount + 1) ∧
        s.SampleGives p dest source f c
          { C with rejectCount := C.rejectCount + 1, matched := bump C.matched, rejected := bump C.rejected,
                   lastCalibrated := some (v, if C.record.type = .speed then f.lengthCount else 0#32),
                   state := if failed then .failed else if C.state = .valid then .suspect else C.state,
                   staleTimer := if failed then none else C.staleTimer,
                   recoveryRun := if failed then 0 else C.recoveryRun }
          fun u => if C.record.type = .force then u.forceOutcomes c none else u) ∧
    -- MARKER
    (C.record.type = .marker → ∀ m, (m = .head ∧ f.raw = 1) ∨ (m = .tail ∧ f.raw = 2) ∨ (m = .weld ∧ f.raw = 3) →
      C.state = .valid ∨ C.state = .waiting ∨ C.state = .suspect ∨ C.state = .stale ∨
        (C.state = .failed ∧ C.recoveryRun = 2) →
      s.SampleGives p dest source f c
        { C with value := f.raw, state := .valid, valueAccepted := true, rejectCount := 0, recoveryRun := 0, staleTimer := none,
                 matched := bump C.matched, accepted := bump C.accepted,
                 high := C.record.high.any fun h => decide (h < f.raw),
                 low := C.record.low.any fun l => decide (f.raw < l) }
        fun u => u.mark c m) ∧
    -- MARKER, another code
    (C.record.type = .marker → f.raw < 1 ∨ 3 < f.raw →
      (C.state = .valid ∨ C.state = .waiting ∨ C.state = .suspect ∨ C.state = .stale →
        ∃ failed : Bool, failed = decide (C.record.rejectLimit ≤ C.rejectCount + 1) ∧
          s.SampleGives p dest source f c
            { C with rejectCount := C.rejectCount + 1, matched := bump C.matched, rejected := bump C.rejected,
                     state := if failed then .failed else if C.state = .valid then .suspect else C.state,
                     staleTimer := if failed then none else C.staleTimer,
                     recoveryRun := if failed then 0 else C.recoveryRun } id) ∧
      (C.state = .failed → s.SampleGives p dest source f c { C with matched := bump C.matched, recoveryRun := 0 } id)) ∧
    -- MARKER, a valid code that does not complete the recovery run
    (C.record.type = .marker → 1 ≤ f.raw → f.raw ≤ 3 → C.state = .failed → C.recoveryRun ≠ 2 →
      s.SampleGives p dest source f c { C with matched := bump C.matched, recoveryRun := C.recoveryRun + 1 } id) ∧
    -- the recovery of a FAILED channel
    (C.state = .failed → C.record.type ≠ .marker → ∀ run : Nat,
      run = (if clamped = true then 0 else if C.recoveryRun = 0 then 1 else
        match C.lastCalibrated with
        | none => 1
        | some (x, n) => if |v - x| ≤ C.record.stepLimit ∧
            (C.record.type = .speed → (f.lengthCount - n).toNat ≤ C.record.lengthLimit) then C.recoveryRun + 1 else 1) →
      (run ≠ 3 → s.SampleGives p dest source f c
        { C with matched := bump C.matched, recoveryRun := run,
                 lastCalibrated := some (v, if C.record.type = .speed then f.lengthCount else 0#32) }
        fun u => if C.record.type = .force then u.forceOutcomes c none else u) ∧
      (run = 3 → s.SampleGives p dest source f c
        { A C with lengthRef := if C.record.type = .speed then some f.lengthCount else C.lengthRef,
                   lastCalibrated := some (v, if C.record.type = .speed then f.lengthCount else 0#32) }
        fun u => if C.record.type = .force then u.forceOutcomes c (some v) else u))) ∧
  -- the outcome reaches the stands that name the channel
  (∀ (s : State) (c : Nat) (v : Option Int),
    ((∀ n, 1 ≤ n → n ≤ 8 → (s.stand n).record.configured = true → (s.stand n).record.force ≠ c) → s.forceOutcomes c v = s) ∧
    ∀ n, 1 ≤ n → n ≤ 8 → (s.stand n).record.configured = true → (s.stand n).record.force = c →
      (∀ m, 1 ≤ m → m ≤ 8 → m ≠ n → (s.stand m).record.configured = true → (s.stand m).record.force ≠ c) →
      s.forceOutcomes c v = s.forceOutcome n v)

/-- A LOAD CHANNEL that is not refused (R79, R80): one that keeps the channel's enabled field, source node, point and type
keeps its state, clamping the value into the new range and restarting a running stale timer whose time changes; any other
puts the channel at WAITING or OFF with that state's contents. The section is modified (R175). Where the row starts is log 3. The
stale timer's expiry takes the channel to STALE with its value kept, and nothing else changes but by the condition taken as an
event (R71, R77); a stopped timer does not expire. That the expiry comes as a command is log 5; that a channel with no value
accepted keeps its value too is log 35. -/
def Obligations.ChannelsAreLoadedAndGoStale : Prop :=
  (∀ (s : State) (a : Arrival) (c : Nat) (r : ChannelRecord), s.Hears a → c < 32 →
    ChannelRecord.inRange s.part.own r = true → s.channelFree c r = true →
    (ChannelRecord.sameIdentity (s.channel c).record r = true →
      ∃ t, exec (.loadChannel a c r) s = .next t ∧
        EventFrame (((s.taken a.port).modChannel c fun C =>
          { C with record := r, value := max r.engMin (min r.engMax C.value),
                   staleTimer := if C.record.staleTime = r.staleTime then C.staleTimer else C.staleTimer.map fun _ => r.staleTime,
                   high := C.valueAccepted && r.high.any fun h => decide (h < max r.engMin (min r.engMax C.value)),
                   low := C.valueAccepted && r.low.any fun l => decide (max r.engMin (min r.engMax C.value) < l) }).setModified
            secChannels) t) ∧
    (ChannelRecord.sameIdentity (s.channel c).record r = false → s.channelBusy c = false →
      ∃ t, exec (.loadChannel a c r) s = .next t ∧
        EventFrame (((s.taken a.port).modChannel c fun _ =>
          { record := r, state := if r.enabled then .waiting else .off, value := r.engMin, valueAccepted := false,
            rejectCount := 0, recoveryRun := 0, lastCalibrated := none, lengthRef := none, staleTimer := none,
            high := false, low := false, matched := 0, accepted := 0, rejected := 0, muted := 0 }).setModified
            secChannels) t)) ∧
  (∀ (s : State) (c : Fin 32),
    ((s.channel c).staleTimer = none → exec (.staleTimerExpiry c) s = .next s) ∧
    ((s.channel c).staleTimer.isSome → ∃ t, exec (.staleTimerExpiry c) s = .next t ∧
      EventFrame (s.modChannel c fun C => { C with state := .stale, staleTimer := none }) t))

/-! ### Spans (chapter 5) -/

/-- No span's queue ever exceeds its capacity (R91): it holds at reset, and every step keeps it, that every span has a record
that R82 admits and no more segments than its capacity. That a disabled span's record is held to the constraints of R82 too is
log 33; that the spans hold the built-in records at reset is log 6. -/
def Obligations.SpanQueuesStayWithinCapacity : Prop :=
  State.reset.Tracked ∧ ∀ (s t : State), s.Tracked → step s = .next t → t.Tracked

/-- A length advance reaches each span that names its channel (R74, R84, R88, R93, R94, R95): a side that is open adds it to its
accumulator and works one segment for each whole segment length in it, by pushes at the tail while the upstream end shows strip and
by pops at the head in RUNNING while the downstream stand is ROLLING; a side that is closed ignores it. A span with one channel for
both sides works them alternately, each push before the pop that follows it. -/
def Obligations.AdvancesMoveTheSpan : Prop :=
  ∀ (s : State) (c d i : Nat) (P : Span), i < 9 → P = s.span i → 0 < P.record.segment →
    P.pushAcc < P.record.segment → P.popAcc < P.record.segment → s.refs ⟨.trackLimit, i⟩ = [] →
    s.refs ⟨.scheduleMissing, P.record.downstream⟩ = [] →
    ∃ pushes pops : Bool,
      (pushes = true ↔ P.record.push = c ∧ P.record.enabled = true ∧ P.state ≠ .emptying ∧
        ((P.record.upstream = 0 ∧ (P.record.marker = none ∨ P.stripPresent = true)) ∨
          (P.record.upstream ≠ 0 ∧ (s.stand P.record.upstream).mode = .rolling))) ∧
      (pops = true ↔ P.record.pop = c ∧ P.record.enabled = true ∧
        ((P.record.downstream = 0 ∧ P.state = .emptying) ∨ (P.record.downstream ≠ 0 ∧
          (P.state = .running ∨ P.state = .emptying) ∧ (s.stand P.record.downstream).mode = .rolling))) ∧
      (pushes = false → pops = false → s.advanceSpan c d i = s) ∧
      (pushes = true → pops = false → s.advanceSpan c d i =
        (State.push i)^[(P.pushAcc + d) / P.record.segment] (s.modSpan i fun P => { P with pushAcc := P.pushAcc + d })) ∧
      (pops = true → pushes = false → P.state = .running → s.advanceSpan c d i =
        (State.pop i)^[(P.popAcc + d) / P.record.segment] (s.modSpan i fun P => { P with popAcc := P.popAcc + d })) ∧
      (pushes = true → pops = true → P.state = .running → P.pushAcc = P.popAcc → s.advanceSpan c d i =
        (fun s => (s.push i).pop i)^[(P.pushAcc + d) / P.record.segment]
          (s.modSpan i fun P => { P with pushAcc := P.pushAcc + d, popAcc := P.popAcc + d })) ∧
      ((∀ j, j < 9 → j ≠ i → (s.span j).record.push ≠ c ∧ (s.span j).record.pop ≠ c) → s.advance c d = s.advanceSpan c d i)

/-- A push without a gauge (R86, R88, R89, R91, R92, R97), where no entry refers to TRACK LIMIT: room is made at the head (an
overflow at capacity with a working downstream stand, a depth pop at D without one), and the new segment at the tail carries
the next number, the upstream stand's estimate and CURRENT pass id, and its weld hand-on, which it uses up; one from the mill
entry carries no estimate and no pass, and uses up the pending WELD. FILLING begins at the first push, RUNNING at depth D with a
ROLLING downstream stand; TRACK LIMIT is judged in RUNNING. One head segment at most leaves for one push (log 30). -/
def Obligations.PushAddsASegment : Prop :=
  ∀ (s : State) (i u : Nat), i < 9 → (s.span i).record.upstream = u → u ≤ 8 → (s.span i).record.gauge = none →
    SpanRecord.inRange (s.span i).record = true → s.refs ⟨.trackLimit, i⟩ = [] →
    ∃ (l : List Segment) (st : SpanState), s.push i = ((s.modSpan i fun P =>
        { P with
          pushAcc := P.pushAcc - P.record.segment, nextSegment := P.nextSegment + 1, state := st
          queue := l ++ [if u = 0 then { number := P.nextSegment, estimated := none, measured := none, pass := none,
                                         weld := P.weldPending }
            else { number := P.nextSegment, estimated := (s.stand u).estimate, measured := none,
                   pass := (s.stand u).current.map PassRecord.id, weld := (s.stand u).handOn }]
          weldPending := if u = 0 then false else P.weldPending
          popAcc := if st = .running ∧ P.state ≠ .running then 0 else P.popAcc
          trackLimit := if st = .running then decide (l.length + 1 ≤ 2 ∨ P.record.capacity ≤ l.length + 1 + 2) else P.trackLimit
          counters := { P.counters with
            pushes := bump P.counters.pushes
            overrun := if s.workingDownstream i = true ∧ P.record.capacity ≤ P.queue.length then bump P.counters.overrun
              else P.counters.overrun
            discarded := if s.workingDownstream i = false ∧ SpanRecord.depth P.record ≤ P.queue.length then
              bump P.counters.discarded else P.counters.discarded } }).modStand u fun S => { S with handOn := false }) ∧
      ((s.span i).state ≠ .idle → (s.span i).state ≠ .filling → st = (s.span i).state) ∧
      ((s.span i).state = .idle ∨ (s.span i).state = .filling →
        st = if (s.stand (s.span i).record.downstream).mode = .rolling ∧ (s.span i).record.downstream ≠ 0 ∧
          SpanRecord.depth (s.span i).record ≤ l.length + 1 then .running else .filling) ∧
      ((s.workingDownstream i = true ∧ (s.span i).queue.length < (s.span i).record.capacity) ∨
        (s.workingDownstream i = false ∧ (s.span i).queue.length < SpanRecord.depth (s.span i).record) →
        l = (s.span i).queue) ∧
      (∀ x y r, (s.span i).queue = x :: y :: r →
        (s.workingDownstream i = true ∧ (s.span i).record.capacity ≤ r.length + 2) ∨
          (s.workingDownstream i = false ∧ SpanRecord.depth (s.span i).record ≤ r.length + 2 ∧
            (s.span i).record.downstream ≠ 0) → l = { y with weld := y.weld || x.weld } :: r) ∧
      (∀ x r, (s.span i).queue = x :: r → (s.span i).record.downstream = 0 →
        SpanRecord.depth (s.span i).record ≤ r.length + 1 → l = r)

/-- The gauge of a span (R89, R90, R138), where no entry refers to TRACK LIMIT: a push with a gauge is the push without one, after
which the segment at the gauge index, counted from the tail, takes the channel's value as its measured thickness, if the channel
is enabled, of type THICKNESS, and VALID or SUSPECT, and the queue is that long. A filled segment that carries an estimate reports
to the upstream stand: its T moves by the difference through the monitor gain, held within the trim limit, unless the stand is OUT
or the segment was rolled on another pass. Nothing else changes. -/
def Obligations.GaugeFillsAndTrims : Prop :=
  ∀ (s w : State) (i u c d : Nat) (C : Channel), i < 9 → (s.span i).record.upstream = u →
    (s.span i).record.gauge = some (c, d) → s.refs ⟨.trackLimit, i⟩ = [] → C = s.channel c →
    w = ((s.modSpan i fun P => { P with record := { P.record with gauge := none } }).push i).modSpan i (fun P =>
      { P with record := (s.span i).record }) →
    ((C.record.enabled = false ∨ C.record.type ≠ .thickness ∨ (C.state ≠ .valid ∧ C.state ≠ .suspect)) ∨
        (w.span i).queue.length ≤ d / (s.span i).record.segment → s.push i = w) ∧
    (∀ pre x post, C.record.enabled = true → C.record.type = .thickness → C.state = .valid ∨ C.state = .suspect →
      (w.span i).queue = pre ++ x :: post → post.length = d / (s.span i).record.segment →
      ∃ v, v = (w.modSpan i fun P => { P with queue := pre ++ { x with measured := some C.value } :: post }) ∧
        (x.estimated = none ∨ u = 0 ∨ (s.stand u).mode = .out ∨ (s.stand u).current = none ∨
          (s.stand u).current.map PassRecord.id ≠ x.pass → s.push i = v) ∧
        (∀ e k, x.estimated = some e → u ≠ 0 → (s.stand u).mode ≠ .out → (s.stand u).current = some k → x.pass = some k.id →
          s.push i = v.modStand u fun S => { S with
            trim := max (-(k.trimLimit : Int)) (min k.trimLimit
              (S.trim + roundDiv (k.kMon * max (-100000) (min 100000 (C.value - e))) 1024)) }))

/-- The markers of the mill entry span (R75, R86, R97 to R100), where no entry refers to its TRACK LIMIT: HEAD sets the
strip-present flag and the push accumulator to 0; WELD sets the pending WELD; TAIL clears the flag and the accumulator, and, if
strip was present, takes the span from FILLING or RUNNING to EMPTYING, or on to IDLE when it is empty and its downstream stand is
not ROLLING. A marker of a channel that the mill entry span does not name, or without such a span, has no effect. -/
def Obligations.MarkersWorkTheMillEntry : Prop :=
  ∀ (s : State) (c : Nat) (m : Marker),
    ((∀ i, s.millEntry = some i → (s.span i).record.marker ≠ some c) → s.mark c m = s) ∧
    ∀ i, i < 9 → (s.span i).record.enabled = true → (s.span i).record.upstream = 0 → (s.span i).record.marker = some c →
      (∀ j, j < i → (s.span j).record.enabled = true → (s.span j).record.upstream ≠ 0) → s.refs ⟨.trackLimit, i⟩ = [] →
      (m = .head → s.mark c m = s.modSpan i fun P => { P with stripPresent := true, pushAcc := 0 }) ∧
      (m = .weld → s.mark c m = s.modSpan i fun P => { P with weldPending := true }) ∧
      (m = .tail → (s.span i).stripPresent = false ∨ (s.span i).state = .idle ∨ (s.span i).state = .emptying →
        s.mark c m = s.modSpan i fun P => { P with stripPresent := false, pushAcc := 0 }) ∧
      (m = .tail → (s.span i).stripPresent = true → (s.span i).state = .filling ∨ (s.span i).state = .running →
        ((s.span i).queue ≠ [] → s.mark c m = s.modSpan i fun P =>
          { P with stripPresent := false, pushAcc := 0, state := .emptying,
                   popAcc := if P.state = .filling then 0 else P.popAcc, trackLimit := false }) ∧
        ((s.span i).queue = [] → (s.span i).record.downstream = 0 ∨ (s.stand (s.span i).record.downstream).mode ≠ .rolling →
          s.mark c m = s.modSpan i fun P =>
            { P with stripPresent := false, pushAcc := 0, state := .idle, popAcc := 0, trackLimit := false }))

/-- A pop in RUNNING (R93, R94, R97, R132, R133), where no entry refers to TRACK LIMIT: the head segment leaves the queue for the
downstream stand. Without a weld it sets the stand's feedforward under the CURRENT pass from its measured thickness, else its
estimated one, else to absent; an empty queue delivers no segment and counts an underflow. A weld (R101, R122, R123, R134), where
no entry refers to SCHEDULE MISSING, switches the stand to its NEXT pass: base at the new preset, C_fb and T zero, C_ff from the
segment under the new pass, STANDS modified (R175); without a NEXT pass it raises SCHEDULE MISSING and keeps the pass. The stand
hands the weld on. -/
def Obligations.PopDeliversTheHead : Prop :=
  (∀ (s : State) (i d : Nat), i < 9 → (s.span i).record.downstream = d → 1 ≤ d → d ≤ 8 → (s.span i).state = .running →
    s.refs ⟨.trackLimit, i⟩ = [] →
    (∀ g r p, (s.span i).queue = g :: r → g.weld = false → (s.stand d).current = some p →
      ∃ cff, s.pop i = ((s.modSpan i fun P =>
          { P with popAcc := P.popAcc - P.record.segment, queue := r,
                   trackLimit := decide (r.length ≤ 2 ∨ P.record.capacity ≤ r.length + 2),
                   counters := { P.counters with pops := bump P.counters.pops } }).modStand d fun S => { S with cff := cff }) ∧
        (∀ h, g.measured = some h ∨ (g.measured = none ∧ g.estimated = some h) →
          cff = some (roundDiv (-(max (-100000) (min 100000 (h - p.entryThickness))) * p.kFf) 1024)) ∧
        (g.measured = none → g.estimated = none → cff = none)) ∧
    ((s.span i).queue = [] →
      s.pop i = ((s.modSpan i fun P =>
          { P with popAcc := P.popAcc - P.record.segment, trackLimit := true,
                   counters := { P.counters with underrun := bump P.counters.underrun } }).modStand d fun S =>
            { S with cff := none }))) ∧
  (∀ (s : State) (i d : Nat) (g : Segment) (r : List Segment), i < 9 → (s.span i).record.downstream = d → 1 ≤ d → d ≤ 8 →
    (s.span i).state = .running → s.refs ⟨.trackLimit, i⟩ = [] → s.refs ⟨.scheduleMissing, d⟩ = [] →
    (s.span i).queue = g :: r → g.weld = true →
    ∃ v, v = (s.modSpan i fun P =>
        { P with popAcc := P.popAcc - P.record.segment, queue := r,
                 trackLimit := decide (r.length ≤ 2 ∨ P.record.capacity ≤ r.length + 2),
                 counters := { P.counters with pops := bump P.counters.pops } }) ∧
      (∀ p, (s.stand d).next = some p → QuietFrame ((v.modStand d fun S =>
        { S with current := some p, next := none, base := some p.preset, cfb := 0, trim := 0, handOn := true,
                 cff := (match g.measured with | some h => some h | none => g.estimated).map fun h =>
                   roundDiv (-(max (-100000) (min 100000 (h - p.entryThickness))) * p.kFf) 1024,
                 counters := { S.counters with switches := bump S.counters.switches } }).setModified secStands) (s.pop i)) ∧
      (∀ p, (s.stand d).next = none → (s.stand d).current = some p → QuietFrame (v.modStand d fun S =>
        { S with handOn := true, scheduleMissing := true,
                 cff := (match g.measured with | some h => some h | none => g.estimated).map fun h =>
                   roundDiv (-(max (-100000) (min 100000 (h - p.entryThickness))) * p.kFf) 1024,
                 counters := { S.counters with weldsWithoutNext := bump S.counters.weldsWithoutNext } }) (s.pop i)))

/-- A pop in EMPTYING (R86, R93, R96, R113, R132): at the mill exit the head segment is discarded; before a stand it is delivered,
and a segment without a weld sets the feedforward under the CURRENT pass. The last one takes the span to IDLE with both
accumulators at 0, after which a ROLLING downstream stand, where no entry refers to its FOLLOWING and it has no exit span, takes
the tail-out: READY, its estimate and runs cleared. -/
def Obligations.EmptyingSpanRunsOut : Prop :=
  ∀ (s : State) (i d : Nat) (g : Segment) (r : List Segment), i < 9 → (s.span i).record.downstream = d →
    (s.span i).state = .emptying → (s.span i).queue = g :: r →
    (d = 0 →
      (r ≠ [] → s.pop i = s.modSpan i fun P =>
        { P with popAcc := P.popAcc - P.record.segment, queue := r,
                 counters := { P.counters with discarded := bump P.counters.discarded } }) ∧
      (r = [] → s.pop i = s.modSpan i fun P =>
        { P with state := .idle, pushAcc := 0, popAcc := 0, queue := [],
                 counters := { P.counters with discarded := bump P.counters.discarded } })) ∧
    (∀ p, 1 ≤ d → d ≤ 8 → g.weld = false → (s.stand d).current = some p →
      ∃ cff, (∀ h, g.measured = some h ∨ (g.measured = none ∧ g.estimated = some h) →
          cff = some (roundDiv (-(max (-100000) (min 100000 (h - p.entryThickness))) * p.kFf) 1024)) ∧
        (g.measured = none → g.estimated = none → cff = none) ∧
        (r ≠ [] → s.pop i = ((s.modSpan i fun P =>
          { P with popAcc := P.popAcc - P.record.segment, queue := r,
                   counters := { P.counters with pops := bump P.counters.pops } }).modStand d fun S => { S with cff := cff })) ∧
        (r = [] → ∃ v, v = (s.modSpan i fun P =>
            { P with state := .idle, pushAcc := 0, popAcc := 0, queue := [],
                     counters := { P.counters with pops := bump P.counters.pops } }) ∧
          ((s.stand d).mode ≠ .rolling → s.pop i = v.modStand d fun S => { S with cff := cff }) ∧
          ((s.stand d).mode = .rolling → s.refs ⟨.following, d⟩ = [] → s.exitSpan d = none →
            QuietFrame (v.modStand d fun S =>
              { S with mode := .ready, cff := cff, estimate := none, biteOnRun := 0, biteOffRun := 0, followingRun := 0,
                       following := false, counters := { S.counters with biteOffs := bump S.counters.biteOffs } }) (s.pop i))))

/-- A LOAD SPAN that is not refused (R82, R83): the record takes effect and the running state is as at start-up, but a span
that is the mill entry before and after keeps its strip-present flag and its pending WELD; the section is modified (R175). A
FLUSH SPAN of an enabled span (R102): no segment is left, both accumulators are 0, the span is IDLE with TRACK LIMIT clear, a
pending WELD of the mill entry and the upstream stand's hand-on are cleared, and the flush and a lost weld are counted; a
ROLLING downstream stand of a span that was RUNNING or EMPTYING loses its feedforward. Where the row starts is log 3; which
records are refused is log 33. -/
def Obligations.LoadAndFlushRestartTheSpan : Prop :=
  (∀ (s : State) (a : Arrival) (i : Nat) (r : SpanRecord), s.Hears a → i < 9 → SpanRecord.inRange r = true →
    s.spanFits i r = true → (s.span i).state = .idle →
    (∀ n ∈ [(s.span i).record.upstream, (s.span i).record.downstream, r.upstream, r.downstream],
      n = 0 ∨ (s.stand n).mode = .out ∨ (s.stand n).mode = .ready) →
    ∃ t, exec (.loadSpan a i r) s = .next t ∧
      QuietFrame (((s.taken a.port).modSpan i fun P =>
        { record := r, state := .idle, queue := [], pushAcc := 0, popAcc := 0, nextSegment := 0#16,
          stripPresent := if P.record.upstream = 0 ∧ r.upstream = 0 then P.stripPresent else false,
          weldPending := if P.record.upstream = 0 ∧ r.upstream = 0 then P.weldPending else false,
          trackLimit := false, counters := {} }).setModified secStands) t) ∧
  (∀ (s : State) (a : Arrival) (i : Nat), s.Hears a → i < 9 → (s.span i).record.enabled = true →
    ∃ t, exec (.flushSpan a i) s = .next t ∧ EventFrame (s.taken a.port) t ∧
      (∃ lost : Bool, t.span i = { s.span i with
          state := .idle, queue := [], pushAcc := 0, popAcc := 0, trackLimit := false,
          weldPending := if (s.span i).record.upstream = 0 then false else (s.span i).weldPending,
          counters := { (s.span i).counters with
            flushes := bump (s.span i).counters.flushes
            weldsLost := if lost then bump (s.span i).counters.weldsLost else (s.span i).counters.weldsLost } } ∧
        (lost = true ↔ (∃ g ∈ (s.span i).queue, g.weld = true) ∨
          ((s.span i).record.upstream = 0 ∧ (s.span i).weldPending = true) ∨
          ((s.span i).record.upstream ≠ 0 ∧ (s.stand (s.span i).record.upstream).handOn = true))) ∧
      (∀ j, j ≠ i → t.span j = s.span j) ∧
      (∀ n, t.stand n = { s.stand n with
        handOn := if n ≠ 0 ∧ (s.span i).record.upstream = n then false else (s.stand n).handOn,
        cff := if n ≠ 0 ∧ (s.span i).record.downstream = n ∧ (s.stand n).mode = .rolling ∧
          ((s.span i).state = .running ∨ (s.span i).state = .emptying) then none else (s.stand n).cff }))

/-! ### Stands (chapters 6 and 7) -/

/-- The force outcomes of a stand (R76, R86, R87, R97, R112, R113), where no entry refers to its FOLLOWING or to its spans' TRACK
LIMIT: READY or MOVING bites on at the third outcome in a row at or above the bite-on force, a move being aborted; its entry span,
if FILLING, is then RUNNING. ROLLING bites off at the third below the bite-off force; its exit span, if FILLING or RUNNING, is then
EMPTYING, or IDLE when it holds nothing, which a ROLLING stand behind it takes as its tail-out. Any other outcome, one that was not
accepted among them, sets the run to 0. -/
def Obligations.ThreeForceOutcomesMoveTheStand : Prop :=
  ∀ (s : State) (n : Nat) (v : Option Int), 1 ≤ n → n ≤ 8 → s.refs ⟨.following, n⟩ = [] →
    ((s.stand n).mode = .ready ∨ (s.stand n).isMoving = true →
      ∃ k b, (k = if v.any fun x => decide (((s.stand n).record.biteOn : Int) ≤ x) then (s.stand n).biteOnRun + 1 else 0) ∧
        b = (s.modStand n fun S =>
          { S with mode := .rolling, cfb := 0, cff := none, estimate := none, biteOnRun := 0, biteOffRun := 0,
                   base := if S.isMoving then S.lastCommand else S.base,
                   counters := { S.counters with biteOns := bump S.counters.biteOns } }) ∧
        (k < 3 → s.forceOutcome n v = s.modStand n fun S => { S with biteOnRun := k }) ∧
        (3 ≤ k → (∀ i, s.entrySpan n = some i → (s.span i).state ≠ .filling) → QuietFrame b (s.forceOutcome n v)) ∧
        (∀ i, 3 ≤ k → s.entrySpan n = some i → (s.span i).state = .filling → s.refs ⟨.trackLimit, i⟩ = [] →
          QuietFrame (b.modSpan i fun P =>
            { P with state := .running, popAcc := 0,
                     trackLimit := decide (P.queue.length ≤ 2 ∨ P.record.capacity ≤ P.queue.length + 2) })
            (s.forceOutcome n v))) ∧
    ((s.stand n).mode = .rolling →
      ∃ k b, (k = if v.any fun x => decide (x < ((s.stand n).record.biteOff : Int)) then (s.stand n).biteOffRun + 1 else 0) ∧
        b = (s.modStand n fun S =>
          { S with mode := .ready, estimate := none, biteOnRun := 0, biteOffRun := 0, followingRun := 0, following := false,
                   counters := { S.counters with biteOffs := bump S.counters.biteOffs } }) ∧
        (k < 3 → s.forceOutcome n v = s.modStand n fun S => { S with biteOffRun := k }) ∧
        (3 ≤ k → (∀ i, s.exitSpan n = some i → (s.span i).state = .idle ∨ (s.span i).state = .emptying) →
          QuietFrame b (s.forceOutcome n v)) ∧
        (∀ i, 3 ≤ k → s.exitSpan n = some i → (s.span i).state = .filling ∨ (s.span i).state = .running →
          s.refs ⟨.trackLimit, i⟩ = [] →
          ((s.span i).queue ≠ [] → QuietFrame (b.modSpan i fun P =>
            { P with state := .emptying, popAcc := if P.state = .filling then 0 else P.popAcc, trackLimit := false })
            (s.forceOutcome n v)) ∧
          (∀ d, (s.span i).queue = [] → d = (s.span i).record.downstream → d ≠ n →
            ∃ w, w = (b.modSpan i fun P => { P with state := .idle, pushAcc := 0, popAcc := 0, trackLimit := false }) ∧
              (d = 0 ∨ (s.stand d).mode ≠ .rolling → QuietFrame w (s.forceOutcome n v)) ∧
              (1 ≤ d → d ≤ 8 → (s.stand d).mode = .rolling → s.refs ⟨.following, d⟩ = [] → s.exitSpan d = none →
                QuietFrame (w.modStand d fun S =>
                  { S with mode := .ready, estimate := none, biteOnRun := 0, biteOffRun := 0, followingRun := 0,
                           following := false, counters := { S.counters with biteOffs := bump S.counters.biteOffs } })
                  (s.forceOutcome n v))))) ∧
    ((s.stand n).mode = .out ∨ (s.stand n).isTripped = true → s.forceOutcome n v = s)

/-- A STATUS at a stand that is OUT changes nothing, and one at a TRIPPED stand is counted, gives the last actual gap and judges
DRIVE FAULT, but computes no command: the command slot, the last command and the GAP count stay (R114, R117). One at a READY stand
with a base (R48, R108, R114, R115, R117) puts one GAP command into the command slot of its port: the last command plus the
difference to the clamped base limited to the rate step, with RATE_LIMITED exactly when it was limited; it becomes the last
command. Where no entry refers to the stand's DRIVE FAULT, nothing else changes, and the frame then goes on to the LINE ports
(R58, R59). Where the row starts is log 3. -/
def Obligations.StatusByOutTrippedAndReadyStands : Prop :=
  (∀ (s b : State) (p : Fin 12) (dest source : Byte) (f : StatusFields) (n : Nat), s.Takes p source →
    (s.port p).record.role = .stand → s.HasBlock p → s.standOf p source = some n →
    b = s.modPort p (fun P => { P with burst := none }) →
    ((s.stand n).mode = .out → ∃ t, exec (.status p dest source f) s = .next t ∧ QuietFrame b t ∧
      b.Copied t p ⟨dest, source, .status, putStatus f⟩) ∧
    ((s.stand n).isTripped = true → ∃ v t, v = (b.modStand n fun S =>
        { S with lastActual := some f.actual, driveFault := decide (f.drive = .fault),
                 counters := { S.counters with status := bump S.counters.status } }) ∧
      exec (.status p dest source f) s = .next t ∧ EventFrame v t ∧
      (s.refs ⟨.driveFault, n⟩ = [] → QuietFrame v t ∧ v.Copied t p ⟨dest, source, .status, putStatus f⟩))) ∧
  (∀ (s : State) (p : Fin 12) (dest source : Byte) (f : StatusFields) (n : Nat) (b : Int) (x : PassRecord), s.Takes p source →
    (s.port p).record.role = .stand → s.HasBlock p → s.standOf p source = some n → (s.stand n).mode = .ready →
    (s.stand n).base = some b → (s.stand n).current = some x → (s.stand n).record.limLo ≤ (s.stand n).record.limHi →
    s.refs ⟨.driveFault, n⟩ = [] →
    ∃ (v t : State) (last target step : Int) (flags : Byte), exec (.status p dest source f) s = .next t ∧
      (∀ c, (s.stand n).lastCommand = some c → last = c) ∧
      ((s.stand n).lastCommand = none → last = max (s.stand n).record.limLo (min (s.stand n).record.limHi f.actual)) ∧
      target = max (s.stand n).record.limLo (min (s.stand n).record.limHi b) ∧
      step = max (-((s.stand n).record.rateStep : Int)) (min (s.stand n).record.rateStep (target - last)) ∧
      flags = (if |target - last| ≤ (s.stand n).record.rateStep then 0#8 else 4#8) ∧
      v = ((s.modPort p fun P =>
        { P with burst := none,
                 commandSlot := some ⟨last + step, x.id, flags, n, BitVec.ofNat 8 (s.stand n).record.node⟩ }).modStand n fun S =>
          { S with lastActual := some f.actual, driveFault := decide (f.drive = .fault), lastCommand := some (last + step),
                   counters := { S.counters with status := bump S.counters.status, gaps := bump S.counters.gaps } }) ∧
      QuietFrame v t ∧ v.Copied t p ⟨dest, source, .status, putStatus f⟩)

/-- A STATUS at a MOVING stand (R48, R114 to R118), where no entry refers to its DRIVE FAULT or FOLLOWING: the following check is
made, the in-position run is judged against the band, and the command ramps toward the target by at most the move step; the
third STATUS in a row within the band ends the move, the stand is READY with the target as its base, and the command of that
STATUS ramps at the rate step. Where the row starts is log 3. The move timer's expiry (R119) fails the move: the base is the last
command, the stand is READY with MOVE FAILED raised, and the failure is counted; at a stand that is not MOVING it changes nothing.
That the expiry comes as a command is log 5, the order of its effects log 12. -/
def Obligations.MovesEndInPositionOrByTime : Prop :=
  (∀ (s : State) (p : Fin 12) (dest source : Byte) (f : StatusFields) (n : Nat) (m : Move) (x : PassRecord) (c : Int),
    s.Takes p source → (s.port p).record.role = .stand → s.HasBlock p → s.standOf p source = some n →
    (s.stand n).mode = .moving m → (s.stand n).current = some x → (s.stand n).lastCommand = some c →
    (s.stand n).record.limLo ≤ m.target → m.target ≤ (s.stand n).record.limHi →
    s.refs ⟨.driveFault, n⟩ = [] → s.refs ⟨.following, n⟩ = [] →
    ∃ (t : State) (run : Nat), exec (.status p dest source f) s = .next t ∧
      run = (if |f.actual - m.target| ≤ (s.stand n).record.band then m.run + 1 else 0) ∧
      (run < 3 → ∃ (v : State) (step : Int) (flags : Byte) (missed : Nat),
        step = max (-((s.stand n).record.moveStep : Int)) (min (s.stand n).record.moveStep (m.target - c)) ∧
        flags = (if |m.target - c| ≤ (s.stand n).record.moveStep then 0#8 else 4#8) ∧
        missed = (if ((s.stand n).record.followLimit : Int) < |f.actual - f.echo| then
          min (s.stand n).record.followCount ((s.stand n).followingRun + 1) else 0) ∧
        v = ((s.modPort p fun P =>
          { P with burst := none,
                   commandSlot := some ⟨c + step, x.id, flags, n, BitVec.ofNat 8 (s.stand n).record.node⟩ }).modStand n fun S =>
            { S with mode := .moving { m with run := run }, lastActual := some f.actual,
                     driveFault := decide (f.drive = .fault), followingRun := missed,
                     following := decide (((s.stand n).record.followLimit : Int) < |f.actual - f.echo|) &&
                       (S.following || missed == S.record.followCount),
                     lastCommand := some (c + step),
                     counters := { S.counters with status := bump S.counters.status, gaps := bump S.counters.gaps } }) ∧
        QuietFrame v t ∧ v.Copied t p ⟨dest, source, .status, putStatus f⟩) ∧
      (3 ≤ run → ∃ (step : Int) (flags : Byte),
        step = max (-((s.stand n).record.rateStep : Int)) (min (s.stand n).record.rateStep (m.target - c)) ∧
        flags = (if |m.target - c| ≤ (s.stand n).record.rateStep then 0#8 else 4#8) ∧
        QuietFrame ((s.modPort p fun P =>
          { P with burst := none,
                   commandSlot := some ⟨c + step, x.id, flags, n, BitVec.ofNat 8 (s.stand n).record.node⟩ }).modStand n fun S =>
            { S with mode := .ready, base := some m.target, lastActual := some f.actual,
                     driveFault := decide (f.drive = .fault), followingRun := 0, following := false,
                     lastCommand := some (c + step),
                     counters := { S.counters with status := bump S.counters.status, gaps := bump S.counters.gaps,
                                                   movesDone := bump S.counters.movesDone } }) t)) ∧
  (∀ (s : State) (n : Fin 8),
    ((∀ m, (s.stand (n + 1)).mode ≠ .moving m) → exec (.moveTimeout n) s = .next s) ∧
    (∀ (m : Move) (x : Int), (s.stand (n + 1)).mode = .moving m → (s.stand (n + 1)).lastActual = some x →
      ∃ t, exec (.moveTimeout n) s = .next t ∧
        EventFrame (s.modStand (n + 1) fun S =>
          { S with mode := .ready, base := S.lastCommand,
                   counters := { S.counters with movesFailed := bump S.counters.movesFailed } }) t ∧
        (s.refs ⟨.following, n + 1⟩ = [] → s.refs ⟨.moveFailed, n + 1⟩ = [] →
          QuietFrame (s.modStand (n + 1) fun S =>
            { S with mode := .ready, base := S.lastCommand, followingRun := 0, following := false, moveFailed := true,
                     counters := { S.counters with movesFailed := bump S.counters.movesFailed } }) t)))

/-- A STATUS at a ROLLING stand (R48, R114, R116, R117, R127, R128), where no entry refers to its DRIVE FAULT or FOLLOWING: the gap
computation runs once on the CURRENT pass, the base and the force of the stand's force channel if that is usable (enabled, of
type FORCE, VALID or SUSPECT); its command goes into the command slot, the stand keeps its C_fb and its estimate, and the frame
goes on to the LINE ports (R59). Where the row starts is log 3. -/
def Obligations.RollingStatusComputesTheGap : Prop :=
  ∀ (s : State) (p : Fin 12) (dest source : Byte) (f : StatusFields) (n : Nat) (b : Int) (x : PassRecord),
    s.Takes p source → (s.port p).record.role = .stand → s.HasBlock p → s.standOf p source = some n →
    (s.stand n).mode = .rolling → (s.stand n).base = some b → (s.stand n).current = some x →
    s.refs ⟨.driveFault, n⟩ = [] → s.refs ⟨.following, n⟩ = [] →
    ∃ (v t : State) (C : Channel) (force : Option Int) (missed : Nat), exec (.status p dest source f) s = .next t ∧
      C = s.channel (s.stand n).record.force ∧
      force = (if C.record.enabled = true ∧ C.record.type = .force ∧ (C.state = .valid ∨ C.state = .suspect) then some C.value
        else none) ∧
      missed = (if ((s.stand n).record.followLimit : Int) < |f.actual - f.echo| then
        min (s.stand n).record.followCount ((s.stand n).followingRun + 1) else 0) ∧
      v = ((s.modPort p fun P =>
        { P with burst := none, commandSlot := some ⟨(computeGap (s.stand n) x b f.actual force).command, x.id,
            flagsByte (computeGap (s.stand n) x b f.actual force).flags, n, BitVec.ofNat 8 (s.stand n).record.node⟩ }).modStand n
          fun S => { S with
            cfb := (computeGap (s.stand n) x b f.actual force).cfb
            estimate := (computeGap (s.stand n) x b f.actual force).estimate
            lastActual := some f.actual, driveFault := decide (f.drive = .fault), followingRun := missed
            following := decide (((s.stand n).record.followLimit : Int) < |f.actual - f.echo|) &&
              (S.following || missed == S.record.followCount)
            lastCommand := some (computeGap (s.stand n) x b f.actual force).command
            counters := { S.counters with status := bump S.counters.status, gaps := bump S.counters.gaps } }) ∧
      QuietFrame v t ∧ v.Copied t p ⟨dest, source, .status, putStatus f⟩

/-- The gap computation (R129 to R131, R133, R135 to R137) with a usable force: every division is rounded to the nearest
integer, halves away from zero (R126), C_fb and the total correction are held within the correction limit, the target within
the pass window and the stand limits, the command within a rate step of the last command; each flag says that its clamp acted. -/
def Obligations.GapComputationFollowsItsSteps : Prop :=
  (∀ n d : Int, 0 < d → 2 * |d * roundDiv n d - n| ≤ d ∧ (2 * |d * roundDiv n d - n| = d → |n| < |d * roundDiv n d|)) ∧
  ∀ (S : Stand) (p : PassRecord) (base actual F last : Int), S.lastCommand = some last → 0 < S.record.modulus →
    p.winLo ≤ p.winHi → S.record.limLo ≤ p.winLo → p.winHi ≤ S.record.limHi →
    ∃ h e raw cfb total corr aim : Int,
      h = actual + roundDiv (F * 10000) S.record.modulus + S.record.zero ∧
      e = max (-100000) (min 100000 (h + S.trim - p.exitThickness)) ∧
      raw = S.cfb + roundDiv (-e * p.kFb) 1024 ∧
      cfb = max (-(p.corrLimit : Int)) (min p.corrLimit raw) ∧
      total = cfb + S.cff.getD 0 ∧
      corr = max (-(p.corrLimit : Int)) (min p.corrLimit total) ∧
      aim = max p.winLo (min p.winHi (base + corr)) ∧
      (computeGap S p base actual (some F)).cfb = cfb ∧
      (computeGap S p base actual (some F)).estimate = some (max (-2147483648) (min 2147483647 (h + S.trim))) ∧
      (computeGap S p base actual (some F)).command =
        last + max (-(S.record.rateStep : Int)) (min S.record.rateStep (aim - last)) ∧
      (computeGap S p base actual (some F)).flags =
        { window := decide (aim ≠ base + corr), corr := decide (cfb ≠ raw ∨ corr ≠ total),
          rate := decide ((S.record.rateStep : Int) < |aim - last|), ffAbsent := S.cff.isNone, fbSuspended := false,
          opened := false } ∧
      (computeGap S p base actual none).cfb = S.cfb ∧ (computeGap S p base actual none).estimate = none ∧
      (computeGap S p base actual none).flags.fbSuspended = true

/-- ADMIT (R109, R110, R166): a configured stand that is OUT, with a CURRENT pass and every one of its ports a STAND port, enters
READY with its base at the pass's preset, its corrections zero and its setpoint sequence unsynchronized. A FIRED entry of a stop
class that names the stand then trips it with a class no less severe than its own. BYPASS (R109, R111, R149): a READY stand
enters OUT, its runs and conditions cleared, a set HOLD ended and its sequence then unsynchronized, and its port's command slot
is emptied; its passes, base, last command, T and error record are kept. Where the row starts is log 3. -/
def Obligations.AdmitAndBypassMoveTheStand : Prop :=
  (∀ (s : State) (a : Arrival) (n : Nat) (x : PassRecord), s.Hears a → 1 ≤ n → n ≤ 8 → (s.stand n).mode = .out →
    (s.stand n).record.configured = true → (s.stand n).current = some x → s.standPorts (s.stand n).record = true →
    (s.stand n).following = false →
    ∃ t, exec (.admitStand a n) s = .next t ∧
      EventFrame ((s.taken a.port).modStand n fun S =>
        { S with mode := .ready, base := some x.preset, cfb := 0, trim := 0, sequence := none }) t ∧
      ((∀ e, e < 64 → (s.entry e).state = .fired → (s.entry e).record.cls = none ∨ inMask (s.entry e).record.mask n = false) →
        s.unmappedPanels = [] →
        t.stand n = { s.stand n with mode := .ready, base := some x.preset, cfb := 0, cff := none, trim := 0, estimate := none,
                                     biteOnRun := 0, followingRun := 0, sequence := none }) ∧
      (∀ e c, e < 64 → (s.entry e).state = .fired → (s.entry e).record.cls = some c →
        inMask (s.entry e).record.mask n = true →
        ∃ T, (t.stand n).mode = .tripped T ∧ severityRank c ≤ severityRank T.cls)) ∧
  (∀ (s : State) (a : Arrival) (n : Nat), s.Hears a → 1 ≤ n → n ≤ 8 → (s.stand n).mode = .ready →
    ∃ t, exec (.bypass a n) s = .next t ∧
      EventFrame (((s.taken a.port).modPort (s.stand n).record.port fun P => { P with commandSlot := none }).modStand n fun S =>
        { S with mode := .out, driveFault := false, hold := false, holdTimer := if S.hold then none else S.holdTimer,
                 sequence := if S.hold then none else S.sequence }) t ∧
      t.stand n = { s.stand n with
        mode := .out, biteOnRun := 0, biteOffRun := 0, followingRun := 0, following := false, moveFailed := false,
        driveFault := false, hold := false, holdTimer := if (s.stand n).hold then none else (s.stand n).holdTimer,
        sequence := if (s.stand n).hold then none else (s.stand n).sequence } ∧
      (t.port (s.stand n).record.port).commandSlot = none)

/-- SWITCH PASS and LOAD PASS (R107, R124): the NEXT pass becomes the CURRENT one with the base at its preset and the corrections
zero; a load to CURRENT does the same for its record in READY and keeps NEXT; a load to NEXT replaces NEXT. SCHEDULE MISSING is
cleared by a switch and by a load to NEXT; the first two modify the section (R175). Where the row starts is log 3. -/
def Obligations.PassRequestsReplaceThePass : Prop :=
  ∀ (s : State) (a : Arrival) (n : Nat) (x : PassRecord), s.Hears a → 1 ≤ n → n ≤ 8 → (s.stand n).mode ≠ .out →
    ((s.stand n).next = some x →
      ∃ t v, v = ((s.taken a.port).modStand n fun S =>
          { S with current := some x, next := none, base := some x.preset, cfb := 0, cff := none, trim := 0,
                   scheduleMissing := false,
                   counters := { S.counters with switches := bump S.counters.switches } }).setModified secStands ∧
        exec (.switchPass a n) s = .next t ∧ EventFrame v t ∧ t.stand n = v.stand n) ∧
    ((s.stand n).record.configured = true → PassRecord.inRange (s.stand n).record x = true → (s.stand n).mode = .ready →
      ∃ t, exec (.loadPassCurrent a n x) s = .next t ∧ QuietFrame (((s.taken a.port).modStand n fun S =>
        { S with current := some x, base := some x.preset, cfb := 0, cff := none, trim := 0 }).setModified secStands) t) ∧
    ((s.stand n).record.configured = true → PassRecord.inRange (s.stand n).record x = true →
      ∃ t v, v = ((s.taken a.port).modStand n fun S => { S with next := some x, scheduleMissing := false }) ∧
        exec (.loadPassNext a n x) s = .next t ∧ EventFrame v t ∧ t.stand n = v.stand n)

/-- A LOAD STAND that is not refused (R106, R140): the record takes effect and the pass it carries becomes CURRENT, with the kept
C_fb and T clamped to its limits; a record that leaves the stand unconfigured empties both passes and clears every condition.
The section is modified (R175). Where the row starts is log 3. -/
def Obligations.LoadStandTakesTheRecord : Prop :=
  ∀ (s : State) (a : Arrival) (n : Nat) (r : StandRecord) (x : Option PassRecord), s.Hears a → 1 ≤ n → n ≤ 8 →
    s.standLoadRange n r x = true → (s.stand n).mode = .out →
    (r.configured = true → s.standFits n r = true →
      ∃ t, exec (.loadStand a n r x) s = .next t ∧ QuietFrame (((s.taken a.port).modStand n fun S =>
        { S with
          record := r
          current := match x with | some p => some p | none => S.current
          cfb := match x with | some p => max (-(p.corrLimit : Int)) (min p.corrLimit S.cfb) | none => S.cfb
          trim := match x with | some p => max (-(p.trimLimit : Int)) (min p.trimLimit S.trim) | none => S.trim }).setModified
            secStands) t) ∧
    (r.configured = false →
      ∃ t v, v = ((s.taken a.port).modStand n fun S =>
          { S with record := r, current := none, next := none, moveFailed := false, following := false, hold := false,
                   driveFault := false, scheduleMissing := false }).setModified secStands ∧
        exec (.loadStand a n r x) s = .next t ∧ EventFrame v t ∧ t.stand n = v.stand n)

/-! ### Setpoints and groups (chapter 8) -/

/-- A SETPOINT at its stand (R142 to R148). Accepted by a configured stand that is READY or ROLLING with HOLD clear, whose sequence
is unsynchronized or expects the frame's number, which is consumed: PRESET sets the base, TRIM adds to it, both clamped to the
stand limits; MOVE, in READY alone, starts a move to the clamped value and clears MOVE FAILED (R118). Ignored at a stand that is
unconfigured or OUT; a duplicate when its number is one less than expected; refused at a TRIPPED stand, under HOLD, while MOVING,
and as a MOVE outside READY, when its number passes or HOLD is set: only the count, and a consumed number, change. A sequence
error, a number that is neither the expected one nor one less, leaves the stand unsynchronized, is counted, and is written into an
empty error record or marks a full one MULTIPLE; in READY, MOVING and ROLLING it sets HOLD, and under PERSISTENT starts the hold
timer; a TRIPPED stand keeps its HOLD flag. Where the row starts is log 3. -/
def Obligations.SetpointsAreAcceptedOrSorted : Prop :=
  ∀ (s v : State) (p : Fin 12) (source : Byte) (f : SetpointFields) (n : Nat) (S : Stand), s.Takes p source →
    (s.port p).record.role = .line → n = f.stand + 1 → S = s.stand n → v = s.modPort p (fun P => { P with burst := none }) →
    (S.record.configured = true → S.hold = false → S.mode = .ready ∨ S.mode = .rolling →
      S.sequence = none ∨ S.sequence = some f.sequence → S.record.limLo ≤ S.record.limHi →
      (f.kind = .preset → exec (.setpoint ⟨p, source⟩ f) s = .next (v.modStand n fun S =>
        { S with sequence := some (f.sequence + 1), base := some (max S.record.limLo (min S.record.limHi f.value)),
                 setpoints := { S.setpoints with accepted := bump S.setpoints.accepted } })) ∧
      (∀ b, f.kind = .trim → S.base = some b → exec (.setpoint ⟨p, source⟩ f) s = .next (v.modStand n fun S =>
        { S with sequence := some (f.sequence + 1), base := some (max S.record.limLo (min S.record.limHi (b + f.value))),
                 setpoints := { S.setpoints with accepted := bump S.setpoints.accepted } })) ∧
      (f.kind = .move → S.mode = .ready → ∃ t w, w = (v.modStand n fun S =>
          { S with mode := .moving ⟨max S.record.limLo (min S.record.limHi f.value), S.record.moveTime, 0⟩,
                   sequence := some (f.sequence + 1), moveFailed := false,
                   setpoints := { S.setpoints with accepted := bump S.setpoints.accepted } }) ∧
        exec (.setpoint ⟨p, source⟩ f) s = .next t ∧ EventFrame w t ∧ t.stand n = w.stand n)) ∧
    (S.record.configured = false ∨ S.mode = .out → exec (.setpoint ⟨p, source⟩ f) s = .next (v.modStand n fun S =>
        { S with setpoints := { S.setpoints with ignored := bump S.setpoints.ignored } })) ∧
    (S.record.configured = true → S.mode ≠ .out → S.hold = false → S.sequence = some (f.sequence + 1) →
      exec (.setpoint ⟨p, source⟩ f) s = .next (v.modStand n fun S =>
        { S with setpoints := { S.setpoints with duplicates := bump S.setpoints.duplicates } })) ∧
    (S.record.configured = true → S.mode ≠ .out →
      S.hold = true ∨ S.sequence = none ∨ S.sequence = some f.sequence →
      S.isTripped = true ∨ S.hold = true ∨ S.isMoving = true ∨ (f.kind = .move ∧ S.mode ≠ .ready) →
      ∃ t, exec (.setpoint ⟨p, source⟩ f) s = .next t ∧ QuietFrame (v.modStand n fun S =>
        { S with sequence := if S.hold then S.sequence else some (f.sequence + 1),
                 setpoints := { S.setpoints with refused := bump S.setpoints.refused } }) t) ∧
    (∀ x, S.record.configured = true → S.mode ≠ .out → S.hold = false → S.sequence = some x → f.sequence ≠ x →
      f.sequence + 1 ≠ x →
      ∃ t err, exec (.setpoint ⟨p, source⟩ f) s = .next t ∧
        (S.error = none → err = ⟨n, x, f.sequence, f.kind, f.value, s.time, false, false⟩) ∧
        (∀ old, S.error = some old → err = { old with multiple := true }) ∧
        EventFrame (v.modStand n fun S =>
          { S with sequence := none, error := some err, hold := !S.isTripped,
                   holdTimer := if S.isTripped = false ∧ S.record.holdMode = .persistent then some S.record.holdTime
                     else S.holdTimer,
                   setpoints := { S.setpoints with errors := bump S.setpoints.errors } }) t)

/-- A GROUP frame (R151 to R153): one whose mask names no configured stand is MALFORMED at its port; a duplicate of the group
stream is counted; one that passes is applied to the masked stands one by one: an OUT or unconfigured one ignores it, one that
R147 refuses counts a refusal, any other one accepts it as R148 says. On a group sequence error the group stream is unsynchronized
and the error counted; each masked stand that is in service counts and records the error, with the group's numbers, and sets HOLD
unless it is TRIPPED; one that is not ignores the frame. No other stand, and no stand's own sequence, base, move or command changes.
The masked stands are judged as the frame is taken, before any HOLD condition is an event: log 12. That a stand's own sequence
stays is log 29, where the row starts log 3. -/
def Obligations.GroupFrameActsStandByStand : Prop :=
  ∀ (s w : State) (p : Fin 12) (source : Byte) (f : GroupFields), s.Takes p source → (s.port p).record.role = .line →
    w = s.modPort p (fun P => { P with burst := none }) →
    ((∀ n, 1 ≤ n → n ≤ 8 → inMask f.mask n = true → (s.stand n).record.configured = false) →
      exec (.group ⟨p, source⟩ f) s = .next (w.modPort p fun P =>
        { P with counters := { P.counters with malformed := bump P.counters.malformed } })) ∧
    ((∃ n, 1 ≤ n ∧ n ≤ 8 ∧ inMask f.mask n = true ∧ (s.stand n).record.configured = true) →
      (s.group.sequence = some (f.sequence + 1) → exec (.group ⟨p, source⟩ f) s = .next { w with
        group := { s.group with duplicates := bump s.group.duplicates } }) ∧
      (s.group.sequence = none ∨ s.group.sequence = some f.sequence →
        (∀ n, 1 ≤ n → n ≤ 8 → (s.stand n).record.limLo ≤ (s.stand n).record.limHi ∧ (s.stand n).moveFailed = false ∧
          ((s.stand n).base = none → (s.stand n).mode = .out)) →
        ∃ t, exec (.group ⟨p, source⟩ f) s = .next t ∧
          QuietFrame { w with
            stands := t.stands
            group := { s.group with sequence := some (f.sequence + 1), accepted := bump s.group.accepted } } t ∧
          ∀ n, 1 ≤ n → n ≤ 8 → ∃ S, S = s.stand n ∧
            (inMask f.mask n = false → t.stand n = S) ∧
            (inMask f.mask n = true →
              (S.record.configured = false ∨ S.mode = .out →
                t.stand n = { S with setpoints := { S.setpoints with ignored := bump S.setpoints.ignored } }) ∧
              (S.record.configured = true → S.mode ≠ .out →
                (S.isTripped = true ∨ S.hold = true ∨ S.isMoving = true ∨ (f.kind = .move ∧ S.mode ≠ .ready) →
                  t.stand n = { S with setpoints := { S.setpoints with refused := bump S.setpoints.refused } }) ∧
                (S.mode = .ready ∨ (f.kind = .trim ∧ S.mode = .rolling) → S.hold = false →
                  (f.kind = .move → t.stand n = { S with
                    mode := .moving ⟨max S.record.limLo (min S.record.limHi f.value), S.record.moveTime, 0⟩
                    setpoints := { S.setpoints with accepted := bump S.setpoints.accepted } }) ∧
                  (∀ b, f.kind = .trim → S.base = some b → t.stand n = { S with
                    base := some (max S.record.limLo (min S.record.limHi (b + f.value)))
                    setpoints := { S.setpoints with accepted := bump S.setpoints.accepted } }))))) ∧
      (∀ x, s.group.sequence = some x → f.sequence ≠ x → f.sequence + 1 ≠ x →
        ∃ t v, exec (.group ⟨p, source⟩ f) s = .next t ∧
          v = { w with stands := v.stands, group := { s.group with sequence := none, errors := bump s.group.errors } } ∧
          EventFrame v t ∧ ((∀ n, s.refs ⟨.hold, n⟩ = []) → QuietFrame v t) ∧
          ∀ n, 1 ≤ n → n ≤ 8 → ∃ S err, S = s.stand n ∧
            (S.error = none → err = ⟨n, x, f.sequence, groupSetpoint f.kind, f.value, s.time, true, false⟩) ∧
            (∀ old, S.error = some old → err = { old with multiple := true }) ∧
            (inMask f.mask n = false → v.stand n = S) ∧
            (inMask f.mask n = true →
              (S.record.configured = false ∨ S.mode = .out →
                v.stand n = { S with setpoints := { S.setpoints with ignored := bump S.setpoints.ignored } }) ∧
              (S.record.configured = true → S.mode ≠ .out → v.stand n = { S with
                error := some err, hold := if S.isTripped then S.hold else true
                holdTimer := if S.isTripped = false ∧ S.record.holdMode = .persistent then some S.record.holdTime
                  else S.holdTimer
                setpoints := { S.setpoints with errors := bump S.setpoints.errors } }))))

/-- CLEAR HOLD and the expiry of the hold timer (R149, R150): a set HOLD ends with its timer cancelled and the sequence
unsynchronized, a clear one keeps the sequence; CLEAR HOLD also empties the error record, which the expiry keeps. That the
expiry comes as a command is log 5; where the request's row starts is log 3. -/
def Obligations.HoldEndsByRequestOrByTime : Prop :=
  (∀ (s : State) (a : Arrival) (n : Nat), s.Hears a → 1 ≤ n → n ≤ 8 → (s.stand n).record.configured = true →
    (s.stand n).mode ≠ .out →
    ∃ t v, v = ((s.taken a.port).modStand n fun S =>
        { S with hold := false, error := none, holdTimer := if S.hold then none else S.holdTimer,
                 sequence := if S.hold then none else S.sequence }) ∧
      exec (.clearHold a n) s = .next t ∧ EventFrame v t ∧ t.stand n = v.stand n) ∧
  (∀ (s : State) (n : Fin 8), (s.stand (n + 1)).holdTimer.isSome → (s.stand (n + 1)).hold = true →
    ∃ t v, v = (s.modStand (n + 1) fun S => { S with hold := false, holdTimer := none, sequence := none }) ∧
      exec (.holdTimerExpiry n) s = .next t ∧ EventFrame v t ∧ t.stand (n + 1) = v.stand (n + 1))

/-! ### Trip matrix, stop orders and output lines (chapter 9) -/

/-- A condition that changes its level is an event of the trip unit (R155, R157, R159): cleared, it returns the enabled entries that
refer to it to IDLE; raised, it takes those that are IDLE to TIMING with their delay, or, with delay 0, to FIRED, and a fired entry
acts: of a stop class on its stands, of class NOTE by a log record. When an entry refers to it, one CONDITION notice goes out with
the lowest of these entries as its subject, and the kind, source, new level and the number of these entries as its detail. A level
that stays as it was is no event. The silence timer, the idle run, the hold period, the rate and storm windows, the stale timer and
a panel's STOP change levels as such events. Where the PANEL_STOP row starts is log 3, that expiries come as commands log 5. -/
def Obligations.ConditionsMoveTheirEntries : Prop :=
  (∀ (s : State) (c : CondId) (before : Bool) (refers : Nat → Prop),
    (∀ e, refers e ↔ e < 64 ∧ (s.entry e).record.enabled = true ∧ (s.entry e).record.cond = c) →
    (s.level c = before → s.changed c before = s) ∧
    (s.level c ≠ before → ∀ e es, s.refs c = e :: es → refers e ∧ (∀ k, refers k → e ≤ k) ∧
      ∀ q, s.CanNotify q → s.Notified (s.changed c before) q .condition e
        (put8 (condCode c.kind) ++ put8 c.source ++ putBool (s.level c) ++ put8 (es.length + 1))) ∧
    (before = true → s.level c = false → ∃ v, QuietFrame v (s.changed c before) ∧
      v = { s with trip := { s.trip with entries := v.trip.entries } } ∧ ∀ e, e < 64 →
        (refers e → v.entry e = { s.entry e with state := .idle }) ∧ (¬ refers e → v.entry e = s.entry e)) ∧
    (before = false → s.level c = true → ∃ v,
      v = { s with trip := { s.trip with entries := v.trip.entries } } ∧
      (∀ e, e < 64 →
        (refers e → (s.entry e).state = .idle → v.entry e = { s.entry e with
          state := if (s.entry e).record.delay = 0 then .fired else .timing (s.entry e).record.delay }) ∧
        (¬ refers e ∨ (s.entry e).state ≠ .idle → v.entry e = s.entry e)) ∧
      ((∀ e, refers e → (s.entry e).state = .idle → (s.entry e).record.delay ≠ 0) → (c.kind = .panel → ∃ e, refers e) →
        QuietFrame v (s.changed c before)) ∧
      (∀ e, refers e → (s.entry e).state = .idle → (s.entry e).record.delay = 0 →
        (∀ k, refers k → (s.entry k).state = .idle → (s.entry k).record.delay = 0 → k = e) →
        (∀ cls, (s.entry e).record.cls = some cls → ∃ u, QuietFrame v u ∧
          u.Stopped (s.changed c before) e cls (s.entry e).record.mask (.cond c)) ∧
        ((s.entry e).record.cls = none → ∃ t, t = s.changed c before ∧
          QuietFrame { v with trip := { v.trip with
            firings := bump s.trip.firings, log := t.trip.log, nextRecord := s.trip.nextRecord + 1,
            evicted := t.trip.evicted } } t ∧
          (s.trip.log.length < 32 →
            t.trip.log = s.trip.log ++ [⟨s.trip.nextRecord, e, .cond c, none, 0#8, false, s.time⟩]))))) ∧
  (∀ (s : State) (p : Fin 12),
    ((s.port p).silenceTimer.isSome → exec (.silenceTimeout p) s = .next ((s.modPort p fun P =>
      { P with silenceTimer := none, silent := true }).changed ⟨.silent, p⟩ (s.port p).silent)) ∧
    ((s.port p).link = .sync → exec (.idleRunComplete p) s = .next ((s.modPort p fun P =>
      { P with link := .up, idleRun := 32 }).changed ⟨.link, p⟩ true)) ∧
    ((s.port p).link = .up → exec (.holdPeriodExpiry p) s = .next ((s.modPort p fun P =>
      { P with link := .sync, idleRun := 0, burst := none }).changed ⟨.link, p⟩ (decide ((s.port p).mode ≠ .none)))) ∧
    ((s.port p).energy = true → (s.port p).link ≠ .disabled → (s.port p).rateSpoiled = false → ∀ n,
      250000 + 750 < n ∨ n + 750 < 250000 → exec (.rateWindowEnd p n) s = .next ((s.modPort p fun P =>
        { P with rate := true, rateLeft := 10 }).changed ⟨.rate, p⟩ (s.port p).rate)) ∧
    (exec (.stormWindowEnd p) s = .next ((s.modPort p fun P =>
      { P with limiting := P.limiting && decide (P.record.falling < P.stormCount), stormCount := 0,
               stormLeft := P.record.stormWindow }).changed ⟨.storm, p⟩ (s.port p).limiting)) ∧
    (∀ (source : Byte) (f : StopFields), s.Takes p source → (s.port p).record.role = .panel →
      exec (.panelStop ⟨p, source⟩ f) s = .next (((s.modPort p fun P =>
        { P with panel := f.cls.isSome }).changed ⟨.panel, p⟩ (s.port p).panel).modPort p fun P => { P with burst := none }))) ∧
  (∀ (s : State) (c : Fin 32), (s.channel c).staleTimer.isSome →
    exec (.staleTimerExpiry c) s = .next ((s.modChannel c fun C =>
      { C with state := .stale, staleTimer := none }).changed ⟨.stale, c⟩ (decide ((s.channel c).state = .stale))))

/-- A TIMING entry's delay expires (R159, R160, R163, R168): the entry is FIRED and acts. Of class NOTE it only makes a log record,
which removes the oldest record that is not FIRST from a full log; of a stop class it fires on the stands of its mask. An entry
that is not TIMING is left alone. That the expiry comes as a command is log 5. -/
def Obligations.DelayExpiryFiresTheEntry : Prop :=
  ∀ (s : State) (e : Fin 64) (r : TripEntryRecord), r = (s.entry e).record →
    ((∀ k, (s.entry e).state ≠ .timing k) → exec (.tripDelayExpiry e) s = .next s) ∧
    (∀ k, (s.entry e).state = .timing k →
      ∃ t v, v = (s.modEntry e fun x => { x with state := .fired }) ∧ exec (.tripDelayExpiry e) s = .next t ∧
        (∀ c, r.cls = some c → v.Stopped t e c r.mask (.cond r.cond)) ∧
        (r.cls = none →
          QuietFrame { v with trip := { v.trip with
            firings := bump v.trip.firings, log := t.trip.log, nextRecord := v.trip.nextRecord + 1,
            evicted := t.trip.evicted } } t ∧
          (s.trip.log.length < 32 → t.trip.evicted = s.trip.evicted ∧
            t.trip.log = s.trip.log ++ [⟨s.trip.nextRecord, e, .cond r.cond, none, 0#8, false, s.time⟩]) ∧
          (∀ pre x post, s.trip.log = pre ++ x :: post → 32 ≤ s.trip.log.length → x.first = false →
            (∀ y ∈ pre, y.first = true) → t.trip.evicted = bump s.trip.evicted ∧
            t.trip.log = pre ++ post ++ [⟨s.trip.nextRecord, e, .cond r.cond, none, 0#8, false, s.time⟩])))

/-- Stops without an entry (R13, R156, R164, R165). A management STOP of class SLOW, FAST or OPEN with a mask other than 0 is a
firing at once with the entry index 255 and the request's arrival port as its source. A panel's STOP frame sets or clears the PANEL
condition of its port by its class alone; a condition that becomes active without an enabled entry that refers to it acts as a FAST
firing on all eight stands with the index 255; one that is repeated causes no event. Where the rows start is log 3. -/
def Obligations.StopsWithoutAnEntryFireAtOnce : Prop :=
  (∀ (s : State) (a : Arrival) (c : Nat) (cls : Severity) (mask : Byte), s.Hears a → mask ≠ 0#8 →
    (c = 1 ∧ cls = .slow) ∨ (c = 2 ∧ cls = .fast) ∨ (c = 3 ∧ cls = .opened) →
    ∃ t, exec (.stopRequest a c mask) s = .next t ∧ (s.taken a.port).Stopped t 255 cls mask (.request a.port)) ∧
  (∀ (s : State) (p : Fin 12) (source : Byte) (f : StopFields), s.Takes p source → (s.port p).record.role = .panel →
    ∃ t v, v = (s.modPort p fun P => { P with panel := f.cls.isSome, burst := none }) ∧
      exec (.panelStop ⟨p, source⟩ f) s = .next t ∧
      EventFrame v t ∧ (f.cls.isSome = (s.port p).panel → t = v) ∧
      (f.cls.isSome = true → (s.port p).panel = false → s.refs ⟨.panel, p⟩ = [] →
        v.Stopped t 255 .fast 0xFF#8 (.cond ⟨.panel, p⟩)))

/-- The output lines (R167, R184): in a running part STOP is asserted exactly while a stand is TRIPPED with class FAST or OPEN, and
ALERT exactly while a stand is TRIPPED or has HOLD set or an entry of class NOTE is FIRED; in any other phase STOP is asserted and
ALERT released. So a stop asserts ALERT, and STOP unless its class is SLOW; a NOTE entry that fires and a sequence error that sets
HOLD assert ALERT; the end of start-up and the reset of the last TRIPPED stand release STOP, and the end of the last HOLD releases
ALERT. Where the requests' rows start is log 3, that the delay's expiry comes as a command log 5. -/
def Obligations.OutputLinesFollowTheStands : Prop :=
  (∀ s : State,
    (s.phase = .running →
      (s.stopLine = true ↔ ∃ n x, 1 ≤ n ∧ n ≤ 8 ∧ (s.stand n).mode = .tripped x ∧ x.cls ≠ .slow) ∧
      (s.alertLine = true ↔ (∃ n, 1 ≤ n ∧ n ≤ 8 ∧ ((s.stand n).isTripped = true ∨ (s.stand n).hold = true)) ∨
        ∃ e, e < 64 ∧ (s.entry e).record.cls = none ∧ (s.entry e).state = .fired)) ∧
    (s.phase ≠ .running → s.stopLine = true ∧ s.alertLine = false) ∧
    (s.phase = .reading → ∃ t, exec .startUpReadComplete s = .next t ∧ t.stopLine = false) ∧
    (s.phase = .running → ∀ (e : Fin 64) (k : Nat), (s.entry e).state = .timing k → (s.entry e).record.cls = none →
      ∃ t, exec (.tripDelayExpiry e) s = .next t ∧ t.alertLine = true ∧ t.stopLine = s.stopLine)) ∧
  (∀ (s : State) (a : Arrival), s.Hears a →
    (∀ (c : Nat) (cls : Severity) (mask : Byte) (m : Nat), mask ≠ 0#8 → s.ActsOn cls mask m →
      (c = 1 ∧ cls = .slow) ∨ (c = 2 ∧ cls = .fast) ∨ (c = 3 ∧ cls = .opened) →
      ∃ t, exec (.stopRequest a c mask) s = .next t ∧ t.alertLine = true ∧ (cls ≠ .slow → t.stopLine = true)) ∧
    (∀ mask : Byte, mask ≠ 0#8 → (∀ n, 1 ≤ n → n ≤ 8 → (s.stand n).isTripped = true →
        inMask mask n = true ∧ s.causeActive n = false) →
      ∃ t, exec (.resetTrip a mask) s = .next t ∧ t.stopLine = false) ∧
    (∀ n, 1 ≤ n → n ≤ 8 → (s.stand n).record.configured = true → (s.stand n).mode ≠ .out →
      (∀ m, 1 ≤ m → m ≤ 8 → (s.stand m).isTripped = false ∧ (m ≠ n → (s.stand m).hold = false)) →
      (∀ e, e < 64 → (s.entry e).record.cls = none → (s.entry e).state ≠ .fired) →
      ∃ t, exec (.clearHold a n) s = .next t ∧ t.alertLine = false)) ∧
  (∀ (s : State) (p : Fin 12) (source : Byte) (f : SetpointFields) (S : Stand) (x : Byte), s.Takes p source →
    (s.port p).record.role = .line → S = s.stand (f.stand + 1) → S.record.configured = true → S.mode ≠ .out →
    S.hold = false → S.isTripped = false → S.sequence = some x → f.sequence ≠ x → f.sequence + 1 ≠ x →
    ∃ t, exec (.setpoint ⟨p, source⟩ f) s = .next t ∧ t.alertLine = true)

/-- The repeat timer of a TRIPPED stand expires (R47, R161, R162): the count increases, the timer restarts with the repeat
interval, and the stand's order with the new count goes into the stop slot of its port, merging with a pending one: the more
severe class with its entry index, the union of the masks, the new count, broadcast for two nodes. Of any other stand nothing
changes. That the expiry comes as a command is log 5. -/
def Obligations.RepeatTimerWritesTheOrderAgain : Prop :=
  ∀ (s : State) (n : Fin 8),
    ((s.stand (n + 1)).isTripped = false → exec (.repeatTimerExpiry n) s = .next s) ∧
    (∀ x q node, (s.stand (n + 1)).mode = .tripped x → (s.stand (n + 1)).record.port = q →
      node = BitVec.ofNat 8 (s.stand (n + 1)).record.node → q < 12 → (s.port q).link ≠ .disabled →
      ∃ t v, v = (s.modStand (n + 1) fun S =>
          { S with mode := .tripped { x with count := x.count + 1, timer := s.trip.interval } }) ∧
        exec (.repeatTimerExpiry n) s = .next t ∧ EventFrame v t ∧ (∀ m, t.stand m = v.stand m) ∧
        ((s.port q).stopSlot = none →
          (t.port q).stopSlot = some ⟨x.cls, maskOf (n + 1), x.entry, x.count + 1, node⟩) ∧
        (∀ o, (s.port q).stopSlot = some o → (t.port q).stopSlot = some
          { cls := if severityRank x.cls < severityRank o.cls then o.cls else x.cls
            mask := o.mask ||| maskOf (n + 1)
            entry := if severityRank x.cls < severityRank o.cls then o.entry else x.entry
            count := x.count + 1
            dest := if o.dest = node then node else 255#8 }))

/-- RESET TRIP (R121, R168, R169), in a part whose stands have no FOLLOWING and no MOVE FAILED: each masked TRIPPED stand without an
active cause enters READY with its base at the last command, and leaves every pending order of its ports, an order without
stands being emptied; each other masked TRIPPED stand stays as it is and is counted; and when the last TRIPPED stand is reset,
no record is FIRST. A request that has refused every stand it judged is answered CAUSE_ACTIVE. Where the row starts is log
3. -/
def Obligations.ResetTripFreesStandsWithoutCause : Prop :=
  ∀ (s : State) (a : Arrival) (mask : Byte) (freed : Nat → Prop), s.Hears a → mask ≠ 0#8 →
    (∀ n, (s.stand n).following = false ∧ (s.stand n).moveFailed = false) →
    (∀ n, freed n ↔ 1 ≤ n ∧ n ≤ 8 ∧ inMask mask n = true ∧ (s.stand n).isTripped = true ∧ s.causeActive n = false) →
    ∃ t, exec (.resetTrip a mask) s = .next t ∧
      QuietFrame { (s.taken a.port) with
        net := { (s.taken a.port).net with
          ports := Vector.ofFn fun q : Fin 12 => { (s.taken a.port).port q with stopSlot := (t.port q).stopSlot } }
        stands := t.stands, trip := { s.trip with log := t.trip.log, refusedResets := t.trip.refusedResets } } t ∧
      (∀ n, freed n → t.stand n = { s.stand n with
        mode := .ready, base := (s.stand n).lastCommand, biteOnRun := 0, followingRun := 0 }) ∧
      (∀ n, ¬ freed n → t.stand n = s.stand n) ∧
      (∀ q, (s.port q).stopSlot = none → (t.port q).stopSlot = none) ∧
      (∀ q o, (s.port q).stopSlot = some o → o.mask ≠ 0#8 → ∃ m,
        (∀ n, 1 ≤ n → n ≤ 8 → (inMask m n = true ↔
          inMask o.mask n = true ∧ ¬ (freed n ∧ q ∈ StandRecord.ports (s.stand n).record))) ∧
        (t.port q).stopSlot = if m = 0#8 then none else some { o with mask := m }) ∧
      t.trip.refusedResets = bump^[((standNumbers.filter fun n =>
        inMask mask n && (s.stand n).isTripped && s.causeActive n)).length] s.trip.refusedResets ∧
      ((∃ n, freed n) → (∀ n, (t.stand n).isTripped = false) →
        t.trip.log = s.trip.log.map fun r => { r with first := false }) ∧
      ((∀ n, ¬ freed n) ∨ (∃ n, (t.stand n).isTripped = true) → t.trip.log = s.trip.log) ∧
      (s.CanReply a → (∀ n, ¬ freed n) → (∃ n, 1 ≤ n ∧ n ≤ 8 ∧ inMask mask n = true ∧ (s.stand n).isTripped = true) →
        ∃ m, (∀ n, 1 ≤ n → n ≤ 8 → (inMask m n = true ↔ inMask mask n = true ∧ (s.stand n).isTripped = true)) ∧
          s.Replied t a 0x35 (.refused .causeActive [0#8, m]))

/-- LOAD TRIP ENTRY (R158, R159): with the protect flag clear, an entry in range takes its record and is IDLE, or, enabled with
its condition active, TIMING with its new delay, or fires at once; the part-wide form sets the repeat interval; the section is
modified (R175). With the flag set both forms are refused PROTECTED and change nothing. Where the row starts is log 3. -/
def Obligations.LoadTripEntryTakesTheRecord : Prop :=
  ∀ (s : State) (a : Arrival) (e : Nat) (r : TripEntryRecord) (k : Nat), s.Hears a → e < 64 →
    sourceInRange r.cond = true → r.delay ≤ 2000 → 5 ≤ k → k ≤ 100 →
    ∃ t u, exec (.loadTripEntry a e r) s = .next t ∧ exec (.loadTripEntryPartWide a k) s = .next u ∧
      (s.trip.protect = true → QuietFrame (s.taken a.port) t ∧ QuietFrame (s.taken a.port) u ∧
        (s.CanReply a → s.Replied t a 0x25 (.refused .protected_ []) ∧ s.Replied u a 0x25 (.refused .protected_ []))) ∧
      (s.trip.protect = false →
        QuietFrame ({ (s.taken a.port) with trip := { s.trip with interval := k } }.setModified secTrip) u ∧
        (r.enabled = false ∨ s.level r.cond = false →
          QuietFrame (((s.taken a.port).modEntry e fun _ => ⟨r, .idle⟩).setModified secTrip) t) ∧
        (r.enabled = true → s.level r.cond = true → r.delay ≠ 0 →
          QuietFrame (((s.taken a.port).modEntry e fun _ => ⟨r, .timing r.delay⟩).setModified secTrip) t) ∧
        (∀ c, r.enabled = true → s.level r.cond = true → r.delay = 0 → r.cls = some c →
          (((s.taken a.port).modEntry e fun _ => ⟨r, .fired⟩).setModified secTrip).Stopped t e c r.mask (.cond r.cond)))

/-! ### Management (chapter 10) -/

/-- Each read is answered DONE with the body its owner builds, and its clearing form clears the counters its rule names as the
reply is built; nothing else changes (R38, R81, R104, R125, R154, R170, R174, R176). The bodies' widths and lists are those
of log 8, log 9, log 10, log 32 and log 34; where a request's row starts is log 3. -/
def Obligations.ReadsAnswerAndClear : Prop :=
  ∀ (s : State) (a : Arrival) (c : Bool), s.CanReply a →
    (∃ t, exec (if c then .identifyClear a else .identify a) s = .next t ∧
      QuietFrame (s.taken a.port) t ∧ t.net.dropped = (if c then 0 else s.net.dropped) ∧
      s.Replied t a 0x01 (.done s.identifyBody)) ∧
    (∀ p, p < 12 → ∃ t, exec (if c then .readPortClear a p else .readPort a p) s = .next t ∧
      QuietFrame (if c then (s.taken a.port).modPort p fun P => { P with counters := {} } else s.taken a.port) t ∧
      s.Replied t a 0x10 (.done (s.portBody p))) ∧
    (∀ k, k < 32 → ∃ t, exec (if c then .readChannelClear a k else .readChannel a k) s = .next t ∧
      QuietFrame (if c then (s.taken a.port).modChannel k fun C =>
        { C with matched := 0, accepted := 0, rejected := 0, muted := 0 } else s.taken a.port) t ∧
      s.Replied t a 0x11 (.done (s.channelBody k))) ∧
    (∀ n, 1 ≤ n → n ≤ 8 → ∃ t, exec (if c then .readStandClear a n else .readStand a n) s = .next t ∧
      QuietFrame (if c then
          let u := (s.taken a.port).modStand n fun S => { S with counters := {}, setpoints := {} }
          if n = 1 then { u with group := { s.group with accepted := 0, duplicates := 0, errors := 0 } } else u
        else s.taken a.port) t ∧
      s.Replied t a 0x12 (.done (s.standBody n))) ∧
    (∀ i k, i < 9 → ∃ t, exec (if c then .readSpanClear a i k else .readSpan a i k) s = .next t ∧
      QuietFrame (if c then (s.taken a.port).modSpan i fun P => { P with counters := {} } else s.taken a.port) t ∧
      s.Replied t a 0x13 (.done (s.spanBody i k))) ∧
    (∀ k, ∃ t, exec (if c then .readTripLogClear a k else .readTripLog a k) s = .next t ∧
      QuietFrame (if c then { s.taken a.port with trip := { s.trip with
        firings := 0, ordersWritten := 0, evicted := 0, refusedResets := 0 } } else s.taken a.port) t ∧
      s.Replied t a 0x14 (.done (s.tripBody k))) ∧
    (∀ n, 1 ≤ n → n ≤ 254 → ∃ t, exec (.readNodeTable a n) s = .next t ∧ QuietFrame (s.taken a.port) t ∧
      s.Replied t a 0x15 (.done (bodyWithList ((s.knownNodes.filter fun m => n ≤ m).map fun m => nodeBytes m (s.node m))
        [.field (put8 s.part.own), .field (put16 s.part.aging), .field (put8 s.knownNodes.length)])))

/-- A request the part cannot carry out changes nothing and is answered by one refusal (R171): UNKNOWN for a code outside the
catalogue of R14, RANGE for a request that names a unit outside its numbering. Where the row starts is log 3. -/
def Obligations.RequestsOutsideTheCatalogueAreRefused : Prop :=
  ∀ (s : State) (a : Arrival), s.CanReply a →
    (∀ (code : Byte) (l : List Byte), code.toNat ∉ [0x01, 0x10, 0x11, 0x12, 0x13, 0x14, 0x15, 0x20, 0x21, 0x22, 0x23, 0x24, 0x25,
        0x26, 0x27, 0x30, 0x31, 0x32, 0x33, 0x34, 0x35, 0x36, 0x40, 0x41, 0x50, 0x51, 0x52, 0x53, 0x54, 0x60] →
      ∃ t, exec (.unknownRequest a code l) s = .next t ∧ QuietFrame (s.taken a.port) t ∧
        s.Replied t a code.toNat (.refused .unknown [])) ∧
    (∀ r, Request.Outside s.part.own r → ∃ t, exec (Request.row a r) s = .next t ∧ QuietFrame (s.taken a.port) t ∧
      s.Replied t a (requestCode r) (.refused .range []))

/-- RESTART (R40, R62, R64, R85, R108, R143, R159, R168, R170, R177): BUSY while the store is BUSY, else STATE unless the line is
stopped; a taken one reloads every block from the store, as `State.LoadedFrom` says. A port that was UP under a role that is not
DISABLED stays UP; every queue and slot is emptied, and of the frames held before only those on the line are left; the latch is
clear; the time base runs on. The model's choices here are log 15, log 16, log 20, log 25 and log 31; where the request's row starts is log 3. -/
def Obligations.RestartReloadsEveryBlock : Prop :=
  ∀ (s : State) (a : Arrival), s.Hears a →
    (s.CanReply a → s.store.op.isSome → ∃ t, exec (.restart a) s = .next t ∧ QuietFrame (s.taken a.port) t ∧
      s.Replied t a 0x60 .busy) ∧
    (s.CanReply a → s.store.op = none → (∃ n, 1 ≤ n ∧ n ≤ 8 ∧ (s.stand n).mode ≠ .out ∧ (s.stand n).mode ≠ .ready) ∨
        (∃ i, i < 9 ∧ (s.span i).state ≠ .idle) →
      ∃ t, exec (.restart a) s = .next t ∧ QuietFrame (s.taken a.port) t ∧ s.Replied t a 0x60 (.refused .state [])) ∧
    (s.store.op = none → (∀ n, 1 ≤ n → n ≤ 8 → (s.stand n).mode = .out ∨ (s.stand n).mode = .ready) →
      (∀ i, i < 9 → (s.span i).state = .idle) →
      ∃ t, exec (.restart a) s = .next t ∧ t.phase = .running ∧ t.time = s.time ∧ t.pending = s.pending ∧
        t.resetInput = s.resetInput ∧ t.supplyLow = s.supplyLow ∧ t.store.latch = false ∧ t.store.op = none ∧
        s.LoadedFrom t ∧
        (∀ p, p < 12 → ∃ r, r = (t.port p).record ∧ (t.port p).energy = (s.port p).energy ∧
          (t.port p).sending = (s.port p).sending ∧
          (t.port p).link = (if r.role = .disabled then .disabled else if (s.port p).link = .up then .up
            else if (s.port p).energy then .sync else .down) ∧
          (t.port p).mode = .none ∧ (t.port p).burst = none ∧ (t.port p).loop = none ∧ (t.port p).silent = false ∧
          (t.port p).rate = false ∧ (r.role = .disabled → (t.port p).rateSpoiled = true) ∧ (t.port p).limiting = false ∧
          (t.port p).stormCount = 0 ∧ (t.port p).stormLeft = r.stormWindow ∧ (t.port p).panel = false ∧
          (t.port p).checker.inSync = false ∧ (t.port p).injection = false ∧
          (t.port p).stopSlot = none ∧ (t.port p).commandSlot = none ∧ (∀ id ∈ (t.port p).queue, s.net.nextId ≤ id) ∧
          { (t.port p).counters with queueFull := 0 } = {} ∧
          (t.port p).silenceTimer = (if r.role = .disabled then none else some r.silenceTime)) ∧
        ∀ h ∈ t.net.frames, h.id < s.net.nextId → ∃ p, p < 12 ∧ (s.port p).sending.bind Sending.held = some h.id)

/-! ### The setting store (chapter 11) -/

/-- The store requests (R175, R179 to R182): BUSY while an operation is in flight, which leaves the operation and the latch alone;
else NOT_ENABLED without the latch; a refusal clears the latch: PROTECTED of a section that protection covers, STATE of a protection
taken off while the line is not stopped, RANGE of an operand outside its values; an accepted one clears the latch and starts the
operation: a save takes the snapshot of the
section, whose stored copy is then invalid and whose modified flag is clear; an erase does so for each section named and sets
the flags; a protect change sets the running flag and saves TRIP. How a section is held while it is written is log 25; where the row
starts is log 3. -/
def Obligations.StoreRequestsStartOperations : Prop :=
  ∀ (s : State) (a : Arrival), s.CanReply a →
    (s.store.op.isSome → ∀ c k, (c = .storeEnable a ∧ k = 0x50) ∨ (c = .storeDisable a ∧ k = 0x51) ∨
        (∃ x, x ≤ 3 ∧ c = .storeSave a x ∧ k = 0x52) ∨ (∃ x, x ≤ 4 ∧ c = .storeErase a x ∧ k = 0x53) ∨
        (∃ x, x ≤ 1 ∧ c = .storeProtect a x ∧ k = 0x54) →
      ∃ t, exec c s = .next t ∧ QuietFrame (s.taken a.port) t ∧ s.Replied t a k .busy) ∧
    (s.store.op = none →
      (∃ t, exec (.storeEnable a) s = .next t ∧ QuietFrame { s.taken a.port with store := { s.store with latch := true } } t ∧
        s.Replied t a 0x50 (.done [])) ∧
      (∃ t, exec (.storeDisable a) s = .next t ∧ QuietFrame { s.taken a.port with store := { s.store with latch := false } } t ∧
        s.Replied t a 0x51 (.done [])) ∧
      (s.store.latch = false → ∀ c k, (∃ x, x ≤ 3 ∧ c = .storeSave a x ∧ k = 0x52) ∨
          (∃ x, x ≤ 4 ∧ c = .storeErase a x ∧ k = 0x53) ∨ (∃ x, x ≤ 1 ∧ c = .storeProtect a x ∧ k = 0x54) →
        ∃ t, exec c s = .next t ∧ QuietFrame (s.taken a.port) t ∧ s.Replied t a k (.refused .notEnabled [])) ∧
      (∀ c k, (∃ x, 3 < x ∧ c = .storeSave a x ∧ k = 0x52) ∨
          (∃ x, 4 < x ∧ c = .storeErase a x ∧ k = 0x53) ∨ (∃ x, 1 < x ∧ c = .storeProtect a x ∧ k = 0x54) →
        ∃ t, exec c s = .next t ∧ QuietFrame { s.taken a.port with store := { s.store with latch := false } } t ∧
          s.Replied t a k (.refused .range [])) ∧
      (s.store.latch = true →
        (∀ k, k ≤ 3 → ¬ (k = 3 ∧ s.trip.protect = true) → ∃ t, exec (.storeSave a k) s = .next t ∧
          QuietFrame { s.taken a.port with store := t.store } t ∧ s.Replied t a 0x52 .accepted ∧
          t.store.op = some (.save (s.snapshot k)) ∧ t.store.latch = false ∧ t.store.Unreadable [k] ∧
          s.store.SameBut [k] t.store ∧ t.store.isModified k = false) ∧
        (s.trip.protect = true → ∀ k, k = 3 ∨ k = 4 → ∃ t u, exec (.storeSave a 3) s = .next t ∧
          exec (.storeErase a k) s = .next u ∧
          QuietFrame { s.taken a.port with store := { s.store with latch := false } } t ∧
          QuietFrame { s.taken a.port with store := { s.store with latch := false } } u ∧
          s.Replied t a 0x52 (.refused .protected_ []) ∧ s.Replied u a 0x53 (.refused .protected_ [])) ∧
        (∀ k l, (k ≤ 3 ∧ l = [k]) ∨ (k = 4 ∧ l = [0, 1, 2, 3]) → ¬ (3 ∈ l ∧ s.trip.protect = true) →
          ∃ t, exec (.storeErase a k) s = .next t ∧ QuietFrame { s.taken a.port with store := t.store } t ∧
            s.Replied t a 0x53 .accepted ∧ t.store.op = some (.erase k) ∧ t.store.latch = false ∧ t.store.Unreadable l ∧
            s.store.SameBut l t.store ∧ ∀ j ∈ l, t.store.isModified j = true) ∧
        ((∃ n, 1 ≤ n ∧ n ≤ 8 ∧ (s.stand n).mode ≠ .out ∧ (s.stand n).mode ≠ .ready) ∨
            (∃ i, i < 9 ∧ (s.span i).state ≠ .idle) →
          ∃ t, exec (.storeProtect a 0) s = .next t ∧
            QuietFrame { s.taken a.port with store := { s.store with latch := false } } t ∧
            s.Replied t a 0x54 (.refused .state [])) ∧
        (∀ k, k = 1 ∨ (k = 0 ∧ s.lineStopped = true) → ∃ t b, b = decide (k = 1) ∧ exec (.storeProtect a k) s = .next t ∧
          QuietFrame { s.taken a.port with store := t.store, trip := { s.trip with protect := b } } t ∧
          s.Replied t a 0x54 .accepted ∧ t.store.op = some (.protect (.trip ⟨s.tripContent.entries, s.trip.interval, b⟩)) ∧
          t.store.latch = false ∧ t.store.Unreadable [3] ∧ s.store.SameBut [3] t.store ∧ t.store.isModified 3 = false)))

/-- The completions (R180 to R182): a write that reads back as its snapshot makes its section valid with it; one that does not
leaves the section invalid with its modified flag set; an erase leaves every section named erased; the store is IDLE. A completion
that meets no operation, or one of another kind, changes nothing. A save that a power loss or the reset input interrupts leaves its section
invalid, so that the next start-up takes that section from its built-in content, and leaves the other sections untouched
(R183). That the read-back's verdict is an operand, and that a completion no operation calls for changes nothing, is log 26; the bytes
under a section's check code, and what an interrupted write leaves, are log 25; where the request's row starts is log 3. -/
def Obligations.StoreOperationsCompleteOrAreInterrupted : Prop :=
  (∀ (s : State) (ok : Bool),
    (∀ x c, (s.store.op = some (.save x) ∧ c = .storeSaveComplete ok) ∨ (s.store.op = some (.protect x) ∧
        c = .storeProtectComplete ok) → ∃ t, exec c s = .next t ∧ QuietFrame { s with store := t.store } t ∧
      t.store.op = none ∧ t.store.latch = s.store.latch ∧ s.store.SameBut [x.section_] t.store ∧
      (ok = true → t.store.Has x ∧ t.store.sections = s.store.sections) ∧
      (ok = false → s.store.SameBut [] { t.store with sections := s.store.sections } ∧ t.store.isModified x.section_ = true)) ∧
    (∀ k l, s.store.op = some (.erase k) → (k ≤ 3 ∧ l = [k]) ∨ (k = 4 ∧ l = [0, 1, 2, 3]) →
      ∃ t, exec .storeEraseComplete s = .next t ∧ QuietFrame { s with store := t.store } t ∧ t.store.op = none ∧
        t.store.latch = s.store.latch ∧ s.store.SameBut l t.store ∧ t.store.sections = s.store.sections ∧
        (0 ∈ l → t.store.ports = .erased) ∧ (1 ∈ l → t.store.channels = .erased) ∧ (2 ∈ l → t.store.stands = .erased) ∧
        (3 ∈ l → t.store.trip = .erased)) ∧
    ((∀ x, s.store.op ≠ some (.save x)) → exec (.storeSaveComplete ok) s = .next s) ∧
    ((∀ k, s.store.op ≠ some (.erase k)) → exec .storeEraseComplete s = .next s) ∧
    ((∀ x, s.store.op ≠ some (.protect x)) → exec (.storeProtectComplete ok) s = .next s)) ∧
  (∀ (s : State) (a : Arrival) (k : Nat) (c : Instr), s.Hears a → k ≤ 3 → s.store.op = none → s.store.latch = true →
    ¬ (k = 3 ∧ s.trip.protect = true) → c = .powerLoss ∨ c = .resetInputAssert →
    ∃ t u, exec (.storeSave a k) s = .next t ∧ exec c t = .next u ∧
      u.store.ports = (if k = 0 then .spoiled else s.store.ports) ∧
      u.store.channels = (if k = 1 then .spoiled else s.store.channels) ∧
      u.store.stands = (if k = 2 then .spoiled else s.store.stands) ∧
      u.store.trip = (if k = 3 then .spoiled else s.store.trip) ∧ u.store.op = none)

/-! ### Frames and requests as bytes (chapters 1 and 10) -/

/-- The check code (R2): the register starts at all ones and takes each message bit, most significant first, by a shift towards
the top and, when the bit shifted out differs from it, an exclusive-or with 0x1021; the digits 1 to 9 give 0x29B1; over a
message and two more bytes it ends at zero exactly when these are the message's code, high byte first; and the code a frame
is sent with is computed over its bytes. -/
def Obligations.CheckCodeOfAMessage : Prop :=
  checkCode [] = 0xFFFF#16 ∧
  (∀ l b, checkCode (l ++ [b]) = [7, 6, 5, 4, 3, 2, 1, 0].foldl
    (fun (r : BitVec 16) (i : Nat) => if r.getLsbD 15 ≠ b.getLsbD i then (r <<< 1) ^^^ 0x1021#16 else r <<< 1) (checkCode l)) ∧
  checkCode [0x31#8, 0x32#8, 0x33#8, 0x34#8, 0x35#8, 0x36#8, 0x37#8, 0x38#8, 0x39#8] = 0x29B1#16 ∧
  (∀ l hi lo, checkCode (l ++ [hi, lo]) = 0#16 ↔ hi ++ lo = checkCode l) ∧
  ∀ f : Frame, ∃ hi lo, f.bytes = f.message ++ [hi, lo] ∧ hi ++ lo = checkCode f.message

/-- A frame as sent is judged by its fields alone (R1, R5, R6, R7): it is valid, and read back whole, exactly when its payload
length suits its kind, its source and destination are allowed, and its enumerated fields hold defined codes; else it is
MALFORMED. -/
def Obligations.FramesAreJudgedByTheirFields : Prop :=
  ∀ (own : Nat) (f : Frame), f.payload.length ≤ 240 →
    ∃ good : Bool, judge own (symbolsOf f.bytes) = (if good then .valid f else .malformed) ∧
      (good = true ↔
        (match f.kind with
          | .sample => f.payload.length = 14 | .status => f.payload.length = 9 | .setpoint => f.payload.length = 7
          | .group => f.payload.length = 7 | .gap => f.payload.length = 7 | .stop => f.payload.length = 4
          | .manage => 2 ≤ f.payload.length | .reply => 3 ≤ f.payload.length | .notice => 6 ≤ f.payload.length
          | .pattern => f.payload.length = 66) ∧
        (if f.kind = .pattern then f.source = 0#8 ∧ f.dest = 0#8
          else f.source ≠ 0#8 ∧ f.source ≠ 255#8 ∧ f.source.toNat ≠ own ∧ f.dest ≠ 0#8) ∧
        (match f.kind with
          | .sample => (f.payload.getD 13 0#8).toNat ≤ 4
          | .status => (f.payload.getD 8 0#8).toNat ≤ 2
          | .setpoint => 1 ≤ (f.payload.getD 0 0#8).toNat ∧ (f.payload.getD 0 0#8).toNat ≤ 8 ∧
              1 ≤ (f.payload.getD 2 0#8).toNat ∧ (f.payload.getD 2 0#8).toNat ≤ 3
          | .group => (f.payload.getD 2 0#8).toNat = 2 ∨ (f.payload.getD 2 0#8).toNat = 3
          | .gap => (f.payload.getD 5 0#8).toNat < 64
          | .stop => (f.payload.getD 0 0#8).toNat ≤ 3
          | .manage | .reply | .notice | .pattern => True))

/-- Every request whose operands fit its fields is read back from the bytes that carry it (R172, R173): no operand of any of the 37
request forms is lost or confused with another. The widths are those of log 8. -/
def Obligations.RequestsAreReadBack : Prop :=
  ∀ (a : Arrival) (r : Request), (Request.row a r).WF → decodeRequest (requestCode r) (encodeRequest r) = .ok r
end

