-- ==== Sys2Proof/Laws/State.lean ====
section
/-! SUPPORT. Reading after writing: the numbered tables, and one small lemma per field and update of the state. -/

namespace Sys2Proof.Machine

variable {α : Type} {n : Nat}

theorem getAt_setAt (v : Vector α n) (d x : α) (i j : Nat) :
    getAt (setAt v i x) d j = if i = j ∧ i < n then x else getAt v d j := by
  unfold getAt setAt
  by_cases h : i = j
  · subst h
    by_cases hi : i < n
    · simp [hi]
    · simp [hi]
  · simp [h]

@[simp] theorem getAt_setAt_self (v : Vector α n) (d x : α) (i : Nat) (h : i < n) : getAt (setAt v i x) d i = x := by
  simp [getAt_setAt, h]

@[simp] theorem getAt_setAt_ne (v : Vector α n) (d x : α) (i j : Nat) (h : i ≠ j) :
    getAt (setAt v i x) d j = getAt v d j := by
  simp [getAt_setAt, h]

/-- A table written with what a function of the old content gives keeps every projection that function keeps. -/
theorem getAt_setAt_keep {β : Type} (π : α → β) (v : Vector α n) (d : α) (f : α → α) (h : ∀ x, π (f x) = π x)
    (i j : Nat) : π (getAt (setAt v i (f (getAt v d i))) d j) = π (getAt v d j) := by
  rw [getAt_setAt]
  split
  · rename_i hi; rw [h, hi.1]
  · rfl

/-! ### Ports -/

theorem Net.port_modPort (m : Net) (p q : Nat) (f : Port → Port) :
    (m.modPort p f).port q = if p = q ∧ p < 12 then f (m.port p) else m.port q := by
  simp only [Net.modPort, Net.port, getAt_setAt]

@[simp] theorem Net.port_modPort_self (m : Net) (p : Fin 12) (f : Port → Port) :
    (m.modPort p f).port p = f (m.port p) := by
  simp [Net.port_modPort]

theorem Net.port_modPort_keep {β : Type} (π : Port → β) (m : Net) (p q : Nat) (f : Port → Port)
    (h : ∀ P, π (f P) = π P) : π ((m.modPort p f).port q) = π (m.port q) :=
  getAt_setAt_keep π m.ports _ f h p q

@[simp] theorem Net.frames_modPort (m : Net) (p : Nat) (f : Port → Port) : (m.modPort p f).frames = m.frames := rfl
@[simp] theorem Net.nextId_modPort (m : Net) (p : Nat) (f : Port → Port) : (m.modPort p f).nextId = m.nextId := rfl
@[simp] theorem Net.dropped_modPort (m : Net) (p : Nat) (f : Port → Port) : (m.modPort p f).dropped = m.dropped := rfl

theorem State.port_modPort (s : State) (p q : Nat) (f : Port → Port) :
    (s.modPort p f).port q = if p = q ∧ p < 12 then f (s.port p) else s.port q :=
  Net.port_modPort s.net p q f

@[simp] theorem State.port_modPort_self (s : State) (p : Fin 12) (f : Port → Port) :
    (s.modPort p f).port p = f (s.port p) := by
  simp [State.port_modPort]

theorem State.port_modPort_keep {β : Type} (π : Port → β) (s : State) (p q : Nat) (f : Port → Port)
    (h : ∀ P, π (f P) = π P) : π ((s.modPort p f).port q) = π (s.port q) :=
  Net.port_modPort_keep π s.net p q f h

/-! ### Stands -/

theorem State.stand_modStand (s : State) (i j : Nat) (f : Stand → Stand) :
    (s.modStand i f).stand j = if i = j ∧ 1 ≤ i ∧ i ≤ 8 then f (s.stand i) else s.stand j := by
  by_cases h0 : i = 0
  · subst h0; simp [State.modStand]
  · by_cases hj : j = 0
    · subst hj; simp [State.stand, h0]
    · simp only [State.modStand, State.stand, h0, hj, if_false, getAt_setAt]
      by_cases h : i = j
      · subst h
        by_cases hi : i ≤ 8
        · have : i - 1 < 8 := by omega
          have : 1 ≤ i := by omega
          simp [*]
        · have : ¬ i - 1 < 8 := by omega
          simp [*]
      · have : ¬ i - 1 = j - 1 := by omega
        simp [h, this]

@[simp] theorem State.stand_modStand_fin (s : State) (i : Fin 8) (f : Stand → Stand) :
    (s.modStand (i + 1) f).stand (i + 1) = f (s.stand (i + 1)) := by
  have := i.isLt
  rw [State.stand_modStand]; simp

theorem State.stand_modStand_keep {β : Type} (π : Stand → β) (s : State) (i j : Nat) (f : Stand → Stand)
    (h : ∀ S, π (f S) = π S) : π ((s.modStand i f).stand j) = π (s.stand j) := by
  rw [State.stand_modStand]; split
  · rename_i hi; rw [h, hi.1]
  · rfl

/-! ### Spans, channels, entries, nodes -/

theorem State.span_modSpan (s : State) (i j : Nat) (f : Span → Span) :
    (s.modSpan i f).span j = if i = j ∧ i < 9 then f (s.span i) else s.span j := by
  simp only [State.modSpan, State.span, getAt_setAt]

theorem State.span_modSpan_keep {β : Type} (π : Span → β) (s : State) (i j : Nat) (f : Span → Span)
    (h : ∀ P, π (f P) = π P) : π ((s.modSpan i f).span j) = π (s.span j) :=
  getAt_setAt_keep π s.spans _ f h i j

theorem State.channel_modChannel (s : State) (i j : Nat) (f : Channel → Channel) :
    (s.modChannel i f).channel j = if i = j ∧ i < 32 then f (s.channel i) else s.channel j := by
  simp only [State.modChannel, State.channel, getAt_setAt]

theorem State.entry_modEntry (s : State) (i j : Nat) (f : TripEntry → TripEntry) :
    (s.modEntry i f).entry j = if i = j ∧ i < 64 then f (s.entry i) else s.entry j := by
  simp only [State.modEntry, State.entry, getAt_setAt]

theorem State.entry_modEntry_keep {β : Type} (π : TripEntry → β) (s : State) (i j : Nat) (f : TripEntry → TripEntry)
    (h : ∀ t, π (f t) = π t) : π ((s.modEntry i f).entry j) = π (s.entry j) :=
  getAt_setAt_keep π s.trip.entries _ f h i j

theorem State.node_setNode (s : State) (i j : Nat) (e : NodeEntry) :
    (s.setNode i e).node j = if i = j ∧ i < 256 then e else s.node j := by
  simp only [State.setNode, State.node, getAt_setAt]

end Sys2Proof.Machine
end

