-- ==== Sys2Proof/Laws/Fields.lean ====
section
/-! SUPPORT. One small lemma per field per update of the state: an update leaves every other field as it was. -/

namespace Sys2Proof.Machine

variable (s : State)


/-! ### modPort -/

@[simp] theorem State.phase_modPort (p : Nat) (f : Port → Port) : (s.modPort p f).phase = s.phase := rfl
@[simp] theorem State.resetInput_modPort (p : Nat) (f : Port → Port) : (s.modPort p f).resetInput = s.resetInput := rfl
@[simp] theorem State.supplyLow_modPort (p : Nat) (f : Port → Port) : (s.modPort p f).supplyLow = s.supplyLow := rfl
@[simp] theorem State.time_modPort (p : Nat) (f : Port → Port) : (s.modPort p f).time = s.time := rfl
@[simp] theorem State.part_modPort (p : Nat) (f : Port → Port) : (s.modPort p f).part = s.part := rfl
@[simp] theorem State.nodes_modPort (p : Nat) (f : Port → Port) : (s.modPort p f).nodes = s.nodes := rfl
@[simp] theorem State.channels_modPort (p : Nat) (f : Port → Port) : (s.modPort p f).channels = s.channels := rfl
@[simp] theorem State.spans_modPort (p : Nat) (f : Port → Port) : (s.modPort p f).spans = s.spans := rfl
@[simp] theorem State.stands_modPort (p : Nat) (f : Port → Port) : (s.modPort p f).stands = s.stands := rfl
@[simp] theorem State.group_modPort (p : Nat) (f : Port → Port) : (s.modPort p f).group = s.group := rfl
@[simp] theorem State.trip_modPort (p : Nat) (f : Port → Port) : (s.modPort p f).trip = s.trip := rfl
@[simp] theorem State.store_modPort (p : Nat) (f : Port → Port) : (s.modPort p f).store = s.store := rfl
@[simp] theorem State.freeCount_modPort (p : Nat) (f : Port → Port) : (s.modPort p f).freeCount = s.freeCount := rfl
@[simp] theorem State.pending_modPort (p : Nat) (f : Port → Port) : (s.modPort p f).pending = s.pending := rfl
@[simp] theorem State.node_modPort (p : Nat) (f : Port → Port) (m : Nat) : (s.modPort p f).node m = s.node m := rfl
@[simp] theorem State.channel_modPort (p : Nat) (f : Port → Port) (c' : Nat) : (s.modPort p f).channel c' = s.channel c' := rfl
@[simp] theorem State.span_modPort (p : Nat) (f : Port → Port) (j : Nat) : (s.modPort p f).span j = s.span j := rfl
@[simp] theorem State.stand_modPort (p : Nat) (f : Port → Port) (m : Nat) : (s.modPort p f).stand m = s.stand m := rfl
@[simp] theorem State.entry_modPort (p : Nat) (f : Port → Port) (e' : Nat) : (s.modPort p f).entry e' = s.entry e' := rfl

/-! ### setNode -/

@[simp] theorem State.phase_setNode (n : Nat) (e : NodeEntry) : (s.setNode n e).phase = s.phase := rfl
@[simp] theorem State.resetInput_setNode (n : Nat) (e : NodeEntry) : (s.setNode n e).resetInput = s.resetInput := rfl
@[simp] theorem State.supplyLow_setNode (n : Nat) (e : NodeEntry) : (s.setNode n e).supplyLow = s.supplyLow := rfl
@[simp] theorem State.time_setNode (n : Nat) (e : NodeEntry) : (s.setNode n e).time = s.time := rfl
@[simp] theorem State.part_setNode (n : Nat) (e : NodeEntry) : (s.setNode n e).part = s.part := rfl
@[simp] theorem State.net_setNode (n : Nat) (e : NodeEntry) : (s.setNode n e).net = s.net := rfl
@[simp] theorem State.channels_setNode (n : Nat) (e : NodeEntry) : (s.setNode n e).channels = s.channels := rfl
@[simp] theorem State.spans_setNode (n : Nat) (e : NodeEntry) : (s.setNode n e).spans = s.spans := rfl
@[simp] theorem State.stands_setNode (n : Nat) (e : NodeEntry) : (s.setNode n e).stands = s.stands := rfl
@[simp] theorem State.group_setNode (n : Nat) (e : NodeEntry) : (s.setNode n e).group = s.group := rfl
@[simp] theorem State.trip_setNode (n : Nat) (e : NodeEntry) : (s.setNode n e).trip = s.trip := rfl
@[simp] theorem State.store_setNode (n : Nat) (e : NodeEntry) : (s.setNode n e).store = s.store := rfl
@[simp] theorem State.freeCount_setNode (n : Nat) (e : NodeEntry) : (s.setNode n e).freeCount = s.freeCount := rfl
@[simp] theorem State.pending_setNode (n : Nat) (e : NodeEntry) : (s.setNode n e).pending = s.pending := rfl
@[simp] theorem State.port_setNode (n : Nat) (e : NodeEntry) (p' : Nat) : (s.setNode n e).port p' = s.port p' := rfl
@[simp] theorem State.channel_setNode (n : Nat) (e : NodeEntry) (c' : Nat) : (s.setNode n e).channel c' = s.channel c' := rfl
@[simp] theorem State.span_setNode (n : Nat) (e : NodeEntry) (j : Nat) : (s.setNode n e).span j = s.span j := rfl
@[simp] theorem State.stand_setNode (n : Nat) (e : NodeEntry) (m : Nat) : (s.setNode n e).stand m = s.stand m := rfl
@[simp] theorem State.entry_setNode (n : Nat) (e : NodeEntry) (e' : Nat) : (s.setNode n e).entry e' = s.entry e' := rfl

/-! ### modChannel -/

@[simp] theorem State.phase_modChannel (c : Nat) (f : Channel → Channel) : (s.modChannel c f).phase = s.phase := rfl
@[simp] theorem State.resetInput_modChannel (c : Nat) (f : Channel → Channel) : (s.modChannel c f).resetInput = s.resetInput := rfl
@[simp] theorem State.supplyLow_modChannel (c : Nat) (f : Channel → Channel) : (s.modChannel c f).supplyLow = s.supplyLow := rfl
@[simp] theorem State.time_modChannel (c : Nat) (f : Channel → Channel) : (s.modChannel c f).time = s.time := rfl
@[simp] theorem State.part_modChannel (c : Nat) (f : Channel → Channel) : (s.modChannel c f).part = s.part := rfl
@[simp] theorem State.net_modChannel (c : Nat) (f : Channel → Channel) : (s.modChannel c f).net = s.net := rfl
@[simp] theorem State.nodes_modChannel (c : Nat) (f : Channel → Channel) : (s.modChannel c f).nodes = s.nodes := rfl
@[simp] theorem State.spans_modChannel (c : Nat) (f : Channel → Channel) : (s.modChannel c f).spans = s.spans := rfl
@[simp] theorem State.stands_modChannel (c : Nat) (f : Channel → Channel) : (s.modChannel c f).stands = s.stands := rfl
@[simp] theorem State.group_modChannel (c : Nat) (f : Channel → Channel) : (s.modChannel c f).group = s.group := rfl
@[simp] theorem State.trip_modChannel (c : Nat) (f : Channel → Channel) : (s.modChannel c f).trip = s.trip := rfl
@[simp] theorem State.store_modChannel (c : Nat) (f : Channel → Channel) : (s.modChannel c f).store = s.store := rfl
@[simp] theorem State.freeCount_modChannel (c : Nat) (f : Channel → Channel) : (s.modChannel c f).freeCount = s.freeCount := rfl
@[simp] theorem State.pending_modChannel (c : Nat) (f : Channel → Channel) : (s.modChannel c f).pending = s.pending := rfl
@[simp] theorem State.port_modChannel (c : Nat) (f : Channel → Channel) (p' : Nat) : (s.modChannel c f).port p' = s.port p' := rfl
@[simp] theorem State.node_modChannel (c : Nat) (f : Channel → Channel) (m : Nat) : (s.modChannel c f).node m = s.node m := rfl
@[simp] theorem State.span_modChannel (c : Nat) (f : Channel → Channel) (j : Nat) : (s.modChannel c f).span j = s.span j := rfl
@[simp] theorem State.stand_modChannel (c : Nat) (f : Channel → Channel) (m : Nat) : (s.modChannel c f).stand m = s.stand m := rfl
@[simp] theorem State.entry_modChannel (c : Nat) (f : Channel → Channel) (e' : Nat) : (s.modChannel c f).entry e' = s.entry e' := rfl

/-! ### modSpan -/

@[simp] theorem State.phase_modSpan (i : Nat) (f : Span → Span) : (s.modSpan i f).phase = s.phase := rfl
@[simp] theorem State.resetInput_modSpan (i : Nat) (f : Span → Span) : (s.modSpan i f).resetInput = s.resetInput := rfl
@[simp] theorem State.supplyLow_modSpan (i : Nat) (f : Span → Span) : (s.modSpan i f).supplyLow = s.supplyLow := rfl
@[simp] theorem State.time_modSpan (i : Nat) (f : Span → Span) : (s.modSpan i f).time = s.time := rfl
@[simp] theorem State.part_modSpan (i : Nat) (f : Span → Span) : (s.modSpan i f).part = s.part := rfl
@[simp] theorem State.net_modSpan (i : Nat) (f : Span → Span) : (s.modSpan i f).net = s.net := rfl
@[simp] theorem State.nodes_modSpan (i : Nat) (f : Span → Span) : (s.modSpan i f).nodes = s.nodes := rfl
@[simp] theorem State.channels_modSpan (i : Nat) (f : Span → Span) : (s.modSpan i f).channels = s.channels := rfl
@[simp] theorem State.stands_modSpan (i : Nat) (f : Span → Span) : (s.modSpan i f).stands = s.stands := rfl
@[simp] theorem State.group_modSpan (i : Nat) (f : Span → Span) : (s.modSpan i f).group = s.group := rfl
@[simp] theorem State.trip_modSpan (i : Nat) (f : Span → Span) : (s.modSpan i f).trip = s.trip := rfl
@[simp] theorem State.store_modSpan (i : Nat) (f : Span → Span) : (s.modSpan i f).store = s.store := rfl
@[simp] theorem State.freeCount_modSpan (i : Nat) (f : Span → Span) : (s.modSpan i f).freeCount = s.freeCount := rfl
@[simp] theorem State.pending_modSpan (i : Nat) (f : Span → Span) : (s.modSpan i f).pending = s.pending := rfl
@[simp] theorem State.port_modSpan (i : Nat) (f : Span → Span) (p' : Nat) : (s.modSpan i f).port p' = s.port p' := rfl
@[simp] theorem State.node_modSpan (i : Nat) (f : Span → Span) (m : Nat) : (s.modSpan i f).node m = s.node m := rfl
@[simp] theorem State.channel_modSpan (i : Nat) (f : Span → Span) (c' : Nat) : (s.modSpan i f).channel c' = s.channel c' := rfl
@[simp] theorem State.stand_modSpan (i : Nat) (f : Span → Span) (m : Nat) : (s.modSpan i f).stand m = s.stand m := rfl
@[simp] theorem State.entry_modSpan (i : Nat) (f : Span → Span) (e' : Nat) : (s.modSpan i f).entry e' = s.entry e' := rfl

/-! ### modStand -/

@[simp] theorem State.phase_modStand (n : Nat) (f : Stand → Stand) : (s.modStand n f).phase = s.phase := by unfold State.modStand; split <;> rfl
@[simp] theorem State.resetInput_modStand (n : Nat) (f : Stand → Stand) : (s.modStand n f).resetInput = s.resetInput := by unfold State.modStand; split <;> rfl
@[simp] theorem State.supplyLow_modStand (n : Nat) (f : Stand → Stand) : (s.modStand n f).supplyLow = s.supplyLow := by unfold State.modStand; split <;> rfl
@[simp] theorem State.time_modStand (n : Nat) (f : Stand → Stand) : (s.modStand n f).time = s.time := by unfold State.modStand; split <;> rfl
@[simp] theorem State.part_modStand (n : Nat) (f : Stand → Stand) : (s.modStand n f).part = s.part := by unfold State.modStand; split <;> rfl
@[simp] theorem State.net_modStand (n : Nat) (f : Stand → Stand) : (s.modStand n f).net = s.net := by unfold State.modStand; split <;> rfl
@[simp] theorem State.nodes_modStand (n : Nat) (f : Stand → Stand) : (s.modStand n f).nodes = s.nodes := by unfold State.modStand; split <;> rfl
@[simp] theorem State.channels_modStand (n : Nat) (f : Stand → Stand) : (s.modStand n f).channels = s.channels := by unfold State.modStand; split <;> rfl
@[simp] theorem State.spans_modStand (n : Nat) (f : Stand → Stand) : (s.modStand n f).spans = s.spans := by unfold State.modStand; split <;> rfl
@[simp] theorem State.group_modStand (n : Nat) (f : Stand → Stand) : (s.modStand n f).group = s.group := by unfold State.modStand; split <;> rfl
@[simp] theorem State.trip_modStand (n : Nat) (f : Stand → Stand) : (s.modStand n f).trip = s.trip := by unfold State.modStand; split <;> rfl
@[simp] theorem State.store_modStand (n : Nat) (f : Stand → Stand) : (s.modStand n f).store = s.store := by unfold State.modStand; split <;> rfl
@[simp] theorem State.freeCount_modStand (n : Nat) (f : Stand → Stand) : (s.modStand n f).freeCount = s.freeCount := by unfold State.modStand; split <;> rfl
@[simp] theorem State.pending_modStand (n : Nat) (f : Stand → Stand) : (s.modStand n f).pending = s.pending := by unfold State.modStand; split <;> rfl
@[simp] theorem State.port_modStand (n : Nat) (f : Stand → Stand) (p' : Nat) : (s.modStand n f).port p' = s.port p' := by unfold State.modStand; split <;> rfl
@[simp] theorem State.node_modStand (n : Nat) (f : Stand → Stand) (m : Nat) : (s.modStand n f).node m = s.node m := by unfold State.modStand; split <;> rfl
@[simp] theorem State.channel_modStand (n : Nat) (f : Stand → Stand) (c' : Nat) : (s.modStand n f).channel c' = s.channel c' := by unfold State.modStand; split <;> rfl
@[simp] theorem State.span_modStand (n : Nat) (f : Stand → Stand) (j : Nat) : (s.modStand n f).span j = s.span j := by unfold State.modStand; split <;> rfl
@[simp] theorem State.entry_modStand (n : Nat) (f : Stand → Stand) (e' : Nat) : (s.modStand n f).entry e' = s.entry e' := by unfold State.modStand; split <;> rfl

/-! ### modEntry -/

@[simp] theorem State.phase_modEntry (e : Nat) (f : TripEntry → TripEntry) : (s.modEntry e f).phase = s.phase := rfl
@[simp] theorem State.resetInput_modEntry (e : Nat) (f : TripEntry → TripEntry) : (s.modEntry e f).resetInput = s.resetInput := rfl
@[simp] theorem State.supplyLow_modEntry (e : Nat) (f : TripEntry → TripEntry) : (s.modEntry e f).supplyLow = s.supplyLow := rfl
@[simp] theorem State.time_modEntry (e : Nat) (f : TripEntry → TripEntry) : (s.modEntry e f).time = s.time := rfl
@[simp] theorem State.part_modEntry (e : Nat) (f : TripEntry → TripEntry) : (s.modEntry e f).part = s.part := rfl
@[simp] theorem State.net_modEntry (e : Nat) (f : TripEntry → TripEntry) : (s.modEntry e f).net = s.net := rfl
@[simp] theorem State.nodes_modEntry (e : Nat) (f : TripEntry → TripEntry) : (s.modEntry e f).nodes = s.nodes := rfl
@[simp] theorem State.channels_modEntry (e : Nat) (f : TripEntry → TripEntry) : (s.modEntry e f).channels = s.channels := rfl
@[simp] theorem State.spans_modEntry (e : Nat) (f : TripEntry → TripEntry) : (s.modEntry e f).spans = s.spans := rfl
@[simp] theorem State.stands_modEntry (e : Nat) (f : TripEntry → TripEntry) : (s.modEntry e f).stands = s.stands := rfl
@[simp] theorem State.group_modEntry (e : Nat) (f : TripEntry → TripEntry) : (s.modEntry e f).group = s.group := rfl
@[simp] theorem State.store_modEntry (e : Nat) (f : TripEntry → TripEntry) : (s.modEntry e f).store = s.store := rfl
@[simp] theorem State.freeCount_modEntry (e : Nat) (f : TripEntry → TripEntry) : (s.modEntry e f).freeCount = s.freeCount := rfl
@[simp] theorem State.pending_modEntry (e : Nat) (f : TripEntry → TripEntry) : (s.modEntry e f).pending = s.pending := rfl
@[simp] theorem State.port_modEntry (e : Nat) (f : TripEntry → TripEntry) (p' : Nat) : (s.modEntry e f).port p' = s.port p' := rfl
@[simp] theorem State.node_modEntry (e : Nat) (f : TripEntry → TripEntry) (m : Nat) : (s.modEntry e f).node m = s.node m := rfl
@[simp] theorem State.channel_modEntry (e : Nat) (f : TripEntry → TripEntry) (c' : Nat) : (s.modEntry e f).channel c' = s.channel c' := rfl
@[simp] theorem State.span_modEntry (e : Nat) (f : TripEntry → TripEntry) (j : Nat) : (s.modEntry e f).span j = s.span j := rfl
@[simp] theorem State.stand_modEntry (e : Nat) (f : TripEntry → TripEntry) (m : Nat) : (s.modEntry e f).stand m = s.stand m := rfl

/-! ### modStore -/

@[simp] theorem State.phase_modStore (f : Store → Store) : (s.modStore f).phase = s.phase := rfl
@[simp] theorem State.resetInput_modStore (f : Store → Store) : (s.modStore f).resetInput = s.resetInput := rfl
@[simp] theorem State.supplyLow_modStore (f : Store → Store) : (s.modStore f).supplyLow = s.supplyLow := rfl
@[simp] theorem State.time_modStore (f : Store → Store) : (s.modStore f).time = s.time := rfl
@[simp] theorem State.part_modStore (f : Store → Store) : (s.modStore f).part = s.part := rfl
@[simp] theorem State.net_modStore (f : Store → Store) : (s.modStore f).net = s.net := rfl
@[simp] theorem State.nodes_modStore (f : Store → Store) : (s.modStore f).nodes = s.nodes := rfl
@[simp] theorem State.channels_modStore (f : Store → Store) : (s.modStore f).channels = s.channels := rfl
@[simp] theorem State.spans_modStore (f : Store → Store) : (s.modStore f).spans = s.spans := rfl
@[simp] theorem State.stands_modStore (f : Store → Store) : (s.modStore f).stands = s.stands := rfl
@[simp] theorem State.group_modStore (f : Store → Store) : (s.modStore f).group = s.group := rfl
@[simp] theorem State.trip_modStore (f : Store → Store) : (s.modStore f).trip = s.trip := rfl
@[simp] theorem State.freeCount_modStore (f : Store → Store) : (s.modStore f).freeCount = s.freeCount := rfl
@[simp] theorem State.pending_modStore (f : Store → Store) : (s.modStore f).pending = s.pending := rfl
@[simp] theorem State.port_modStore (f : Store → Store) (p' : Nat) : (s.modStore f).port p' = s.port p' := rfl
@[simp] theorem State.node_modStore (f : Store → Store) (m : Nat) : (s.modStore f).node m = s.node m := rfl
@[simp] theorem State.channel_modStore (f : Store → Store) (c' : Nat) : (s.modStore f).channel c' = s.channel c' := rfl
@[simp] theorem State.span_modStore (f : Store → Store) (j : Nat) : (s.modStore f).span j = s.span j := rfl
@[simp] theorem State.stand_modStore (f : Store → Store) (m : Nat) : (s.modStore f).stand m = s.stand m := rfl
@[simp] theorem State.entry_modStore (f : Store → Store) (e' : Nat) : (s.modStore f).entry e' = s.entry e' := rfl

/-! ### setModified -/

@[simp] theorem State.phase_setModified (k : Nat) : (s.setModified k).phase = s.phase := rfl
@[simp] theorem State.resetInput_setModified (k : Nat) : (s.setModified k).resetInput = s.resetInput := rfl
@[simp] theorem State.supplyLow_setModified (k : Nat) : (s.setModified k).supplyLow = s.supplyLow := rfl
@[simp] theorem State.time_setModified (k : Nat) : (s.setModified k).time = s.time := rfl
@[simp] theorem State.part_setModified (k : Nat) : (s.setModified k).part = s.part := rfl
@[simp] theorem State.net_setModified (k : Nat) : (s.setModified k).net = s.net := rfl
@[simp] theorem State.nodes_setModified (k : Nat) : (s.setModified k).nodes = s.nodes := rfl
@[simp] theorem State.channels_setModified (k : Nat) : (s.setModified k).channels = s.channels := rfl
@[simp] theorem State.spans_setModified (k : Nat) : (s.setModified k).spans = s.spans := rfl
@[simp] theorem State.stands_setModified (k : Nat) : (s.setModified k).stands = s.stands := rfl
@[simp] theorem State.group_setModified (k : Nat) : (s.setModified k).group = s.group := rfl
@[simp] theorem State.trip_setModified (k : Nat) : (s.setModified k).trip = s.trip := rfl
@[simp] theorem State.freeCount_setModified (k : Nat) : (s.setModified k).freeCount = s.freeCount := rfl
@[simp] theorem State.pending_setModified (k : Nat) : (s.setModified k).pending = s.pending := rfl
@[simp] theorem State.port_setModified (k : Nat) (p' : Nat) : (s.setModified k).port p' = s.port p' := rfl
@[simp] theorem State.node_setModified (k : Nat) (m : Nat) : (s.setModified k).node m = s.node m := rfl
@[simp] theorem State.channel_setModified (k : Nat) (c' : Nat) : (s.setModified k).channel c' = s.channel c' := rfl
@[simp] theorem State.span_setModified (k : Nat) (j : Nat) : (s.setModified k).span j = s.span j := rfl
@[simp] theorem State.stand_setModified (k : Nat) (m : Nat) : (s.setModified k).stand m = s.stand m := rfl
@[simp] theorem State.entry_setModified (k : Nat) (e' : Nat) : (s.setModified k).entry e' = s.entry e' := rfl

/-! ### notice -/

@[simp] theorem State.phase_notice (k : NoticeKind) (x : Nat) (l : List Byte) : (s.notice k x l).phase = s.phase := rfl
@[simp] theorem State.resetInput_notice (k : NoticeKind) (x : Nat) (l : List Byte) : (s.notice k x l).resetInput = s.resetInput := rfl
@[simp] theorem State.supplyLow_notice (k : NoticeKind) (x : Nat) (l : List Byte) : (s.notice k x l).supplyLow = s.supplyLow := rfl
@[simp] theorem State.time_notice (k : NoticeKind) (x : Nat) (l : List Byte) : (s.notice k x l).time = s.time := rfl
@[simp] theorem State.part_notice (k : NoticeKind) (x : Nat) (l : List Byte) : (s.notice k x l).part = s.part := rfl
@[simp] theorem State.nodes_notice (k : NoticeKind) (x : Nat) (l : List Byte) : (s.notice k x l).nodes = s.nodes := rfl
@[simp] theorem State.channels_notice (k : NoticeKind) (x : Nat) (l : List Byte) : (s.notice k x l).channels = s.channels := rfl
@[simp] theorem State.spans_notice (k : NoticeKind) (x : Nat) (l : List Byte) : (s.notice k x l).spans = s.spans := rfl
@[simp] theorem State.stands_notice (k : NoticeKind) (x : Nat) (l : List Byte) : (s.notice k x l).stands = s.stands := rfl
@[simp] theorem State.group_notice (k : NoticeKind) (x : Nat) (l : List Byte) : (s.notice k x l).group = s.group := rfl
@[simp] theorem State.trip_notice (k : NoticeKind) (x : Nat) (l : List Byte) : (s.notice k x l).trip = s.trip := rfl
@[simp] theorem State.store_notice (k : NoticeKind) (x : Nat) (l : List Byte) : (s.notice k x l).store = s.store := rfl
@[simp] theorem State.freeCount_notice (k : NoticeKind) (x : Nat) (l : List Byte) : (s.notice k x l).freeCount = s.freeCount := rfl
@[simp] theorem State.pending_notice (k : NoticeKind) (x : Nat) (l : List Byte) : (s.notice k x l).pending = s.pending := rfl
@[simp] theorem State.node_notice (k : NoticeKind) (x : Nat) (l : List Byte) (m : Nat) : (s.notice k x l).node m = s.node m := rfl
@[simp] theorem State.channel_notice (k : NoticeKind) (x : Nat) (l : List Byte) (c' : Nat) : (s.notice k x l).channel c' = s.channel c' := rfl
@[simp] theorem State.span_notice (k : NoticeKind) (x : Nat) (l : List Byte) (j : Nat) : (s.notice k x l).span j = s.span j := rfl
@[simp] theorem State.stand_notice (k : NoticeKind) (x : Nat) (l : List Byte) (m : Nat) : (s.notice k x l).stand m = s.stand m := rfl
@[simp] theorem State.entry_notice (k : NoticeKind) (x : Nat) (l : List Byte) (e' : Nat) : (s.notice k x l).entry e' = s.entry e' := rfl

/-! ### reply -/

@[simp] theorem State.phase_reply (a : Arrival) (c : Nat) (r : Answer) : (s.reply a c r).phase = s.phase := rfl
@[simp] theorem State.resetInput_reply (a : Arrival) (c : Nat) (r : Answer) : (s.reply a c r).resetInput = s.resetInput := rfl
@[simp] theorem State.supplyLow_reply (a : Arrival) (c : Nat) (r : Answer) : (s.reply a c r).supplyLow = s.supplyLow := rfl
@[simp] theorem State.time_reply (a : Arrival) (c : Nat) (r : Answer) : (s.reply a c r).time = s.time := rfl
@[simp] theorem State.part_reply (a : Arrival) (c : Nat) (r : Answer) : (s.reply a c r).part = s.part := rfl
@[simp] theorem State.nodes_reply (a : Arrival) (c : Nat) (r : Answer) : (s.reply a c r).nodes = s.nodes := rfl
@[simp] theorem State.channels_reply (a : Arrival) (c : Nat) (r : Answer) : (s.reply a c r).channels = s.channels := rfl
@[simp] theorem State.spans_reply (a : Arrival) (c : Nat) (r : Answer) : (s.reply a c r).spans = s.spans := rfl
@[simp] theorem State.stands_reply (a : Arrival) (c : Nat) (r : Answer) : (s.reply a c r).stands = s.stands := rfl
@[simp] theorem State.group_reply (a : Arrival) (c : Nat) (r : Answer) : (s.reply a c r).group = s.group := rfl
@[simp] theorem State.trip_reply (a : Arrival) (c : Nat) (r : Answer) : (s.reply a c r).trip = s.trip := rfl
@[simp] theorem State.store_reply (a : Arrival) (c : Nat) (r : Answer) : (s.reply a c r).store = s.store := rfl
@[simp] theorem State.freeCount_reply (a : Arrival) (c : Nat) (r : Answer) : (s.reply a c r).freeCount = s.freeCount := rfl
@[simp] theorem State.pending_reply (a : Arrival) (c : Nat) (r : Answer) : (s.reply a c r).pending = s.pending := rfl
@[simp] theorem State.node_reply (a : Arrival) (c : Nat) (r : Answer) (m : Nat) : (s.reply a c r).node m = s.node m := rfl
@[simp] theorem State.channel_reply (a : Arrival) (c : Nat) (r : Answer) (c' : Nat) : (s.reply a c r).channel c' = s.channel c' := rfl
@[simp] theorem State.span_reply (a : Arrival) (c : Nat) (r : Answer) (j : Nat) : (s.reply a c r).span j = s.span j := rfl
@[simp] theorem State.stand_reply (a : Arrival) (c : Nat) (r : Answer) (m : Nat) : (s.reply a c r).stand m = s.stand m := rfl
@[simp] theorem State.entry_reply (a : Arrival) (c : Nat) (r : Answer) (e' : Nat) : (s.reply a c r).entry e' = s.entry e' := rfl

/-! ### Updates that leave their own unit's other parts -/

@[simp] theorem State.dropped_modPort (p : Nat) (f : Port → Port) : (s.modPort p f).net.dropped = s.net.dropped := rfl
@[simp] theorem State.frames_modPort (p : Nat) (f : Port → Port) : (s.modPort p f).net.frames = s.net.frames := rfl
@[simp] theorem State.nextId_modPort (p : Nat) (f : Port → Port) : (s.modPort p f).net.nextId = s.net.nextId := rfl
@[simp] theorem State.interval_modEntry (e : Nat) (f : TripEntry → TripEntry) :
    (s.modEntry e f).trip.interval = s.trip.interval := rfl
@[simp] theorem State.protect_modEntry (e : Nat) (f : TripEntry → TripEntry) :
    (s.modEntry e f).trip.protect = s.trip.protect := rfl
@[simp] theorem State.log_modEntry (e : Nat) (f : TripEntry → TripEntry) : (s.modEntry e f).trip.log = s.trip.log := rfl

end Sys2Proof.Machine
end

