-- ==== Sys2Proof/Laws/Net.lean ====
section
/-! SUPPORT. What the frame buffer's operations do, said once each: queues, references, and frames of the part's own making
(R43, R45, R49, R61). -/

namespace Sys2Proof.Machine

variable {n m k : Net} {s t u : State}

/-! ### The relations compose -/

theorem Net.KeepsQueues.refl (n : Net) : n.KeepsQueues n := fun _ => ⟨[], by simp⟩

theorem Net.KeepsQueues.trans (h : n.KeepsQueues m) (g : m.KeepsQueues k) : n.KeepsQueues k := fun p => by
  obtain ⟨a, ha, hl⟩ := h p
  obtain ⟨b, hb, gl⟩ := g p
  refine ⟨a ++ b, by rw [hb, ha, List.append_assoc], fun hne => ?_⟩
  by_cases hb0 : b = []
  · subst hb0
    rw [List.append_nil] at hb hne
    rw [hb]; exact hl hne
  · exact gl hb0

/-- Queues that are equal are kept. -/
theorem Net.KeepsQueues.of_eq (h : ∀ p, (m.port p).queue = (n.port p).queue) : n.KeepsQueues m :=
  fun p => ⟨[], by simp [h p]⟩

theorem Net.KeepsFrames.refl (n : Net) : n.KeepsFrames n := fun h =>
  ⟨h, le_refl _, List.filter_eq_self.2 fun x hx => by simpa using h.ids x hx⟩

theorem Net.KeepsFrames.trans (h : n.KeepsFrames m) (g : m.KeepsFrames k) : n.KeepsFrames k := fun hs => by
  obtain ⟨hm, hle, hf⟩ := h hs
  obtain ⟨gk, gle, gf⟩ := g hm
  refine ⟨gk, le_trans hle gle, ?_⟩
  rw [← hf, ← gf, List.filter_filter]
  congr 1
  funext x
  have : x.id < n.nextId → x.id < m.nextId := fun h => lt_of_lt_of_le h hle
  by_cases hx : x.id < n.nextId <;> simp [hx, this]

/-- Nothing in the buffer has changed. -/
theorem Net.KeepsFrames.of_eq (h : m.frames = n.frames) (g : m.nextId = n.nextId) : n.KeepsFrames m := fun hs => by
  have := Net.KeepsFrames.refl n hs
  refine ⟨⟨?_, ?_, ?_⟩, by omega, by rw [h]; exact this.2.2⟩
  · rw [h]; exact hs.refs
  · rw [h, g]; exact hs.ids
  · rw [h]; exact hs.nodup

theorem Net.KeepsExact.refl (n : Net) : n.KeepsExact n := fun _ h => h

theorem Net.KeepsExact.trans (h : n.KeepsExact m) (g : m.KeepsExact k) : n.KeepsExact k := fun x hx => g x (h x hx)

theorem Net.Quiet.refl (n : Net) : n.Quiet n := ⟨fun _ => rfl, .refl n, .refl n, .refl n⟩

theorem Net.Quiet.trans (h : n.Quiet m) (g : m.Quiet k) : n.Quiet k :=
  ⟨fun p => (g.ports p).trans (h.ports p), h.queues.trans g.queues, h.frames.trans g.frames, h.exact.trans g.exact⟩

theorem QuietFrame.refl (s : State) : QuietFrame s s := ⟨rfl, .refl _⟩

theorem QuietFrame.trans (h : QuietFrame s t) (g : QuietFrame t u) : QuietFrame s u :=
  ⟨by rw [g.rest, h.rest], h.net.trans g.net⟩

/-! ### One port changed -/

theorem Net.Sound.modPort (h : n.Sound) (p : Nat) (f : Port → Port) : (n.modPort p f).Sound := ⟨h.refs, h.ids, h.nodup⟩

/-- A change of one port that keeps its queue keeps every queue. -/
theorem Net.KeepsQueues.modPort (n : Net) (p : Nat) (f : Port → Port) (h : ∀ P, (f P).queue = P.queue) :
    n.KeepsQueues (n.modPort p f) := .of_eq fun q => Net.port_modPort_keep Port.queue n p q f h

/-- A change of one port keeps every frame. -/
theorem Net.KeepsFrames.modPort (n : Net) (p : Nat) (f : Port → Port) : n.KeepsFrames (n.modPort p f) := .of_eq rfl rfl

theorem PortCounters.queueFull_unqueued (c : PortCounters) :
    ({ c.count .queueFull with queueFull := 0 } : PortCounters) = { c with queueFull := 0 } := rfl

/-! ### References (R43) -/

/-- The references of the other ports are as they were. -/
theorem Net.refsTo_modPort (n : Net) (p : Nat) (f : Port → Port) (id : Nat) (hp : p < 12) :
    (n.modPort p f).refsTo id + (n.port p).refsTo id = n.refsTo id + (f (n.port p)).refsTo id := by
  unfold Net.refsTo portNumbers
  simp only [Net.port_modPort, List.map_cons, List.map_nil, List.sum_cons, List.sum_nil]
  interval_cases p <;> simp <;> omega

theorem Net.modPort_outside (n : Net) (p : Nat) (f : Port → Port) (hp : ¬ p < 12) : n.modPort p f = n := by
  have : setAt n.ports p (f (n.port p)) = n.ports := by
    simp [setAt, Vector.setIfInBounds_eq_of_size_le (by omega : 12 ≤ p)]
  simp only [Net.modPort, this]

/-- A port whose references have not changed leaves the references as they were. -/
theorem Net.refsTo_modPort_same (n : Net) (p : Nat) (f : Port → Port)
    (h : ∀ id, (f (n.port p)).refsTo id = (n.port p).refsTo id) (id : Nat) : (n.modPort p f).refsTo id = n.refsTo id := by
  by_cases hp : p < 12
  · have := Net.refsTo_modPort n p f id hp
    rw [h id] at this; omega
  · rw [Net.modPort_outside n p f hp]

theorem Net.KeepsExact.modPort (n : Net) (p : Nat) (f : Port → Port)
    (h : ∀ id, (f (n.port p)).refsTo id = (n.port p).refsTo id) : n.KeepsExact (n.modPort p f) := fun x hx =>
  { refs := hx.refs, ids := hx.ids, nodup := hx.nodup,
    count := fun g hg => by rw [Net.refsTo_modPort_same n p f h]; exact hx.count g hg,
    named := fun id hid => hx.named id (by rw [← Net.refsTo_modPort_same n p f h]; exact hid) }

/-- A new port table whose references are the old ones. -/
theorem Net.KeepsExact.of_ports (n m : Net) (h : ∀ p, (m.port p).queue = (n.port p).queue)
    (g : ∀ p, (m.port p).sending = (n.port p).sending) (hf : m.frames = n.frames) (hn : m.nextId = n.nextId) :
    n.KeepsExact m := fun x hx => by
  have hr : ∀ id, m.refsTo id = n.refsTo id := fun id => by simp only [Net.refsTo, Port.refsTo, h, g]
  exact ⟨⟨by rw [hf]; exact hx.refs, by rw [hf, hn]; exact hx.ids, by rw [hf]; exact hx.nodup⟩,
    by rw [hf]; simpa only [hr] using hx.count, by rw [hf]; simpa only [hr] using hx.named⟩

/-- The frame named `id` is held by one more unit or queue than the counts say. -/
theorem Net.mem_of_named {units : List Nat} (hx : n.Exact units) {id : Nat} (h : id ∈ units) :
    id ∈ n.frames.map HeldFrame.id :=
  hx.named id (by have := List.count_pos_iff.2 h; omega)

/-! ### Copies in normal queues (R49, R59) -/

/-- The references of the frame named `id` are increased by `k`. -/
def addRefs (id k : Nat) (l : List HeldFrame) : List HeldFrame :=
  l.map fun h => if h.id = id then { h with refs := h.refs + k } else h

@[simp] theorem addRefs_zero (id : Nat) (l : List HeldFrame) : addRefs id 0 l = l := by
  unfold addRefs
  conv_rhs => rw [← List.map_id l]
  exact List.map_congr_left fun h _ => by split <;> rfl

theorem addRefs_add (id j k : Nat) (l : List HeldFrame) : addRefs id j (addRefs id k l) = addRefs id (k + j) l := by
  simp only [addRefs, List.map_map]
  refine List.map_congr_left fun h _ => ?_
  by_cases hx : h.id = id <;> simp [hx, Nat.add_assoc]

theorem addRefs_of_not_mem (id k : Nat) (l : List HeldFrame) (h : ∀ x ∈ l, x.id ≠ id) : addRefs id k l = l := by
  unfold addRefs
  conv_rhs => rw [← List.map_id l]
  exact List.map_congr_left fun x hx => by simp [h x hx]

/-- What a copy to one port does: ports, queue, references. -/
theorem Net.enqueue_spec (n : Net) (p id : Nat) :
    (∀ q, ((n.enqueue p id).1.port q).unqueued = (n.port q).unqueued) ∧ n.KeepsQueues (n.enqueue p id).1 ∧
    (n.enqueue p id).1.frames = addRefs id (if (n.enqueue p id).2 then 1 else 0) n.frames ∧
    (n.enqueue p id).1.nextId = n.nextId ∧ (n.enqueue p id).1.dropped = n.dropped := by
  unfold Net.enqueue
  by_cases h : (n.port p).queue.length < Config.queueCapacity
  · simp only [h, if_true]
    refine ⟨fun q => ?_, fun q => ?_, rfl, rfl, rfl⟩
    · exact Net.port_modPort_keep Port.unqueued n p q (fun P => { P with queue := P.queue ++ [id] }) fun P => rfl
    · change ∃ l, ((n.modPort p fun P => { P with queue := P.queue ++ [id] }).port q).queue = (n.port q).queue ++ l ∧
        (l ≠ [] → ((n.modPort p fun P => { P with queue := P.queue ++ [id] }).port q).queue.length ≤ Config.queueCapacity)
      rw [Net.port_modPort]
      split
      · rename_i hq
        rw [← hq.1]
        exact ⟨[id], rfl, fun _ => by simp only [List.length_append, List.length_singleton]; omega⟩
      · exact ⟨[], by simp⟩
  · simp only [h, if_false]
    refine ⟨fun q => ?_, ?_, by simp [Net.count], rfl, rfl⟩
    · exact Net.port_modPort_keep Port.unqueued n p q _ fun P => rfl
    · exact .modPort n p _ fun _ => rfl

/-- What copies to a list of ports do. -/
theorem Net.copies_spec (id : Nat) (ps : List Nat) (n : Net) :
    (∀ q, ((n.copies id ps).1.port q).unqueued = (n.port q).unqueued) ∧ n.KeepsQueues (n.copies id ps).1 ∧
    (n.copies id ps).1.frames = addRefs id (n.copies id ps).2 n.frames ∧
    (n.copies id ps).1.nextId = n.nextId ∧ (n.copies id ps).1.dropped = n.dropped := by
  induction ps generalizing n with
  | nil => exact ⟨fun _ => rfl, .refl n, (addRefs_zero id n.frames).symm, rfl, rfl⟩
  | cons p ps ih =>
    obtain ⟨a1, a2, a3, a4, a5⟩ := Net.enqueue_spec n p id
    obtain ⟨b1, b2, b3, b4, b5⟩ := ih (n.enqueue p id).1
    simp only [Net.copies]
    refine ⟨fun q => (b1 q).trans (a1 q), a2.trans b2, ?_, b4.trans a4, b5.trans a5⟩
    rw [b3, a3, addRefs_add]
    congr 1
    split <;> omega

theorem addRefs_ids (id k : Nat) (l : List HeldFrame) : (addRefs id k l).map HeldFrame.id = l.map HeldFrame.id := by
  unfold addRefs
  rw [List.map_map]
  exact List.map_congr_left fun h _ => by simp only [Function.comp]; split <;> rfl

theorem Net.enqueue_exact {units : List Nat} (n : Net) (p id : Nat) (hp : p < 12) (hx : n.Exact units)
    (hid : id ∈ n.frames.map HeldFrame.id) : (n.enqueue p id).1.Exact units := by
  unfold Net.enqueue
  by_cases h : (n.port p).queue.length < Config.queueCapacity
  · simp only [h, if_true]
    have hr : ∀ j, ((n.modPort p fun P => { P with queue := P.queue ++ [id] }).addRef id).refsTo j =
        n.refsTo j + if j = id then 1 else 0 := fun j => by
      have h1 := Net.refsTo_modPort n p (fun P => { P with queue := P.queue ++ [id] }) j hp
      have h2 : ({ n.port p with queue := (n.port p).queue ++ [id] } : Port).refsTo j =
          (n.port p).refsTo j + if j = id then 1 else 0 := by
        simp only [Port.refsTo, List.count_append, List.count_singleton, beq_iff_eq]
        by_cases hj : j = id
        · subst hj; simp; omega
        · simp [hj, Ne.symm hj]
      change (n.modPort p fun P => { P with queue := P.queue ++ [id] }).refsTo j = _
      rw [h2] at h1; omega
    have hf : ((n.modPort p fun P => { P with queue := P.queue ++ [id] }).addRef id).frames = addRefs id 1 n.frames := rfl
    refine ⟨⟨?_, ?_, ?_⟩, ?_, ?_⟩
    · rw [hf]; intro g hg
      obtain ⟨y, hy, rfl⟩ := List.mem_map.1 hg
      have := hx.refs y hy
      split
      · simp
      · simpa using this
    · rw [hf]; intro g hg
      obtain ⟨y, hy, rfl⟩ := List.mem_map.1 hg
      have := hx.ids y hy
      split <;> exact this
    · rw [hf, addRefs_ids]; exact hx.nodup
    · rw [hf]; intro g hg
      obtain ⟨y, hy, rfl⟩ := List.mem_map.1 hg
      have := hx.count y hy
      rw [hr]
      by_cases hy' : y.id = id
      · simp only [hy', if_true] at this ⊢; omega
      · simpa [hy'] using this
    · intro j hj
      rw [hf, addRefs_ids]
      rw [hr] at hj
      by_cases hji : j = id
      · rw [hji]; exact hid
      · exact hx.named j (by simpa [hji] using hj)
  · simp only [h, if_false]
    exact Net.KeepsExact.modPort n p (fun P => { P with counters := P.counters.count .queueFull }) (fun _ => rfl) units hx

theorem Net.copies_exact {units : List Nat} (id : Nat) (ps : List Nat) (n : Net) (hp : ∀ p ∈ ps, p < 12)
    (hx : n.Exact units) (hid : id ∈ n.frames.map HeldFrame.id) : (n.copies id ps).1.Exact units := by
  induction ps generalizing n with
  | nil => exact hx
  | cons p ps ih =>
    simp only [Net.copies]
    refine ih (n.enqueue p id).1 (fun q hq => hp q (by simp [hq])) (Net.enqueue_exact n p id (hp p (by simp)) hx hid) ?_
    rw [(Net.enqueue_spec n p id).2.2.1, addRefs_ids]; exact hid

theorem mem_portNumbers (p : Nat) : p ∈ portNumbers ↔ p < 12 := by
  simp only [portNumbers, List.mem_cons, List.not_mem_nil, or_false]; omega

theorem Net.upLines_lt (n : Net) (but : Option Nat) : ∀ p ∈ n.upLines but, p < 12 := fun p hp =>
  (mem_portNumbers p).1 (List.mem_filter.1 hp).1

/-! ### Releasing a frame (R43) -/

theorem filter_refs (l : List HeldFrame) (h : ∀ x ∈ l, x.refs ≠ 0) : l.filter (fun h => h.refs != 0) = l :=
  List.filter_eq_self.2 fun x hx => by simpa using h x hx

/-- Releasing the newest frame, the only one of its name, takes one reference from it. -/
theorem release_append (l : List HeldFrame) (x : HeldFrame) (hl : ∀ y ∈ l, y.refs ≠ 0) (hx : ∀ y ∈ l, y.id ≠ x.id) :
    ((l ++ [x]).map fun h => if h.id = x.id then { h with refs := h.refs - 1 } else h).filter (fun h => h.refs != 0) =
      l ++ if x.refs - 1 = 0 then [] else [{ x with refs := x.refs - 1 }] := by
  have hm : (l.map fun h => if h.id = x.id then { h with refs := h.refs - 1 } else h) = l := by
    conv_rhs => rw [← List.map_id l]
    exact List.map_congr_left fun y hy => by simp [hx y hy]
  rw [List.map_append, hm, List.filter_append, filter_refs l hl]
  congr 1
  by_cases h0 : x.refs - 1 = 0 <;> simp [h0]

theorem Net.release_exact {units : List Nat} (n : Net) (id : Nat) (hx : n.Exact (id :: units)) :
    (n.release id).Exact units := by
  have hsome : ∀ h ∈ n.frames, h.id = id → h.refs = n.refsTo id + units.count id + 1 := fun h hh hid => by
    have := hx.count h hh
    rw [hid, List.count_cons_self] at this; omega
  have hother : ∀ h ∈ n.frames, h.id ≠ id → h.refs = n.refsTo h.id + units.count h.id := fun h hh hid => by
    have := hx.count h hh
    rwa [List.count_cons_of_ne (Ne.symm hid)] at this
  have hmem : ∀ g, g ∈ (n.release id).frames ↔
      ∃ h ∈ n.frames, g = (if h.id = id then { h with refs := h.refs - 1 } else h) ∧ g.refs ≠ 0 := fun g => by
    simp only [Net.release, List.mem_filter, List.mem_map, bne_iff_ne]
    constructor
    · rintro ⟨⟨h, hh, rfl⟩, hg⟩; exact ⟨h, hh, rfl, hg⟩
    · rintro ⟨h, hh, rfl, hg⟩; exact ⟨⟨h, hh, rfl⟩, hg⟩
  have hids : ((n.release id).frames.map HeldFrame.id).Sublist (n.frames.map HeldFrame.id) := by
    have : n.frames.map HeldFrame.id =
        (n.frames.map fun h => if h.id = id then { h with refs := h.refs - 1 } else h).map HeldFrame.id := by
      rw [List.map_map]
      exact List.map_congr_left fun h _ => by simp only [Function.comp]; split <;> rfl
    rw [this]
    exact List.Sublist.map _ List.filter_sublist
  have hr : ∀ j, (n.release id).refsTo j = n.refsTo j := fun _ => rfl
  refine ⟨⟨?_, ?_, hx.nodup.sublist hids⟩, ?_, ?_⟩
  · intro g hg; obtain ⟨h, hh, rfl, hg0⟩ := (hmem g).1 hg; exact hg0
  · intro g hg; obtain ⟨h, hh, rfl, -⟩ := (hmem g).1 hg
    have := hx.ids h hh
    split <;> exact this
  · intro g hg; obtain ⟨h, hh, rfl, -⟩ := (hmem g).1 hg
    rw [hr]
    by_cases hid : h.id = id
    · have := hsome h hh hid
      simp only [hid, if_true]; omega
    · simp only [hid, if_false]; exact hother h hh hid
  · intro j hj
    rw [hr] at hj
    have : j ∈ n.frames.map HeldFrame.id := hx.named j (by
      rw [List.count_cons]; omega)
    obtain ⟨h, hh, rfl⟩ := List.mem_map.1 this
    by_cases hid : h.id = id
    · refine List.mem_map.2 ⟨{ h with refs := h.refs - 1 }, (hmem _).2 ⟨h, hh, by simp [hid], ?_⟩, rfl⟩
      have := hsome h hh hid
      simp only; rw [hid] at hj; omega
    · exact List.mem_map.2 ⟨h, (hmem _).2 ⟨h, hh, by simp [hid], by rw [hother h hh hid]; exact hj⟩, rfl⟩

theorem Net.hold_exact {units : List Nat} (n : Net) (f : Frame) (tags : List BlockTag) (hx : n.Exact units) :
    (n.hold f tags).Exact (n.nextId :: units) := by
  have hfresh : n.nextId ∉ n.frames.map HeldFrame.id := fun h => by
    obtain ⟨g, hg, hid⟩ := List.mem_map.1 h
    have := hx.ids g hg; omega
  have hzero : n.refsTo n.nextId + units.count n.nextId = 0 := by
    by_contra h; exact hfresh (hx.named _ h)
  have hf : (n.hold f tags).frames = n.frames ++ [⟨n.nextId, f, tags, 1⟩] := rfl
  have hr : ∀ j, (n.hold f tags).refsTo j = n.refsTo j := fun _ => rfl
  refine ⟨⟨?_, ?_, ?_⟩, ?_, ?_⟩
  · rw [hf]; intro g hg
    rcases List.mem_append.1 hg with hg | hg
    · exact hx.refs g hg
    · rw [List.mem_singleton.1 hg]; simp
  · rw [hf]; intro g hg
    change g.id < n.nextId + 1
    rcases List.mem_append.1 hg with hg | hg
    · have := hx.ids g hg; omega
    · rw [List.mem_singleton.1 hg]; simp
  · rw [hf, List.map_append, List.nodup_append]
    refine ⟨hx.nodup, by simp, ?_⟩
    intro a ha b hb
    simp only [List.map_cons, List.map_nil, List.mem_singleton] at hb
    rintro rfl; exact hfresh (hb ▸ ha)
  · rw [hf]; intro g hg
    rw [hr]
    rcases List.mem_append.1 hg with hg | hg
    · have := hx.ids g hg
      rw [List.count_cons_of_ne (by omega)]
      exact hx.count g hg
    · rw [List.mem_singleton.1 hg, List.count_cons_self]
      simp only; omega
  · intro j hj
    rw [hf, List.map_append, List.mem_append]
    by_cases hj' : j = n.nextId
    · right; simp [hj']
    · left
      exact hx.named j (by rwa [hr, List.count_cons_of_ne (Ne.symm hj')] at hj)

/-! ### Frames of the part's own making (R45, R61) -/

/-- A frame held by a unit, copied to ports and then released has as many references as copies were queued. -/
theorem Net.copied_frames (f : Frame) (tags : List BlockTag) (ports : List Nat) (n : Net) (hs : n.Sound) :
    (((n.hold f tags).copies n.nextId ports).1.release n.nextId).frames =
      n.frames ++ (if ((n.hold f tags).copies n.nextId ports).2 = 0 then []
        else [⟨n.nextId, f, tags, ((n.hold f tags).copies n.nextId ports).2⟩]) ∧
    (((n.hold f tags).copies n.nextId ports).1.release n.nextId).nextId = n.nextId + 1 := by
  have c3 := (Net.copies_spec n.nextId ports (n.hold f tags)).2.2.1
  have c4 := (Net.copies_spec n.nextId ports (n.hold f tags)).2.2.2.1
  generalize (n.hold f tags).copies n.nextId ports = r at c3 c4 ⊢
  have hnot : ∀ y ∈ n.frames, y.id ≠ n.nextId := fun y hy => Nat.ne_of_lt (hs.ids y hy)
  have hc : r.1.frames = n.frames ++ [⟨n.nextId, f, tags, 1 + r.2⟩] := by
    rw [c3]
    change addRefs _ _ (n.frames ++ [_]) = _
    rw [addRefs, List.map_append]
    congr 1
    · exact addRefs_of_not_mem _ _ _ hnot
    · simp
  refine ⟨?_, c4⟩
  have := release_append n.frames ⟨n.nextId, f, tags, 1 + r.2⟩ hs.refs hnot
  unfold Net.release
  rw [hc]
  refine this.trans ?_
  simp

/-- What building and queuing a frame does to a sound buffer: nothing, or one new frame with the name `n.nextId`. -/
theorem Net.originate_frames (f : Frame) (ports : List Nat) (n : Net) (hs : n.Sound) :
    ((n.originate f ports).frames = n.frames ∨
      ∃ h, h.id = n.nextId ∧ h.frame = f ∧ h.refs ≠ 0 ∧ (n.originate f ports).frames = n.frames ++ [h]) ∧
    ((n.originate f ports).nextId = n.nextId ∨ (n.originate f ports).nextId = n.nextId + 1) ∧
    ((n.originate f ports).frames ≠ n.frames → (n.originate f ports).nextId = n.nextId + 1) := by
  unfold Net.originate Net.build
  by_cases hb : blocksOf f ≤ n.sharedFree
  · simp only [hb, if_true]
    obtain ⟨hrel, hnext⟩ := Net.copied_frames f (List.replicate (blocksOf f) .shared) ports n hs
    generalize (n.hold f (List.replicate (blocksOf f) .shared)).copies n.nextId ports = r at hrel hnext ⊢
    by_cases hk : r.2 = 0
    · simp only [hk, if_true, List.append_nil] at hrel
      rw [if_pos hk]
      exact ⟨.inl hrel, .inr hnext, fun h => absurd hrel h⟩
    · simp only [hk, if_false] at hrel
      rw [if_neg hk]
      exact ⟨.inr ⟨⟨n.nextId, f, List.replicate (blocksOf f) .shared, r.2⟩, rfl, rfl, hk, hrel⟩, .inr hnext, fun _ => hnext⟩
  · simp only [hb, if_false]
    exact ⟨.inl rfl, .inl rfl, fun h => absurd rfl h⟩

theorem Net.originate_keepsFrames (f : Frame) (ports : List Nat) (n : Net) : n.KeepsFrames (n.originate f ports) := by
  intro hs
  obtain ⟨hf, hn, hne⟩ := Net.originate_frames f ports n hs
  have hself : (n.frames.filter fun h => decide (h.id < n.nextId)) = n.frames :=
    List.filter_eq_self.2 fun x hx => by simpa using hs.ids x hx
  have hle : n.nextId ≤ (n.originate f ports).nextId := by omega
  rcases hf with hf | ⟨h, hid, -, hr, hf⟩
  · exact ⟨⟨hf ▸ hs.refs, fun x hx => lt_of_lt_of_le (hs.ids x (hf ▸ hx)) hle, hf ▸ hs.nodup⟩, hle, by rw [hf, hself]⟩
  · have hnext : (n.originate f ports).nextId = n.nextId + 1 := hne (by rw [hf]; simp)
    refine ⟨⟨?_, ?_, ?_⟩, hle, ?_⟩
    · intro x hx
      rw [hf, List.mem_append, List.mem_singleton] at hx
      rcases hx with hx | rfl
      exacts [hs.refs x hx, hr]
    · intro x hx
      rw [hf, List.mem_append, List.mem_singleton] at hx
      rcases hx with hx | rfl
      · exact lt_of_lt_of_le (hs.ids x hx) hle
      · omega
    · rw [hf, List.map_append, List.nodup_append]
      refine ⟨hs.nodup, by simp, ?_⟩
      intro a ha b hb
      simp only [List.map_cons, List.map_nil, List.mem_singleton] at hb
      obtain ⟨x, hx, rfl⟩ := List.mem_map.1 ha
      have := hs.ids x hx
      omega
    · rw [hf, List.filter_append, hself]; simp [hid]

theorem Net.originate_exact (f : Frame) (ports : List Nat) (n : Net) (hp : ∀ p ∈ ports, p < 12) :
    n.KeepsExact (n.originate f ports) := fun units hx => by
  unfold Net.originate Net.build
  by_cases hb : blocksOf f ≤ n.sharedFree
  · simp only [hb, if_true]
    have h1 := Net.hold_exact n f (List.replicate (blocksOf f) .shared) hx
    have h2 := Net.copies_exact n.nextId ports _ hp h1 (Net.mem_of_named h1 (by simp))
    have h3 := Net.release_exact _ n.nextId h2
    split
    · exact ⟨⟨h3.refs, h3.ids, h3.nodup⟩, h3.count, h3.named⟩
    · exact h3
  · simp only [hb, if_false]; exact ⟨⟨hx.refs, hx.ids, hx.nodup⟩, hx.count, hx.named⟩

theorem Net.originate_quiet (f : Frame) (ports : List Nat) (n : Net) (hp : ∀ p ∈ ports, p < 12) :
    n.Quiet (n.originate f ports) := by
  refine ⟨?_, ?_, Net.originate_keepsFrames f ports n, Net.originate_exact f ports n hp⟩
  · intro q
    unfold Net.originate Net.build
    by_cases hb : blocksOf f ≤ n.sharedFree
    · simp only [hb, if_true]
      have c1 := (Net.copies_spec n.nextId ports
        { n with frames := n.frames ++ [⟨n.nextId, f, List.replicate (blocksOf f) .shared, 1⟩], nextId := n.nextId + 1 }).1 q
      split <;> exact c1
    · simp only [hb, if_false]; rfl
  · unfold Net.originate Net.build
    by_cases hb : blocksOf f ≤ n.sharedFree
    · simp only [hb, if_true]
      have c2 := (Net.copies_spec n.nextId ports
        { n with frames := n.frames ++ [⟨n.nextId, f, List.replicate (blocksOf f) .shared, 1⟩], nextId := n.nextId + 1 }).2.1
      split <;> exact c2
    · simp only [hb, if_false]; exact .refl n

theorem State.notice_quiet (k : NoticeKind) (x : Nat) (l : List Byte) (s : State) : QuietFrame s (s.notice k x l) :=
  ⟨rfl, Net.originate_quiet _ _ _ (Net.upLines_lt _ _)⟩

theorem State.reply_quiet (a : Arrival) (c : Nat) (r : Answer) (s : State) : QuietFrame s (s.reply a c r) :=
  ⟨rfl, Net.originate_quiet _ _ _ (fun p hp => by
    split at hp
    · rw [List.mem_singleton.1 hp]; exact a.port.isLt
    · cases hp)⟩

end Sys2Proof.Machine
end

