-- ==== Sys2Proof/Laws/Events.lean ====
section
/-! SUPPORT. What the operations of the trip unit can do, said once each: `EventFrame` (R155 to R163). -/

namespace Sys2Proof.Machine

variable {s t u : State}

/-! ### The parts of `EventFrame` -/

theorem Stand.heldAs.refl (S : Stand) : S.heldAs S := .inl rfl

theorem Stand.heldAs.trans {S T U : Stand} (h : S.heldAs T) (g : T.heldAs U) : S.heldAs U := by
  rcases h with h | ⟨h1, h2⟩ | ⟨h1, b, h2, h3⟩
  · rcases g with g | ⟨g1, g2⟩ | ⟨g1, c, g2, g3⟩
    · exact .inl (g.trans h)
    · exact .inr (.inl ⟨h ▸ g1, g2⟩)
    · exact .inr (.inr ⟨h ▸ g1, c, g2, fun a ha => g3 a (h.trans ha)⟩)
  · rcases g with g | ⟨g1, g2⟩ | ⟨g1, c, g2, g3⟩
    · exact .inr (.inl ⟨h1, g.trans h2⟩)
    · exact .inr (.inl ⟨h1, g2⟩)
    · exact .inr (.inr ⟨by simp [h1], c, g2, fun a ha => by simp [h1] at ha⟩)
  · rcases g with g | ⟨g1, g2⟩ | ⟨g1, c, g2, g3⟩
    · exact .inr (.inr ⟨h1, b, g.trans h2, h3⟩)
    · simp [h2] at g1
    · exact .inr (.inr ⟨h1, c, g2, fun a ha => (h3 a ha).trans (g3 b h2)⟩)

/-- A stand whose mode has not changed is held as before. -/
theorem Stand.heldAs.of_mode {S T : Stand} (h : T.mode = S.mode) : S.heldAs T := .inl h

/-- Events leave an OUT stand OUT and make no other stand OUT. -/
theorem Stand.heldAs.isOut {S T : Stand} (h : S.heldAs T) : T.isOut = S.isOut := by
  rcases h with h | ⟨h1, h2⟩ | ⟨h1, b, h2, -⟩
  · simp [Stand.isOut, h]
  · simp [Stand.isOut, h1, h2]
  · have : S.isOut = false := by simpa [Stand.isOut] using h1
    rw [this]; simp [Stand.isOut, h2]

theorem Port.testKept.refl (P : Port) : P.testKept P := .inl ⟨rfl, rfl, rfl, rfl⟩

theorem Port.testKept.of_eq {P Q : Port} (h1 : Q.mode = P.mode) (h2 : Q.burst = P.burst) (h3 : Q.checker = P.checker)
    (h4 : Q.injection = P.injection) : P.testKept Q := .inl ⟨h1, h2, h3, h4⟩

theorem Port.testKept.trans {P Q R : Port} (h : P.testKept Q) (g : Q.testKept R) : P.testKept R := by
  rcases h with ⟨h1, h2, h3, h4⟩ | ⟨h0, h1, h2, h3, h4⟩
  · rcases g with ⟨g1, g2, g3, g4⟩ | ⟨g0, g⟩
    · exact .inl ⟨g1.trans h1, g2.trans h2, g3.trans h3, g4.trans h4⟩
    · exact .inr ⟨h1 ▸ g0, g⟩
  · rcases g with ⟨g1, g2, g3, g4⟩ | ⟨g0, -⟩
    · exact .inr ⟨h0, g1.trans h1, g2.trans h2, by rw [g3, h3], g4.trans h4⟩
    · exact absurd h1 g0

theorem Span.queueKept.refl (P : Span) : P.queueKept P := .inl rfl

theorem Span.queueKept.trans {P Q R : Span} (h : P.queueKept Q) (g : Q.queueKept R) : P.queueKept R := by
  rcases g with g | g
  · rcases h with h | h
    · exact .inl (g.trans h)
    · exact .inr (g.trans h)
  · exact .inr g

theorem Port.slotsKept.refl (P : Port) : P.slotsKept P :=
  ⟨rfl, fun o h => ⟨o, h, le_refl _, by simp⟩, fun _ => ⟨rfl, .inl rfl⟩⟩

theorem Port.slotsKept.of_eq {P Q : Port} (hl : Q.link = P.link) (h : Q.stopSlot = P.stopSlot)
    (hc : Q.commandSlot = P.commandSlot ∨ Q.commandSlot = none ∨ P.link ≠ .disabled) : P.slotsKept Q :=
  ⟨hl, fun o ho => ⟨o, by rw [h, ho], le_refl _, by simp⟩, fun hd => ⟨h, by tauto⟩⟩

theorem Port.slotsKept.trans {P Q R : Port} (h : P.slotsKept Q) (g : Q.slotsKept R) : P.slotsKept R := by
  refine ⟨g.link.trans h.link, fun o ho => ?_, fun hd => ?_⟩
  · obtain ⟨a, ha, h1, h2⟩ := h.order o ho
    obtain ⟨b, hb, g1, g2⟩ := g.order a ha
    refine ⟨b, hb, le_trans h1 g1, ?_⟩
    rw [← g2, ← h2]
    ext i
    simp only [BitVec.getElem_or]
    cases b.mask[i] <;> cases a.mask[i] <;> cases o.mask[i] <;> rfl
  · obtain ⟨h1, h2⟩ := h.disabled hd
    obtain ⟨g1, g2⟩ := g.disabled (h.link.trans hd)
    refine ⟨g1.trans h1, ?_⟩
    rcases g2 with g2 | g2
    · rcases h2 with h2 | h2
      · exact .inl (g2.trans h2)
      · exact .inr (g2.trans h2)
    · exact .inr g2

theorem EventFrame.refl (s : State) : EventFrame s s where
  phase := rfl
  resetInput := rfl
  supplyLow := rfl
  time := rfl
  part := rfl
  nodes := rfl
  channels := rfl
  group := rfl
  store := rfl
  freeCount := rfl
  pending := rfl
  ports _ := rfl
  tests _ := .refl _
  slots _ := .refl _
  queues := .refl _
  frames := .refl _
  exact := .refl _
  stands _ := rfl
  held _ := .refl _
  spans _ := rfl
  segments _ := .refl _
  entries _ := rfl
  interval := rfl
  protect := rfl
  refusedResets := rfl

theorem EventFrame.trans (h : EventFrame s t) (g : EventFrame t u) : EventFrame s u where
  phase := g.phase.trans h.phase
  resetInput := g.resetInput.trans h.resetInput
  supplyLow := g.supplyLow.trans h.supplyLow
  time := g.time.trans h.time
  part := g.part.trans h.part
  nodes := g.nodes.trans h.nodes
  channels := g.channels.trans h.channels
  group := g.group.trans h.group
  store := g.store.trans h.store
  freeCount := g.freeCount.trans h.freeCount
  pending := g.pending.trans h.pending
  ports p := (g.ports p).trans (h.ports p)
  tests p := (h.tests p).trans (g.tests p)
  slots p := (h.slots p).trans (g.slots p)
  queues := h.queues.trans g.queues
  frames := h.frames.trans g.frames
  exact := h.exact.trans g.exact
  stands n := (g.stands n).trans (h.stands n)
  held n := (h.held n).trans (g.held n)
  spans i := (g.spans i).trans (h.spans i)
  segments i := (h.segments i).trans (g.segments i)
  entries e := (g.entries e).trans (h.entries e)
  interval := g.interval.trans h.interval
  protect := g.protect.trans h.protect
  refusedResets := g.refusedResets.trans h.refusedResets

/-- A part of a port outside what frames of the part's own making touch is unchanged by them. -/
theorem Net.Quiet.port {α : Type} (π : Port → α) (hπ : ∀ P, π P.unqueued = π P) {n m : Net} (h : n.Quiet m) (p : Nat) :
    π (m.port p) = π (n.port p) := by rw [← hπ (m.port p), h.ports p, hπ]

theorem QuietFrame.event (h : QuietFrame s t) : EventFrame s t := by
  obtain ⟨hr, hn⟩ := h
  rw [hr]
  exact { EventFrame.refl s with
    ports := fun p => hn.port Port.core (fun _ => rfl) p
    tests := fun p => .of_eq (hn.port Port.mode (fun _ => rfl) p) (hn.port Port.burst (fun _ => rfl) p)
      (hn.port Port.checker (fun _ => rfl) p) (hn.port Port.injection (fun _ => rfl) p)
    slots := fun p => .of_eq (hn.port Port.link (fun _ => rfl) p) (hn.port Port.stopSlot (fun _ => rfl) p)
      (.inl (hn.port Port.commandSlot (fun _ => rfl) p))
    queues := hn.queues
    frames := hn.frames
    exact := hn.exact }

/-! ### One unit changed -/

theorem EventFrame.modPort (s : State) (p : Nat) (f : Port → Port) (hc : (f (s.port p)).core = (s.port p).core)
    (ht : (s.port p).testKept (f (s.port p))) (ho : (s.port p).slotsKept (f (s.port p)))
    (hq : (f (s.port p)).queue = (s.port p).queue) : EventFrame s (s.modPort p f) where
  __ := EventFrame.refl s
  ports q := by
    rw [State.port_modPort]; split
    · rename_i h; rw [← h.1, hc]
    · rfl
  tests q := by
    rw [State.port_modPort]; split
    · rename_i h; rw [← h.1]; exact ht
    · exact .refl _
  slots q := by
    rw [State.port_modPort]; split
    · rename_i h; rw [← h.1]; exact ho
    · exact .refl _
  queues := .of_eq fun q => by
    change ((s.modPort p f).port q).queue = (s.port q).queue
    rw [State.port_modPort]; split
    · rename_i h; rw [← h.1, hq]
    · rfl
  frames := .of_eq rfl rfl
  exact := .modPort s.net p f fun id => by
    have h1 : (f (s.net.port p)).queue = (s.net.port p).queue := hq
    have h2 : (f (s.net.port p)).sending = (s.net.port p).sending := by
      have := congrArg Port.sending hc
      exact this
    simp only [Port.refsTo, h1, h2]

theorem EventFrame.modStand (s : State) (n : Nat) (f : Stand → Stand) (hc : (f (s.stand n)).core = (s.stand n).core)
    (hh : (s.stand n).heldAs (f (s.stand n))) : EventFrame s (s.modStand n f) := by
  by_cases hn : n = 0
  · subst hn; exact .refl s
  · have h : s.modStand n f = { s with stands := (s.modStand n f).stands } := by simp [State.modStand, hn]
    have hc' : ∀ m, ((s.modStand n f).stand m).core = (s.stand m).core := fun m => by
      rw [State.stand_modStand]; split
      · rename_i h; rw [← h.1, hc]
      · rfl
    have hh' : ∀ m, (s.stand m).heldAs ((s.modStand n f).stand m) := fun m => by
      rw [State.stand_modStand]; split
      · rename_i h; rw [← h.1]; exact hh
      · exact .refl _
    rw [h] at hc' hh' ⊢
    exact { EventFrame.refl s with stands := hc', held := hh' }

theorem EventFrame.modSpan (s : State) (i : Nat) (f : Span → Span) (hc : (f (s.span i)).core = (s.span i).core)
    (hq : (s.span i).queueKept (f (s.span i))) : EventFrame s (s.modSpan i f) where
  __ := EventFrame.refl s
  spans j := by
    rw [State.span_modSpan]; split
    · rename_i h; rw [← h.1, hc]
    · rfl
  segments j := by
    rw [State.span_modSpan]; split
    · rename_i h; rw [← h.1]; exact hq
    · exact .refl _

theorem EventFrame.modEntry (s : State) (e : Nat) (f : TripEntry → TripEntry)
    (hc : (f (s.entry e)).record = (s.entry e).record) : EventFrame s (s.modEntry e f) where
  __ := EventFrame.refl s
  entries j := by
    rw [State.entry_modEntry]; split
    · rename_i h; rw [← h.1, hc]
    · rfl

/-- Events compose along a list. -/
theorem EventFrame.foldl {α : Type} (g : State → α → State) (l : List α) (h : ∀ s, ∀ a ∈ l, EventFrame s (g s a))
    (s : State) : EventFrame s (l.foldl g s) := by
  induction l generalizing s with
  | nil => exact .refl s
  | cons a l ih =>
    exact (h s a (by simp)).trans (ih (fun s b hb => h s b (List.mem_cons_of_mem a hb)) (g s a))

/-! ### Conditions clear (R157, R159) -/

theorem State.condNotice_quiet (c : CondId) (s : State) : QuietFrame s (s.condNotice c) := by
  unfold State.condNotice
  split
  · exact .refl s
  · exact State.notice_quiet _ _ _ s

theorem State.cleared_event (c : CondId) (s : State) : EventFrame s (s.cleared c) := by
  unfold State.cleared
  exact (State.condNotice_quiet c s).event.trans (.foldl _ _ (fun s e _ => .modEntry s e _ rfl) _)

theorem State.lower_event (c : CondId) (f : State → State) (h : EventFrame s (f s)) : EventFrame s (s.lower c f) := by
  unfold State.lower
  dsimp only
  split
  · exact h.trans (State.cleared_event c _)
  · exact h

/-! ### Stands and spans change state (R86, R102, R109) -/

/-- A stand that is not OUT is one of the eight. -/
theorem State.stand_valid (n : Nat) (h : (s.stand n).mode ≠ .out) : 1 ≤ n ∧ n ≤ 8 := by
  unfold State.stand getAt at h
  by_cases h0 : n = 0
  · simp [h0, Stand.start] at h
  · refine ⟨by omega, ?_⟩
    by_contra hn
    have : ¬ n - 1 < 8 := by omega
    simp [h0, this, Stand.start] at h

theorem State.settleMode_event (n : Nat) (s : State) (h : (s.stand n).mode ≠ .out) : EventFrame s (s.settleMode n) := by
  unfold State.settleMode
  split
  · exact State.lower_event _ _ (.modStand s n _ rfl (.of_mode rfl))
  · exact (State.lower_event _ _ (.modStand s n _ rfl (.of_mode rfl))).trans
      (State.lower_event _ _ (.modStand _ n _ rfl (.of_mode rfl)))
  · rename_i h'; exact absurd h' h
  · exact .refl s
  · exact .refl s

/-- A change of a stand's state that keeps OUT and TRIPPED stands as they are is an event's change. -/
theorem State.changeMode_event (n : Nat) (m : StandMode) (cause : StandCause) (s : State)
    (hh : (s.stand n).heldAs { s.stand n with mode := m }) (hm : m ≠ .out) (hn : (s.stand n).mode ≠ .out) :
    EventFrame s (s.changeMode n m cause) := by
  have hv := State.stand_valid n hn
  have h1 : EventFrame s (s.modStand n fun S => { S with mode := m }) := .modStand s n _ rfl hh
  unfold State.changeMode
  refine (h1.trans (State.notice_quiet _ _ _ _).event).trans (State.settleMode_event n _ ?_)
  rw [State.stand_notice, State.stand_modStand]
  simp [hv, hm]

theorem State.enterEmptying_event (i : Nat) (s : State) : EventFrame s (s.enterEmptying i) :=
  State.lower_event _ _ (.modSpan s i _ rfl (.inl rfl))

theorem State.enterIdle_event (i : Nat) (s : State) : EventFrame s (s.enterIdle i) := .modSpan s i _ rfl (.inl rfl)

theorem Stand.tripOf_rolling {S : Stand} (h : S.mode = .rolling) : S.tripOf = none := by simp [Stand.tripOf, h]

theorem Stand.mode_of_isRolling {S : Stand} (h : S.isRolling = true) : S.mode = .rolling := by
  simpa [Stand.isRolling] using h

theorem State.biteOff_event (n : Nat) (cause : StandCause) (s : State) (h : (s.stand n).isRolling = true) :
    EventFrame s (s.biteOff n cause) := by
  have hr := Stand.mode_of_isRolling h
  have hv := State.stand_valid (s := s) n (by simp [hr])
  unfold State.biteOff
  have h1 : EventFrame s (s.modStand n fun S =>
      { S with biteOnRun := 0, biteOffRun := 0, estimate := none,
               counters := { S.counters with biteOffs := bump S.counters.biteOffs } }) := .modStand s n _ rfl (.of_mode rfl)
  refine h1.trans (State.changeMode_event n .ready cause _ ?_ (by simp) ?_)
  all_goals rw [State.stand_modStand]; simp only [hv, and_self, if_true]
  · exact .inr (.inl ⟨hr, rfl⟩)
  · simp [hr]

theorem State.closeSpan_event (k i : Nat) (s : State) : EventFrame s (s.closeSpan k i) := by
  induction k generalizing s i with
  | zero => exact .refl s
  | succ k ih =>
    unfold State.closeSpan
    split
    · have h1 := State.enterEmptying_event i s
      dsimp only
      split
      · have h2 := h1.trans (State.enterIdle_event i _)
        split
        · rename_i hd
          have h3 := h2.trans (State.biteOff_event _ .tailOut _ hd.2)
          split
          · exact h3.trans (ih _ _)
          · exact h3
        · exact h2
      · exact h1
    · exact .refl s

theorem State.leftRolling_event (n : Nat) (s : State) : EventFrame s (s.leftRolling n) := by
  unfold State.leftRolling
  split
  · exact State.closeSpan_event _ _ s
  · exact .refl s

theorem State.reportTailOut_event (i : Nat) (s : State) : EventFrame s (s.reportTailOut i) := by
  unfold State.reportTailOut
  dsimp only
  split
  · rename_i h; exact (State.biteOff_event _ .tailOut s h.2).trans (State.leftRolling_event _ _)
  · exact .refl s

theorem State.flushNotice_event (i : Nat) (cause : FlushCause) (n k : Nat) (lost : Bool) (s : State) :
    EventFrame s (s.flushNotice i cause n k lost) := (State.notice_quiet _ _ _ s).event

theorem State.flush_event (i : Nat) (cause : FlushCause) (n : Nat) (s : State) : EventFrame s (s.flush i cause n) := by
  unfold State.flush
  dsimp only
  have h1 : EventFrame s (s.lower ⟨.trackLimit, i⟩ fun s' => s'.modSpan i fun P => P.flushed (s.weldInSpan i)) :=
    State.lower_event _ _ (.modSpan s i _ rfl (.inr rfl))
  have h2 := h1.trans (.modStand _ (s.span i).record.upstream (fun S => { S with handOn := false }) rfl (.of_mode rfl))
  have h3 := h2.trans (State.flushNotice_event i cause n (s.span i).queue.length (s.weldInSpan i) _)
  split
  · exact h3.trans (.modStand _ _ _ rfl (.of_mode rfl))
  · exact h3

/-! ### Trips (R120, R160) -/

theorem State.writeGap_event (n : Nat) (c : Int) (f : GapFlags) (s : State) : EventFrame s (s.writeGap n c f) := by
  unfold State.writeGap
  refine EventFrame.trans ?_ (.modStand _ n _ rfl (.of_mode rfl))
  refine EventFrame.modPort s (s.stand n).record.port _ ?_ (.of_eq ?_ ?_ ?_ ?_) (.of_eq ?_ ?_ ?_) ?_
  case refine_8 => split
                   · exact .inl rfl
                   · exact .inr (.inr ‹_›)
  all_goals split <;> rfl

theorem State.writeOpen_event (n : Nat) (s : State) : EventFrame s (s.writeOpen n) := State.writeGap_event _ _ _ s

theorem State.emptyCommand_event (p : Nat) (s : State) : EventFrame s (s.emptyCommand p) :=
  .modPort s p _ rfl (.of_eq rfl rfl rfl rfl) (.of_eq rfl rfl (.inr (.inl rfl))) rfl

theorem Stand.heldAs_tripped {S : Stand} (T : Trip) (ho : S.mode ≠ .out)
    (h : ∀ a, S.tripOf = some a → severityRank a.cls ≤ severityRank T.cls) : S.heldAs { S with mode := .tripped T } :=
  .inr (.inr ⟨ho, T, rfl, fun a ha => h a (by simp [Stand.tripOf, ha])⟩)

theorem State.leaveMode_event (n : Nat) (old : StandMode) (s : State) : EventFrame s (s.leaveMode n old) := by
  unfold State.leaveMode
  split
  · exact State.leftRolling_event n s
  · exact (State.notice_quiet _ _ _ s).event
  · exact .refl s
  · exact .refl s
  · exact .refl s

theorem State.tripStand_event (n : Nat) (cls : Severity) (e : Nat) (s : State) (ho : (s.stand n).mode ≠ .out)
    (ht : (s.stand n).tripOf = none) : EventFrame s (s.tripStand n cls e) := by
  unfold State.tripStand
  dsimp only
  have h1 := State.changeMode_event n (.tripped ⟨cls, e, 0#8, s.trip.interval⟩) .trip s
    (Stand.heldAs_tripped _ ho (by simp [ht])) (by simp) ho
  have h2 := h1.trans (State.leaveMode_event n (s.stand n).mode _)
  have h3 := fun p => h2.trans (State.emptyCommand_event p _)
  split
  · exact (h3 _).trans (State.writeOpen_event n _)
  · exact h3 _

theorem State.upgradeStand_event (n : Nat) (cls : Severity) (e : Nat) (s : State) (ho : (s.stand n).mode ≠ .out)
    (ht : ∀ a, (s.stand n).tripOf = some a → severityRank a.cls ≤ severityRank cls) :
    EventFrame s (s.upgradeStand n cls e) := by
  unfold State.upgradeStand
  dsimp only
  have h1 : EventFrame s (s.modStand n fun S => { S with mode := .tripped ⟨cls, e, 0#8, s.trip.interval⟩ }) :=
    .modStand s n _ rfl (Stand.heldAs_tripped _ ho ht)
  split
  · exact h1.trans (State.writeOpen_event n _)
  · exact h1

/-! ### Stop orders (R37, R47, R161) -/

theorem State.abortTest_event (p : Nat) (s : State) : EventFrame s (s.abortTest p) := by
  unfold State.abortTest
  dsimp only
  split
  · exact .refl s
  · rename_i hm
    exact (State.lower_event _ _ (.modPort s p Port.leaveTest rfl (.inr ⟨hm, rfl, rfl, rfl, rfl⟩)
      (.of_eq rfl rfl (.inl rfl)) rfl)).trans
      (State.notice_quiet _ _ _ _).event

theorem severity_merge_left (o w : StopOrder) : severityRank o.cls ≤ severityRank (mergeOrders o w).cls := by
  unfold mergeOrders; dsimp only; split <;> omega

theorem State.writeOrder_event (p : Nat) (o : StopOrder) (s : State) : EventFrame s (s.writeOrder p o) := by
  unfold State.writeOrder
  dsimp only
  have h1 := State.abortTest_event p s
  generalize s.abortTest p = s1 at h1 ⊢
  split
  · exact h1
  · refine h1.trans (EventFrame.trans (t := s1.modPort p fun P =>
      if P.link = .disabled then P
      else { P with stopSlot := some (match P.stopSlot with | none => o | some old => mergeOrders old o) }) ?_ ?_)
    · refine .modPort s1 p _ ?_ ?_ ?_ ?_
      · split <;> rfl
      · split
        · exact .refl _
        · exact .of_eq rfl rfl rfl rfl
      · split
        · exact .refl _
        · rename_i hd
          refine ⟨rfl, fun x hx => ⟨_, rfl, ?_, ?_⟩, fun h => absurd h hd⟩
          · rw [hx]; exact severity_merge_left x o
          · rw [hx]
            change (x.mask ||| o.mask) ||| x.mask = x.mask ||| o.mask
            ext i
            simp only [BitVec.getElem_or]
            cases x.mask[i] <;> cases o.mask[i] <;> rfl
      · split <;> rfl
    · exact { EventFrame.refl (s1.modPort p fun P =>
        if P.link = .disabled then P
        else { P with stopSlot := some (match P.stopSlot with | none => o | some old => mergeOrders old o) }) with }

theorem State.writeOrders_event (n : Nat) (cls : Severity) (mask : Byte) (e : Nat) (count : Byte) (s : State) :
    EventFrame s (s.writeOrders n cls mask e count) :=
  .foldl _ _ (fun s _ _ => State.writeOrder_event _ _ s) _

/-! ### The log and the firings (R160 to R163, R168) -/

/-- A change of the log, its counts and the firing count alone. -/
theorem EventFrame.modLog (s : State) (l : List LogRecord) (r : Half) (f w v : Nat) :
    EventFrame s { s with trip := { s.trip with log := l, nextRecord := r, firings := f, ordersWritten := w, evicted := v } } :=
  { EventFrame.refl s with }

theorem State.recordFiring_event (e : Nat) (cause : Cause) (cls : Option Severity) (m : Byte) (first : Bool) (s : State) :
    EventFrame s (s.recordFiring e cause cls m first) :=
  (EventFrame.modLog s _ _ s.trip.firings s.trip.ordersWritten _).trans (State.notice_quiet _ _ _ _).event

end Sys2Proof.Machine
end

