-- ==== Sys2Proof/Laws/Fire.lean ====
section
/-! SUPPORT. Which stands a firing trips, and that a firing and everything that leads to one is an event (R160 to R166). -/

namespace Sys2Proof.Machine

variable {s t u : State}

/-! ### Operations that trip no stand -/

/-- No stand has become TRIPPED, left TRIPPED or changed its trip. -/
def SameTrips (s t : State) : Prop := ∀ n, (t.stand n).tripOf = (s.stand n).tripOf

theorem SameTrips.refl (s : State) : SameTrips s s := fun _ => rfl

theorem SameTrips.trans (h : SameTrips s t) (g : SameTrips t u) : SameTrips s u := fun n => (g n).trans (h n)

theorem SameTrips.of_stands (h : t.stands = s.stands) : SameTrips s t := fun n => by simp only [State.stand, h]

theorem SameTrips.modStand (s : State) (n : Nat) (f : Stand → Stand) (h : (f (s.stand n)).tripOf = (s.stand n).tripOf) :
    SameTrips s (s.modStand n f) := fun m => by
  rw [State.stand_modStand]; split
  · rename_i hm; rw [← hm.1, h]
  · rfl

theorem SameTrips.foldl {α : Type} (g : State → α → State) (l : List α) (h : ∀ s, ∀ a ∈ l, SameTrips s (g s a))
    (s : State) : SameTrips s (l.foldl g s) := by
  induction l generalizing s with
  | nil => exact .refl s
  | cons a l ih =>
    exact (h s a (by simp)).trans (ih (fun s b hb => h s b (List.mem_cons_of_mem a hb)) (g s a))

theorem State.stands_condNotice (c : CondId) (s : State) : (s.condNotice c).stands = s.stands := by
  unfold State.condNotice; split <;> rfl

theorem State.stands_cleared (c : CondId) (s : State) : (s.cleared c).stands = s.stands := by
  unfold State.cleared
  rw [← State.stands_condNotice c s]
  generalize s.condNotice c = s', s.refs c = l
  induction l generalizing s' with
  | nil => rfl
  | cons e l ih => simp only [List.foldl_cons, ih]; rfl

theorem State.lower_trips (c : CondId) (f : State → State) (h : SameTrips s (f s)) : SameTrips s (s.lower c f) := by
  unfold State.lower
  dsimp only
  split
  · exact h.trans (.of_stands (State.stands_cleared c _))
  · exact h

theorem State.settleMode_trips (n : Nat) (s : State) : SameTrips s (s.settleMode n) := by
  unfold State.settleMode
  split
  · exact State.lower_trips _ _ (.modStand s n _ rfl)
  · exact (State.lower_trips _ _ (.modStand s n _ rfl)).trans (State.lower_trips _ _ (.modStand _ n _ rfl))
  · exact (State.lower_trips _ _ (.modStand s n _ rfl)).trans (State.lower_trips _ _ (.modStand _ n _ rfl))
  · exact .refl s
  · exact .refl s

theorem State.changeMode_trips (n : Nat) (m : StandMode) (cause : StandCause) (s : State) :
    SameTrips (s.modStand n fun S => { S with mode := m }) (s.changeMode n m cause) :=
  (SameTrips.of_stands rfl).trans (State.settleMode_trips n _)

theorem State.biteOff_trips (n : Nat) (cause : StandCause) (s : State) (h : (s.stand n).isRolling = true) :
    SameTrips s (s.biteOff n cause) := by
  have hr := Stand.mode_of_isRolling h
  have hv := State.stand_valid (s := s) n (by simp [hr])
  unfold State.biteOff
  have h1 : SameTrips s (s.modStand n fun S =>
      { S with biteOnRun := 0, biteOffRun := 0, estimate := none,
               counters := { S.counters with biteOffs := bump S.counters.biteOffs } }) := .modStand s n _ rfl
  refine h1.trans (SameTrips.trans (.modStand _ n _ ?_) (State.changeMode_trips n .ready cause _))
  rw [State.stand_modStand]
  simp [hv, Stand.tripOf, hr]

theorem State.closeSpan_trips (k i : Nat) (s : State) : SameTrips s (s.closeSpan k i) := by
  induction k generalizing s i with
  | zero => exact .refl s
  | succ k ih =>
    unfold State.closeSpan
    split
    · have h1 : SameTrips s (s.enterEmptying i) := State.lower_trips _ _ (.of_stands rfl)
      dsimp only
      split
      · have h2 : SameTrips s ((s.enterEmptying i).enterIdle i) := h1.trans (.of_stands rfl)
        split
        · rename_i hd
          have h3 := h2.trans (State.biteOff_trips _ .tailOut _ hd.2)
          split
          · exact h3.trans (ih _ _)
          · exact h3
        · exact h2
      · exact h1
    · exact .refl s

theorem State.leaveMode_trips (n : Nat) (old : StandMode) (s : State) : SameTrips s (s.leaveMode n old) := by
  unfold State.leaveMode State.leftRolling
  split
  · split
    · exact State.closeSpan_trips _ _ s
    · exact .refl s
  · exact .of_stands rfl
  · exact .refl s
  · exact .refl s
  · exact .refl s

theorem State.writeGap_trips (n : Nat) (c : Int) (f : GapFlags) (s : State) : SameTrips s (s.writeGap n c f) := by
  unfold State.writeGap
  exact SameTrips.trans (.of_stands rfl) (.modStand _ n _ rfl)

theorem State.flush_trips (i : Nat) (cause : FlushCause) (n : Nat) (s : State) : SameTrips s (s.flush i cause n) := by
  unfold State.flush
  dsimp only
  have h1 : SameTrips s (s.lower ⟨.trackLimit, i⟩ fun s' => s'.modSpan i fun P => P.flushed (s.weldInSpan i)) :=
    State.lower_trips _ _ (.of_stands rfl)
  have h2 := h1.trans (.modStand _ (s.span i).record.upstream (fun S => { S with handOn := false }) rfl)
  split
  · exact (h2.trans (.of_stands rfl)).trans (.modStand _ _ _ rfl)
  · exact h2.trans (.of_stands rfl)

theorem State.stands_writeOrder (p : Nat) (o : StopOrder) (s : State) : (s.writeOrder p o).stands = s.stands := by
  have h : (s.abortTest p).stands = s.stands := by
    unfold State.abortTest State.lower
    dsimp only
    split
    · rfl
    · change State.stands (if _ then _ else _) = _
      split
      · rw [State.stands_cleared]; rfl
      · rfl
  unfold State.writeOrder
  dsimp only
  split
  · exact h
  · exact h

theorem State.stands_writeOrders (n : Nat) (cls : Severity) (mask : Byte) (e : Nat) (count : Byte) (s : State) :
    (s.writeOrders n cls mask e count).stands = s.stands := by
  unfold State.writeOrders
  generalize stopTargets (s.stand n).record = l
  induction l generalizing s with
  | nil => rfl
  | cons t l ih => rw [List.foldl_cons, ih, State.stands_writeOrder]

/-! ### Tripping and upgrading (R120, R160) -/

/-- A stand newly tripped takes its trip, and no other stand's trip changes. -/
theorem State.tripStand_trips (n : Nat) (cls : Severity) (e : Nat) (s : State) (hv : 1 ≤ n ∧ n ≤ 8) (m : Nat) :
    ((s.tripStand n cls e).stand m).tripOf =
      if m = n then some ⟨cls, e, 0#8, s.trip.interval⟩ else (s.stand m).tripOf := by
  have h1 := State.changeMode_trips n (.tripped ⟨cls, e, 0#8, s.trip.interval⟩) .trip s
  have h2 := h1.trans (State.leaveMode_trips n (s.stand n).mode _)
  have h3 : ∀ p, SameTrips (s.modStand n fun S => { S with mode := .tripped ⟨cls, e, 0#8, s.trip.interval⟩ })
      (((s.changeMode n (.tripped ⟨cls, e, 0#8, s.trip.interval⟩) .trip).leaveMode n (s.stand n).mode).emptyCommand p) :=
    fun _ => h2.trans (.of_stands rfl)
  have h4 : SameTrips (s.modStand n fun S => { S with mode := .tripped ⟨cls, e, 0#8, s.trip.interval⟩ })
      (s.tripStand n cls e) := by
    unfold State.tripStand
    dsimp only
    split
    · exact (h3 _).trans (State.writeGap_trips _ _ _ _)
    · exact h3 _
  rw [h4 m, State.stand_modStand]
  by_cases hm : m = n
  · subst hm; simp [hv, Stand.tripOf]
  · simp [hm, Ne.symm hm]

/-- A stand upgraded takes its trip, and no other stand's trip changes. -/
theorem State.upgradeStand_trips (n : Nat) (cls : Severity) (e : Nat) (s : State) (hv : 1 ≤ n ∧ n ≤ 8) (m : Nat) :
    ((s.upgradeStand n cls e).stand m).tripOf =
      if m = n then some ⟨cls, e, 0#8, s.trip.interval⟩ else (s.stand m).tripOf := by
  have h4 : SameTrips (s.modStand n fun S => { S with mode := .tripped ⟨cls, e, 0#8, s.trip.interval⟩ })
      (s.upgradeStand n cls e) := by
    unfold State.upgradeStand
    dsimp only
    split
    · exact State.writeGap_trips _ _ _ _
    · exact .refl _
  rw [h4 m, State.stand_modStand]
  by_cases hm : m = n
  · subst hm; simp [hv, Stand.tripOf]
  · simp [hm, Ne.symm hm]

/-! ### A firing (R160 to R163) -/

theorem standNumbers_valid (n : Nat) : n ∈ standNumbers ↔ 1 ≤ n ∧ n ≤ 8 := by
  simp only [standNumbers, List.mem_cons, List.not_mem_nil, or_false]; omega

theorem State.mem_targets (s : State) (mask : Byte) (n : Nat) :
    n ∈ s.targets mask ↔ (1 ≤ n ∧ n ≤ 8) ∧ inMask mask n = true ∧ (s.stand n).inService = true := by
  simp [State.targets, List.mem_filter, standNumbers_valid]

theorem State.mem_actedBy (s : State) (cls : Severity) (mask : Byte) (n : Nat) :
    n ∈ s.actedBy cls mask ↔ n ∈ s.targets mask ∧ ((s.stand n).tripOf = none ∨ (s.stand n).upgradable cls = true) := by
  simp only [State.actedBy, State.newlyBy, State.upgradedBy, List.mem_filter, Bool.or_eq_true, List.contains_iff_mem,
    Stand.isTripped, Bool.not_eq_true', Option.isSome_eq_false_iff, Option.isNone_iff_eq_none]
  tauto

theorem standNumbers_nodup : standNumbers.Nodup := by decide

theorem State.actedBy_nodup (s : State) (cls : Severity) (mask : Byte) : (s.actedBy cls mask).Nodup :=
  (standNumbers_nodup.filter _).filter _

theorem State.actOn_trips (cls : Severity) (e : Nat) (newly : List Nat) (s : State) (n : Nat) (hv : 1 ≤ n ∧ n ≤ 8)
    (m : Nat) : ((s.actOn cls e newly n).stand m).tripOf =
      if m = n then some ⟨cls, e, 0#8, s.trip.interval⟩ else (s.stand m).tripOf := by
  unfold State.actOn
  split
  · exact State.tripStand_trips n cls e s hv m
  · exact State.upgradeStand_trips n cls e s hv m

theorem State.actOn_event (cls : Severity) (e : Nat) (newly : List Nat) (s : State) (n : Nat)
    (ho : (s.stand n).isOut = false) (hn : newly.contains n = true → (s.stand n).tripOf = none)
    (hu : newly.contains n = false → (s.stand n).upgradable cls = true) : EventFrame s (s.actOn cls e newly n) := by
  have ho' : (s.stand n).mode ≠ .out := by simpa [Stand.isOut] using ho
  unfold State.actOn
  split
  · rename_i h; exact State.tripStand_event n cls e s ho' (hn h)
  · rename_i h
    refine State.upgradeStand_event n cls e s ho' fun a ha => ?_
    have := hu (by simpa using h)
    simp only [Stand.upgradable, ha] at this
    simpa using (of_decide_eq_true this).le

/-- The trips of the stands of a firing, one after another. -/
theorem State.actOn_fold (cls : Severity) (e : Nat) (newly : List Nat) (l : List Nat) (s : State) (hd : l.Nodup)
    (hv : ∀ n ∈ l, 1 ≤ n ∧ n ≤ 8) (ho : ∀ n ∈ l, (s.stand n).isOut = false)
    (hn : ∀ n ∈ l, newly.contains n = true → (s.stand n).tripOf = none)
    (hu : ∀ n ∈ l, newly.contains n = false → (s.stand n).upgradable cls = true) :
    EventFrame s (l.foldl (fun s n => s.actOn cls e newly n) s) ∧
    ∀ m, ((l.foldl (fun s n => s.actOn cls e newly n) s).stand m).tripOf =
      if m ∈ l then some ⟨cls, e, 0#8, s.trip.interval⟩ else (s.stand m).tripOf := by
  induction l generalizing s with
  | nil => exact ⟨.refl s, fun m => by simp⟩
  | cons a l ih =>
    rw [List.foldl_cons]
    have h1 := State.actOn_event cls e newly s a (ho a (by simp)) (hn a (by simp)) (hu a (by simp))
    have ht := State.actOn_trips cls e newly s a (hv a (by simp))
    have hna : a ∉ l := (List.nodup_cons.1 hd).1
    have hne : ∀ n ∈ l, n ≠ a := fun n hn h => hna (h ▸ hn)
    have htr : ∀ n ∈ l, ((s.actOn cls e newly a).stand n).tripOf = (s.stand n).tripOf := fun n hn => by
      rw [ht n, if_neg (hne n hn)]
    obtain ⟨f1, f2⟩ := ih (s.actOn cls e newly a) (List.nodup_cons.1 hd).2 (fun n h => hv n (by simp [h]))
      (fun n h => (h1.held n).isOut.trans (ho n (by simp [h])))
      (fun n h hc => (htr n h).trans (hn n (by simp [h]) hc))
      (fun n h hc => by
        have := hu n (by simp [h]) hc
        simp only [Stand.upgradable] at this ⊢
        rwa [htr n h])
    refine ⟨h1.trans f1, fun m => ?_⟩
    rw [f2 m, h1.interval]
    by_cases hm : m ∈ l
    · simp [hm]
    · rw [if_neg hm, ht m]
      by_cases hma : m = a <;> simp [hma, hm]

/-- What a firing of a stop class does: it is an event, and the stands it acts on hold its class and entry. -/
theorem State.fireStop_spec (e : Nat) (cls : Severity) (mask : Byte) (cause : Cause) (s : State) :
    EventFrame s (s.fireStop e cls mask cause) ∧
    ∀ m, ((s.fireStop e cls mask cause).stand m).tripOf =
      if m ∈ s.actedBy cls mask then some ⟨cls, e, 0#8, s.trip.interval⟩ else (s.stand m).tripOf := by
  have hnew : ∀ n, (s.newlyBy mask).contains n = true → (s.stand n).tripOf = none := fun n h => by
    simpa [State.newlyBy, List.mem_filter, Stand.isTripped] using (List.mem_filter.1 (List.contains_iff_mem.1 h)).2
  obtain ⟨a1, a2⟩ := State.actOn_fold cls e (s.newlyBy mask) (s.actedBy cls mask) s (s.actedBy_nodup cls mask)
    (fun n h => ((s.mem_targets mask n).1 ((s.mem_actedBy cls mask n).1 h).1).1)
    (fun n h => by
      have := ((s.mem_targets mask n).1 ((s.mem_actedBy cls mask n).1 h).1).2.2
      simp only [Stand.inService, Bool.and_eq_true, Bool.not_eq_true'] at this
      exact this.2)
    (fun n _ h => hnew n h)
    (fun n h hc => by
      have hm := (s.mem_actedBy cls mask n).1 h
      rcases hm.2 with h0 | h0
      · exfalso
        have : n ∈ s.newlyBy mask := List.mem_filter.2 ⟨hm.1, by simp [Stand.isTripped, h0]⟩
        rw [List.contains_iff_mem.2 this] at hc
        cases hc
      · exact h0)


  have b1 : EventFrame s (s.stopStands e cls mask) :=
    a1.trans (.foldl _ _ (fun s x _ => State.flush_event _ _ _ s) _)
  have b2 : SameTrips ((s.actedBy cls mask).foldl (fun s' n => s'.actOn cls e (s.newlyBy mask) n) s)
      (s.stopStands e cls mask) := .foldl _ _ (fun s x _ => State.flush_trips _ _ _ s) _
  have c1 := b1.trans (.foldl (fun s' n => s'.writeOrders n cls (maskOfList (s.actedBy cls mask)) e 0#8)
    (s.actedBy cls mask) (fun s _ _ => State.writeOrders_event _ _ _ _ _ s) _)
  have c2 := b2.trans (.foldl (fun s' n => s'.writeOrders n cls (maskOfList (s.actedBy cls mask)) e 0#8)
    (s.actedBy cls mask) (fun s _ _ => .of_stands (State.stands_writeOrders _ _ _ _ _ s)) _)
  unfold State.fireStop
  dsimp only
  split
  · exact ⟨b1, fun m => (b2 m).trans (a2 m)⟩
  · exact ⟨c1.trans (State.recordFiring_event _ _ _ _ _ _), fun m => (c2 m).trans (a2 m)⟩

theorem State.fire_event (e : Nat) (cls : Option Severity) (mask : Byte) (cause : Cause) (s : State) :
    EventFrame s (s.fire e cls mask cause) := by
  unfold State.fire
  have h1 : EventFrame s { s with trip := { s.trip with firings := bump s.trip.firings } } :=
    EventFrame.modLog s s.trip.log s.trip.nextRecord _ s.trip.ordersWritten s.trip.evicted
  split
  · exact h1.trans (State.recordFiring_event _ _ _ _ _ _)
  · exact h1.trans (State.fireStop_spec _ _ _ _ _).1

/-- The stands a firing of a stop class acts on hold its class and entry, and no other stand's trip changes. -/
theorem State.fire_trips (e : Nat) (cls : Severity) (mask : Byte) (cause : Cause) (s : State) (m : Nat) :
    ((s.fire e (some cls) mask cause).stand m).tripOf =
      if m ∈ s.actedBy cls mask then some ⟨cls, e, 0#8, s.trip.interval⟩ else (s.stand m).tripOf :=
  (State.fireStop_spec e cls mask cause { s with trip := { s.trip with firings := bump s.trip.firings } }).2 m

/-! ### Conditions are raised (R157, R159, R165) -/

theorem State.proceed_event (es : List Nat) (s : State) : EventFrame s (s.proceed es) := by
  unfold State.proceed
  dsimp only
  exact (EventFrame.foldl (fun s e => s.modEntry e TripEntry.start) _ (fun s e _ => .modEntry s e _ rfl) s).trans
    (.foldl _ _ (fun s _ _ => State.fire_event _ _ _ _ s) _)

theorem State.raised_event (c : CondId) (s : State) : EventFrame s (s.raised c) := by
  unfold State.raised
  dsimp only
  have h := (State.condNotice_quiet c s).event.trans (State.proceed_event (s.refs c) _)
  split
  · exact h.trans (State.fire_event _ _ _ _ _)
  · exact h

theorem State.changed_event (c : CondId) (before : Bool) (s : State) : EventFrame s (s.changed c before) := by
  unfold State.changed
  split
  · exact .refl s
  · split
    · exact State.raised_event c s
    · exact State.cleared_event c s

/-- A change taken as an event: the change, then events. -/
theorem State.event_event (c : CondId) (f : State → State) (s : State) : EventFrame (f s) (s.event c f) :=
  State.changed_event c _ (f s)

theorem State.setPort_event (p : Nat) (f : Port → Port) (s : State) : EventFrame (s.modPort p f) (s.setPort p f) := by
  unfold State.setPort
  exact ((((State.changed_event _ _ _).trans (State.changed_event _ _ _)).trans (State.changed_event _ _ _)).trans
    (State.changed_event _ _ _)).trans (State.changed_event _ _ _)

theorem State.setChannel_event (c : Nat) (C : Channel) (s : State) :
    EventFrame (s.modChannel c fun _ => C) (s.setChannel c C) := by
  unfold State.setChannel
  exact (((State.changed_event _ _ _).trans (State.changed_event _ _ _)).trans (State.changed_event _ _ _)).trans
    (State.changed_event _ _ _)

theorem State.judgeTrack_event (i : Nat) (s : State) : EventFrame s (s.judgeTrack i) := by
  unfold State.judgeTrack
  split
  · have h1 : EventFrame s (s.modSpan i fun P => { P with trackLimit := P.atLimit }) := .modSpan s i _ rfl (.inl rfl)
    exact h1.trans (State.event_event ⟨.trackLimit, i⟩ (fun s => s.modSpan i fun P => { P with trackLimit := P.atLimit }) s)
  · exact .refl s

theorem State.fireEntry_event (e : Nat) (s : State) : EventFrame s (s.fireEntry e) := State.fire_event _ _ _ _ s

theorem State.admissionActions_event (n : Nat) (s : State) : EventFrame s (s.admissionActions n) := by
  unfold State.admissionActions
  exact (EventFrame.foldl _ _ (fun s _ _ => State.fire_event _ _ _ _ s) s).trans
    (.foldl _ _ (fun s _ _ => State.fire_event _ _ _ _ s) _)

theorem State.matrixInForce_event (s : State) : EventFrame s s.matrixInForce := State.proceed_event _ s

end Sys2Proof.Machine
end

