-- ==== Sys2Proof/Laws/Serve.lean ====
section
/-! SUPPORT. How a request is served: its frame is held, the owner acts, one reply is built and queued, and the frame is
released (R43, R60, R61, R171, R172). -/

namespace Sys2Proof.Machine

variable {n m : Net} {s t u : State}

/-! ### A frame held while a unit works on it -/

/-- Releasing the one frame held since `n`. -/
theorem Net.KeepsFrames.release_hold {f : Frame} {tags : List BlockTag} (h : (n.hold f tags).KeepsFrames m) :
    n.KeepsFrames (m.release n.nextId) := fun hs => by
  have hold_frames : (n.hold f tags).frames = n.frames ++ [⟨n.nextId, f, tags, 1⟩] := rfl
  have hs' : (n.hold f tags).Sound := by
    refine ⟨?_, ?_, ?_⟩
    · rw [hold_frames]; intro g hg
      rcases List.mem_append.1 hg with hg | hg
      · exact hs.refs g hg
      · rw [List.mem_singleton.1 hg]; simp
    · rw [hold_frames]; intro g hg
      change g.id < n.nextId + 1
      rcases List.mem_append.1 hg with hg | hg
      · have := hs.ids g hg; omega
      · rw [List.mem_singleton.1 hg]; simp
    · rw [hold_frames, List.map_append, List.nodup_append]
      refine ⟨hs.nodup, by simp, ?_⟩
      intro a ha b hb
      simp only [List.map_cons, List.map_nil, List.mem_singleton] at hb
      obtain ⟨g, hg, rfl⟩ := List.mem_map.1 ha
      have := hs.ids g hg; omega
  obtain ⟨hm, hle, hf⟩ := h hs'
  rw [hold_frames] at hf
  have hlt : n.nextId < m.nextId := lt_of_lt_of_le (Nat.lt_succ_self _) hle
  have hone : ∀ g ∈ m.frames, g.id = n.nextId → g.refs = 1 := fun g hg hid => by
    have : g ∈ n.frames ++ [⟨n.nextId, f, tags, 1⟩] := by
      rw [← hf]; exact List.mem_filter.2 ⟨hg, by simp [Net.hold, hid]⟩
    rcases List.mem_append.1 this with h' | h'
    · have := hs.ids g h'; omega
    · rw [List.mem_singleton.1 h']
  have hrel : (m.release n.nextId).frames = m.frames.filter fun g => decide (g.id ≠ n.nextId) := by
    unfold Net.release
    dsimp only
    generalize hl : m.frames = l
    have hone' : ∀ g ∈ l, g.id = n.nextId → g.refs = 1 := by rw [← hl]; exact hone
    have hrefs : ∀ g ∈ l, g.refs ≠ 0 := by rw [← hl]; exact hm.refs
    clear hl
    induction l with
    | nil => rfl
    | cons g l ih =>
      have ih := ih (fun x hx => hone' x (by simp [hx])) (fun x hx => hrefs x (by simp [hx]))
      by_cases hid : g.id = n.nextId
      · have h1 := hone' g (by simp) hid
        simp only [List.map_cons, hid, if_true, h1, List.filter_cons]
        simpa using ih
      · have h1 := hrefs g (by simp)
        simp only [List.map_cons, hid, if_false, List.filter_cons]
        simp only [bne_iff_ne, ne_eq, h1, not_false_eq_true, if_true]
        rw [ih]
        simp [hid]
  have hsub : (m.release n.nextId).frames.Sublist m.frames := by rw [hrel]; exact List.filter_sublist
  refine ⟨⟨fun g hg => ?_, fun g hg => ?_, ?_⟩, ?_, ?_⟩
  · exact hm.refs g (hsub.subset hg)
  · exact hm.ids g (hsub.subset hg)
  · exact hm.nodup.sublist (hsub.map _)
  · exact le_of_lt hlt
  · rw [hrel, List.filter_filter]
    have : (m.frames.filter fun g => decide (g.id < n.nextId) && decide (g.id ≠ n.nextId)) =
        (m.frames.filter fun g => decide (g.id < (n.hold f tags).nextId)).filter fun g => decide (g.id < n.nextId) := by
      rw [List.filter_filter]
      congr 1
      funext g
      simp only [Net.hold]
      by_cases h1 : g.id < n.nextId
      · simp [h1, Nat.ne_of_lt h1, Nat.lt_succ_of_lt h1]
      · simp [h1]
    rw [this, hf, List.filter_append, List.filter_eq_self.2 fun x hx => by simpa using hs.ids x hx]
    simp

theorem Net.KeepsExact.release_hold {f : Frame} {tags : List BlockTag} (h : (n.hold f tags).KeepsExact m) :
    n.KeepsExact (m.release n.nextId) := fun _ hx => Net.release_exact m n.nextId (h _ (Net.hold_exact n f tags hx))

/-- A frame is held by a unit of the part. -/
def State.hold (f : Frame) (tags : List BlockTag) (s : State) : State := { s with net := s.net.hold f tags }

theorem QuietFrame.release_hold {f : Frame} {tags : List BlockTag} (h : QuietFrame (s.hold f tags) t) :
    QuietFrame s (t.release s.net.nextId) :=
  ⟨by rw [h.rest]; rfl, h.net.ports, h.net.queues, h.net.frames.release_hold, h.net.exact.release_hold⟩

theorem EventFrame.release_hold {f : Frame} {tags : List BlockTag} (h : EventFrame (s.hold f tags) t) :
    EventFrame s (t.release s.net.nextId) :=
  { h with frames := h.frames.release_hold, exact := h.exact.release_hold }

/-! ### A request at its arrival port -/

theorem setAt_getAt {α : Type} {n : Nat} (v : Vector α n) (d : α) (i : Nat) : setAt v i (getAt v d i) = v := by
  unfold setAt getAt
  by_cases h : i < n
  · ext j hj
    by_cases hij : i = j
    · subst hij; simp [h]
    · simp [hij]
  · simp [h, Vector.setIfInBounds_eq_of_size_le (by omega : n ≤ i)]

/-- The node table passes a known source and keeps its entry (R52). -/
theorem State.Takes.checkSource {p : Nat} {source : Byte} (h : s.Takes p source) :
    s.checkSource source.toNat p = (s, true) := by
  unfold State.checkSource
  rcases h.known with hk | hk | ⟨hk, hl⟩
  · simp [hk]
  · simp [hk]
  · have he : ({ s.node source.toNat with binding := .learned p 0 } : NodeEntry) = s.node source.toNat := by
      rw [← hk]
    have hs : s.setNode source.toNat (s.node source.toNat) = s := by
      unfold State.setNode State.node; rw [setAt_getAt]
    simp only [hk, State.learn, hl, he, hs, State.movedNotice, if_true]
    simp

/-- A frame from a known source goes on to step 3 of R57 as it is. -/
theorem State.Takes.arriving {p : Nat} {source : Byte} (h : s.Takes p source) (f : State → State) :
    s.arriving p source f = f s := by
  simp [State.arriving, State.sourced, Port.passesInward, State.running, h.running, h.up, h.test, h.checkSource]

/-- A consumed frame from a known source at a port of its role is read by its unit and released (R57, R60). -/
theorem State.Takes.consume {p : Nat} {source : Byte} (h : s.Takes p source) {role : Role}
    (hr : (s.port p).record.role = role) (f : State → State) : s.consume p source role f = (f s).drop p := by
  simp [State.consume, h.arriving, State.atRole, Port.hasRole, hr]

/-- A request taken at its arrival port is held and served. -/
theorem State.ask_eq (a : Arrival) (r : Request) (s : State) (h : s.Hears a) :
    s.ask a r = ((s.taken a.port).hold (manageFrame s.part.own a (requestCode r) (encodeRequest r))
      (burstTags (s.port a.port).burst)).serve s.net.nextId a (requestCode r) (.ok r) := by
  have h2 : (s.port a.port).hasRole .line = true := by simp [Port.hasRole, h.line]
  simp only [State.ask, State.request, h.toTakes.arriving, State.atRole, h2, if_true]
  rfl

/-- What is left of serving a request once its owner has acted. -/
theorem State.serve_eq (id : Nat) (a : Arrival) (code : Nat) (r : Request) (s : State) :
    s.serve id a code (.ok r) =
      ((s.carryOut id a r).1.reply a code (s.carryOut id a r).2).release id := rfl

/-- A request whose owner leaves events alone behind. -/
theorem State.ask_event (a : Arrival) (r : Request) (s v : State) (hs : s.Hears a)
    (h : ∀ f tags, EventFrame (v.hold f tags) (((s.taken a.port).hold f tags).carryOut s.net.nextId a r).1)
    (hv : v.net.nextId = s.net.nextId) : EventFrame v (s.ask a r) := by
  rw [State.ask_eq a r s hs, State.serve_eq, ← hv]
  rw [← hv] at h
  exact ((h _ _).trans (State.reply_quiet a (requestCode r) _ _).event).release_hold

/-- A request whose owner changes the state to `v` and leaves frames of the part's own making alone behind. -/
theorem State.ask_quiet (a : Arrival) (r : Request) (s v : State) (hs : s.Hears a)
    (h : ∀ f tags, QuietFrame (v.hold f tags) (((s.taken a.port).hold f tags).carryOut s.net.nextId a r).1)
    (hv : v.net.nextId = s.net.nextId) : QuietFrame v (s.ask a r) := by
  rw [State.ask_eq a r s hs, State.serve_eq, ← hv]
  rw [← hv] at h
  exact ((h _ _).trans (State.reply_quiet a (requestCode r) _ _)).release_hold

/-! ### The reply (R45, R61, R172) -/

theorem blocksOf_le (f : Frame) : blocksOf f ≤ 2 := by unfold blocksOf; split <;> omega

/-- A reply that can be queued is queued, and is the newest frame held. -/
theorem State.reply_spec (a : Arrival) (code : Nat) (ans : Answer) (s : State) (hp : (s.port a.port).takesReply = true)
    (hq : (s.port a.port).queue.length < Config.queueCapacity) (hb : 2 ≤ s.net.sharedFree) (hs : s.net.Sound) :
    ((s.reply a code ans).port a.port).queue = (s.port a.port).queue ++ [s.net.nextId] ∧
    ∃ tags, (s.reply a code ans).net.frames =
      s.net.frames ++ [⟨s.net.nextId, replyFrame s.part.own a code ans, tags, 1⟩] := by
  have hb' : blocksOf (replyFrame s.part.own a code ans) ≤ s.net.sharedFree := le_trans (blocksOf_le _) hb
  generalize hf : replyFrame s.part.own a code ans = f at hb'
  generalize ht : List.replicate (blocksOf f) BlockTag.shared = tags
  have hq' : ((s.net.hold f tags).port a.port).queue.length < Config.queueCapacity := hq
  have hc : ((s.net.hold f tags).copies s.net.nextId [a.port.val]) =
      (((s.net.hold f tags).modPort a.port fun P => { P with queue := P.queue ++ [s.net.nextId] }).addRef s.net.nextId, 1) := by
    simp only [Net.copies, Net.enqueue, hq', if_true]
  obtain ⟨h1, h2⟩ := Net.copied_frames f tags [a.port.val] s.net hs
  have hr : (s.reply a code ans).net = ((s.net.hold f tags).copies s.net.nextId [a.port.val]).1.release s.net.nextId := by
    simp only [State.reply, hp, if_true, hf, Net.originate, Net.build, hb', ht]
    rw [hc]; rfl
  refine ⟨?_, tags, ?_⟩
  · change ((s.reply a code ans).net.port a.port).queue = _
    rw [hr, hc]
    change (((s.net.hold f tags).modPort a.port fun P => { P with queue := P.queue ++ [s.net.nextId] }).port a.port).queue = _
    rw [Net.port_modPort_self]; rfl
  · rw [hr, h1, hc]; rfl

/-! ### The free blocks of the shared pool (R41) -/

theorem Net.ports_toList (n : Net) : n.ports.toList = portNumbers.map n.port := by
  apply List.ext_getElem
  · simp [portNumbers]
  · intro i h1 h2
    have hi : i < 12 := by simpa using h1
    have : portNumbers[i]'(by simpa using h2) = i := by
      simp only [portNumbers]; interval_cases i <;> rfl
    simp [Net.port, getAt, this, hi]

/-- The blocks held under a tag: those of each port's receiver and those of the frames (R41). -/
theorem Net.count_tags (n : Net) (t : BlockTag) :
    n.tags.count t = (portNumbers.map fun p => (n.port p).heldTags.count t).sum + (n.frames.flatMap HeldFrame.tags).count t := by
  unfold Net.tags
  rw [List.count_append, Net.ports_toList]
  congr 1
  induction portNumbers with
  | nil => rfl
  | cons p l ih => simp [List.flatMap_cons, List.count_append, ih]

/-- Blocks that move from the burst of a port to a held frame stay held under their tags. -/
theorem Net.count_tags_keep (n : Net) (p : Nat) (hp : p < 12) (f : Frame) (t : BlockTag) :
    (((n.dropBurst p).hold f (burstTags (n.port p).burst))).tags.count t = n.tags.count t := by
  rw [Net.count_tags, Net.count_tags]
  have h1 : (((n.dropBurst p).hold f (burstTags (n.port p).burst)).frames.flatMap HeldFrame.tags).count t =
      (n.frames.flatMap HeldFrame.tags).count t + (burstTags (n.port p).burst).count t := by
    change ((n.frames ++ [_]).flatMap HeldFrame.tags).count t = _
    rw [List.flatMap_append, List.count_append]; simp
  have h2 : (portNumbers.map fun q => (((n.dropBurst p).hold f (burstTags (n.port p).burst)).port q).heldTags.count t).sum +
      (burstTags (n.port p).burst).count t = (portNumbers.map fun q => (n.port q).heldTags.count t).sum := by
    change (portNumbers.map fun q => ((n.modPort p fun P => { P with burst := none }).port q).heldTags.count t).sum + _ = _
    have hz : ∀ P : Port, ({ P with burst := none } : Port).heldTags = burstTags P.loop := fun _ => rfl
    have hy : ∀ P : Port, P.heldTags.count t = (burstTags P.burst).count t + (burstTags P.loop).count t := fun P =>
      List.count_append
    unfold portNumbers
    simp only [Net.port_modPort, List.map_cons, List.map_nil, List.sum_cons, List.sum_nil]
    interval_cases p <;> simp [hz, hy] <;> omega
  omega

theorem Net.sharedFree_keep (n : Net) (p : Nat) (hp : p < 12) (f : Frame) :
    (((n.dropBurst p).hold f (burstTags (n.port p).burst))).sharedFree = n.sharedFree := by
  have hr : ∀ q, ((n.dropBurst p).hold f (burstTags (n.port p).burst)).reservation q = n.reservation q := fun q => by
    change ((n.modPort p fun P => { P with burst := none }).port q).record.reservation = _
    rw [Net.port_modPort]; split
    · rename_i h; rw [← h.1]; rfl
    · rfl
  unfold Net.sharedFree Net.used Net.sharedUsed
  simp only [Net.count_tags_keep n p hp, hr]

/-- The free blocks follow from the reservations and the blocks held. -/
theorem Net.sharedFree_congr (h : ∀ q, m.reservation q = n.reservation q) (g : m.tags = n.tags) : m.sharedFree = n.sharedFree := by
  unfold Net.sharedFree Net.used Net.sharedUsed
  simp only [h, g]

/-- A change of one port that keeps its record's reservation and what its receiver holds keeps the free blocks. -/
theorem Net.sharedFree_modPort (n : Net) (p : Nat) (f : Port → Port)
    (h : ∀ P, (f P).record.reservation = P.record.reservation) (g : ∀ P, (f P).burst = P.burst)
    (k : ∀ P, (f P).loop = P.loop) :
    (n.modPort p f).sharedFree = n.sharedFree := by
  refine Net.sharedFree_congr (fun q => Net.port_modPort_keep (fun P => P.record.reservation) n p q f h) ?_
  unfold Net.tags
  rw [Net.ports_toList, Net.ports_toList]
  congr 1
  rw [List.flatMap_map, List.flatMap_map]
  congr 1
  funext q
  exact Net.port_modPort_keep Port.heldTags n p q f fun P => by simp only [Port.heldTags, g, k]

/-- The arrival port of a request that can be answered takes replies (R61). -/
theorem State.CanReply.takes {a : Arrival} (h : s.CanReply a) : (s.port a.port).takesReply = true := by
  simp [Port.takesReply, Port.hasRole, h.line, h.up, h.test]

/-- A request whose owner makes no frames is answered. -/
theorem State.ask_replied (a : Arrival) (r : Request) (s v : State) (ans : Answer) (hs : s.CanReply a)
    (h : ∀ f tags, ((s.taken a.port).hold f tags).carryOut s.net.nextId a r = (v.hold f tags, ans))
    (hp : (v.port a.port).takesReply = true) (hq : (v.port a.port).queue = (s.port a.port).queue)
    (hb : ∀ f, 2 ≤ (v.hold f (burstTags (s.port a.port).burst)).net.sharedFree)
    (hn : v.net.nextId = s.net.nextId) (hf : v.net.frames = s.net.frames) :
    s.Replied (s.ask a r) a (requestCode r) ans := by
  have hids : v.net.Sound := ⟨hf ▸ hs.sound.refs, by rw [hf, hn]; exact hs.sound.ids, hf ▸ hs.sound.nodup⟩
  rw [State.ask_eq a r s hs.toHears, State.serve_eq, h]
  dsimp only
  generalize hg : manageFrame s.part.own a (requestCode r) (encodeRequest r) = f
  have hsound : (v.hold f (burstTags (s.port a.port).burst)).net.Sound := by
    refine ⟨?_, ?_, ?_⟩
    · intro x hx
      rcases List.mem_append.1 hx with hx | hx
      · exact hids.refs x hx
      · rw [List.mem_singleton.1 hx]; simp
    · intro x hx
      change x.id < v.net.nextId + 1
      rcases List.mem_append.1 hx with hx | hx
      · have := hids.ids x hx; omega
      · rw [List.mem_singleton.1 hx]; simp
    · change ((v.net.frames ++ [_]).map HeldFrame.id).Nodup
      rw [List.map_append, List.nodup_append]
      refine ⟨hids.nodup, by simp, ?_⟩
      intro x hx y hy
      simp only [List.map_cons, List.map_nil, List.mem_singleton] at hy
      obtain ⟨z, hz, rfl⟩ := List.mem_map.1 hx
      have := hids.ids z hz; omega
  obtain ⟨h1, tags, h2⟩ := State.reply_spec a (requestCode r) ans (v.hold f (burstTags (s.port a.port).burst)) hp
    (by change (v.port a.port).queue.length < _; rw [hq]; exact hs.room) (hb f) hsound
  have hnext : (v.hold f (burstTags (s.port a.port).burst)).net.nextId = s.net.nextId + 1 := by
    change v.net.nextId + 1 = _; rw [hn]
  rw [hnext] at h1 h2
  refine ⟨⟨s.net.nextId + 1, replyFrame v.part.own a (requestCode r) ans, tags, 1⟩, ?_, rfl, rfl, ?_⟩
  · change _ ∈ (Net.release _ _).frames
    simp only [Net.release, List.mem_filter, List.mem_map]
    refine ⟨⟨⟨s.net.nextId + 1, replyFrame v.part.own a (requestCode r) ans, tags, 1⟩, ?_, by simp⟩, by simp⟩
    rw [h2]; exact List.mem_append_right _ (by simp; rfl)
  · change ((State.reply a (requestCode r) ans (v.hold f (burstTags (s.port a.port).burst))).port a.port).queue = _
    rw [h1]
    change (v.port a.port).queue ++ _ = _
    rw [hq]

end Sys2Proof.Machine
end

