-- ==== Sys2Proof/Tests/Slice0.lean ====
section
/-! SUPPORT. Tests of single steps against the manual's worked examples, refused ill-formed commands, and for each statement
with hypotheses a state and operands that meet them (`test_witness_…`). -/

namespace Sys2Proof.Tests

-- One theorem at a time: kernel evaluations that wait for one another take a thread each.
set_option Elab.async false

open Sys2Proof Sys2Proof.Machine

/-! ### A small mill -/

/-- The state a command leaves. -/
def after (c : Instr) (s : State) : State :=
  match exec c s with
  | .next t => t
  | .fault _ => s
  | .refused _ => s

/-- A request from node 1 at port 0. -/
def A : Arrival := ⟨0, 1#8, 7#8⟩

/-- Port `p` in a role, UP, with the built-in fields of R17. -/
def linkUp (p : Nat) (role : Role) (s : State) : State :=
  s.modPort p fun _ =>
    let P := Port.cold (builtInPort role) true
    { P with link := .up, idleRun := 32, silenceTimer := some 20, rateSpoiled := false }

def pass (id : Nat) : PassRecord := ⟨id, 20100, 14350, -5200, -20000, 10000, 1536, 512, 256, 3000, 500⟩

def standRecord (node port force : Nat) : StandRecord :=
  ⟨true, node, port, [], force, 4800, 0, -100000, 800000, 9000, 25, 200, 20, 2000, 3000, 1000, 500, 3, .persistent, 200⟩

def standAt (node port force : Nat) : Stand :=
  let S := Stand.start (standRecord node port force) (some (pass 5))
  { S with mode := .ready, base := some (-5200), lastCommand := some (-5650), lastActual := some (-5600) }

def channelRecord (node point : Nat) (type : ChannelType) : ChannelRecord :=
  ⟨true, node, point, type, [(0, 0), (40000, 20000), (80000, 41000)], 0, 40000, 2000, 200, 3, 50, .hold, none, none⟩

def channelAt (type : ChannelType) (point : Nat) (v : Int) : Channel :=
  let C := Channel.start (channelRecord 31 point type)
  { C with state := .valid, value := v, valueAccepted := true, staleTimer := some 50 }

def spanRecord (u d : Nat) : SpanRecord := ⟨true, u, d, 1200, 300, 16, 14, 15, none, none⟩

/-- Ports 0 and 1 LINE, 3 and 5 STAND, 4 SENSOR, 9 PANEL, all UP; READY stands 1 (node 11, port 3, force channel 1) and 2 (node
12, port 5, force channel 2); channel 3 THICKNESS; span 3 between the stands; nodes 1, 31 and 41 BOUND at ports 0, 4 and 9, the
stand nodes STATIC; the latch clear. -/
def mill : State :=
  let s := State.reset
  let s := { s with phase := .running }
  let s := linkUp 9 .panel (linkUp 4 .sensor (linkUp 5 .stand (linkUp 3 .stand (linkUp 1 .line (linkUp 0 .line s)))))
  let s := (s.modStand 1 fun _ => standAt 11 3 1).modStand 2 fun _ => standAt 12 5 2
  let s := (s.modChannel 1 fun _ => channelAt .force 0 9600).modChannel 3 fun _ => channelAt .thickness 2 26000
  let s := s.modSpan 3 fun _ => Span.start (spanRecord 1 2)
  let s := (s.setNode 11 ⟨.static 3, none⟩).setNode 12 ⟨.static 5, none⟩
  ((s.setNode 1 ⟨.bound 0, none⟩).setNode 31 ⟨.bound 4, none⟩).setNode 41 ⟨.bound 9, none⟩

/-- The mill with stand 1 changed. -/
def stand1 (f : Stand → Stand) : State := mill.modStand 1 f
/-- The mill with the span changed. -/
def span3 (f : Span → Span) : State := mill.modSpan 3 f
/-- The mill with an enabled entry 12 on a condition. -/
def entry12 (c : CondId) (cls : Option Severity) (st : EntryState) (s : State) : State :=
  s.modEntry 12 fun _ => ⟨⟨true, c, 0, cls, 1#8⟩, st⟩

def move : Move := ⟨-3000, 2000, 2⟩
def trip : Trip := ⟨.slow, 7, 0#8, 10⟩

theorem stand_all (s : State) (P : Stand → Prop) (h0 : P (Stand.start builtInStand none))
    (h : ∀ n, 1 ≤ n → n ≤ 8 → P (s.stand n)) (n : Nat) : P (s.stand n) := by
  by_cases h1 : 1 ≤ n ∧ n ≤ 8
  · exact h n h1.1 h1.2
  · have : s.stand n = Stand.start builtInStand none := by
      unfold State.stand getAt
      split
      · rfl
      · rw [Vector.getElem?_eq_none (by omega)]; rfl
    rw [this]; exact h0

theorem refs_none (s : State) (h : ∀ e < 64, (s.entry e).record.enabled = false) (c : CondId) : s.refs c = [] := by
  unfold State.refs
  rw [List.filter_eq_nil_iff]
  intro e he
  simp [h e (List.mem_range.1 he)]

theorem mill_refs (c : CondId) : mill.refs c = [] := refs_none _ (by decide +kernel) c

theorem takes_bound {s : State} {p : Nat} {source : Byte} (h : s.phase = .running ∧ (s.port p).link = .up ∧
    (s.port p).mode = .none ∧ (s.node source.toNat).binding = .bound p) : s.Takes p source :=
  ⟨h.1, h.2.1, h.2.2.1, .inr (.inl h.2.2.2)⟩

theorem takes_static {s : State} {p : Nat} {source : Byte} (h : s.phase = .running ∧ (s.port p).link = .up ∧
    (s.port p).mode = .none ∧ (s.node source.toNat).binding = .static p) : s.Takes p source :=
  ⟨h.1, h.2.1, h.2.2.1, .inl h.2.2.2⟩

/-- What a request of node 1 at port 0 needs. -/
abbrev Asked (s : State) : Prop := (s.phase = .running ∧ (s.port 0).link = .up ∧ (s.port 0).mode = .none ∧
  (s.node 1).binding = .bound 0) ∧ (s.port 0).record.role = .line

/-- What a sound buffer needs. -/
abbrev Kept (s : State) : Prop := (∀ h ∈ s.net.frames, h.refs ≠ 0) ∧ (∀ h ∈ s.net.frames, h.id < s.net.nextId) ∧
  (s.net.frames.map HeldFrame.id).Nodup

/-- What a reply at port 0 needs besides. -/
abbrev Answerable (s : State) : Prop := Asked s ∧ ((s.port 0).queue.length < Config.queueCapacity ∧ 2 ≤ s.net.sharedFree) ∧ Kept s

theorem hears_of {s : State} (h : Asked s) : s.Hears A := ⟨takes_bound h.1, h.2⟩
theorem sound_of {s : State} (h : Kept s) : s.net.Sound := ⟨h.1, h.2.1, h.2.2⟩
theorem canReply_of {s : State} (h : Answerable s) : s.CanReply A := ⟨hears_of h.1, h.2.1.1, h.2.1.2, sound_of h.2.2⟩

theorem mill_canReply : mill.CanReply A := canReply_of (by decide +kernel)
theorem mill_hears : mill.Hears A := mill_canReply.toHears
theorem mill_sound : mill.net.Sound := mill_canReply.sound

/-! ### Ill-formed commands are refused (R1, R172) -/

theorem test_illformed_byte : ¬ (Instr.readPort A 256).WF := by decide
theorem test_illformed_span : ¬ (Instr.readSpan A 0 256).WF := by decide
theorem test_illformed_int : ¬ (Instr.setpoint ⟨0, 1#8⟩ ⟨0, 0#8, .preset, 2147483648⟩).WF := by decide
theorem test_illformed_group : ¬ (Instr.group ⟨0, 1#8⟩ ⟨0#8, 1#8, .trim, -2147483649⟩).WF := by decide
theorem test_illformed_sample : ¬ (Instr.sample 4 1#8 31#8 ⟨2#8, 2147483648, 0#32, 0, .raw⟩).WF := by decide
theorem test_illformed_status : ¬ (Instr.status 3 1#8 11#8 ⟨0, -2147483649, .ready⟩).WF := by decide
theorem test_illformed_unknown : ¬ (Instr.unknownRequest A 2#8 (List.replicate 239 0#8)).WF := by decide +kernel
theorem test_illformed_port : ¬ (Instr.loadPort A 4 ⟨.sensor, false, 8, 20, 10, 65536, 100⟩).WF := by decide
theorem test_illformed_partWide : ¬ (Instr.loadPortPartWide A ⟨254, 60, [(256, 0)]⟩).WF := by decide
theorem test_illformed_channel : ¬ (Instr.loadChannel A 3 ⟨false, 1, 0, .thickness, [], 0, 0, 1, 1, 1, 1, .hold, some 2147483648, none⟩).WF := by decide
theorem test_illformed_channelQuad : ¬ (Instr.loadChannel A 3 ⟨false, 1, 0, .thickness, [], 0, 0, 4294967296, 1, 1, 1, .hold, none, none⟩).WF := by decide
theorem test_illformed_spanRecord : ¬ (Instr.loadSpan A 3 ⟨false, 0, 0, 500, 50, 16, 0, 0, some (256, 0), none⟩).WF := by decide
theorem test_illformed_marker : ¬ (Instr.loadSpan A 3 ⟨false, 0, 0, 500, 50, 16, 0, 0, none, some 256⟩).WF := by decide
theorem test_illformed_stand : ¬ (Instr.loadStand A 1 ⟨false, 1, 0, [], 0, 65536, 0, 0, 1, 0, 1, 1, 1, 100, 1, 0, 1, 1, .latched, 50⟩ none).WF := by decide
theorem test_illformed_pass : ¬ (Instr.loadStand A 1 builtInStand (some (pass 256))).WF := by decide
theorem test_illformed_loadPass : ¬ (Instr.loadPassNext A 1 (pass 256)).WF := by decide
theorem test_illformed_tripEntry : ¬ (Instr.loadTripEntry A 0 ⟨false, ⟨.link, 0⟩, 65536, none, 0#8⟩).WF := by decide
theorem test_illformed_stop : ¬ (Instr.stopRequest A 256 1#8).WF := by decide

/-! ### Steps against the manual's worked examples -/

/-- R2: the digits 1 to 9. -/
theorem test_checkCode : checkCode [0x31#8, 0x32#8, 0x33#8, 0x34#8, 0x35#8, 0x36#8, 0x37#8, 0x38#8, 0x39#8] = 0x29B1#16 := by
  decide +kernel

/-- Section 1.8: the sample of node 31. -/
theorem test_sample_bytes : (Frame.message ⟨1#8, 31#8, .sample, putSample ⟨2#8, 52345, 0#32, 0, .raw⟩⟩).map BitVec.toNat =
    [1, 31, 0x11, 0x0E, 2, 0, 0, 0xCC, 0x79, 0, 0, 0, 0, 0, 0, 0, 0, 0] := by decide +kernel

/-- Chapter 4, calibrating a thickness gauge. -/
theorem test_calibration : ([52345, 40020, 40000, 79000, 85000, -500] : List Int).map
    (ChannelRecord.calibrate (channelRecord 31 2 .thickness)) =
      [(26481, false), (20011, false), (20000, false), (40000, true), (40000, true), (0, true)] := by decide +kernel

/-- Chapter 4: halves away from zero on the whole value. -/
theorem test_interpolation : (throughTable [(0, 10), (4, 4)] 1, throughTable [(0, -100), (4, -106)] 1) =
    ((9, false), (-102, false)) := by decide +kernel

/-- Chapter 4, length counts across the wrap: (504 - 4,294,966,960) modulo 2^32 is 840. -/
theorem test_lengthDelta : lengthDelta 504#32 4294966960#32 = 840 := by decide +kernel

/-- Section 7.9, the worked computation of stand 3. -/
def stand3 : Stand :=
  let S := standAt 33 6 6
  { S with mode := .rolling, base := some (-5200), cfb := -340, cff := some (-40), trim := 20 }

theorem test_computation : computeGap stand3 (pass 5) (-5200) (-5600) (some 9600) =
    { command := -5675, flags := { rate := true }, cfb := -445, estimate := some 14420 } := by decide +kernel

/-- Section 7.9, the trim report of segment 0. -/
theorem test_trim : trimStep (pass 5) 20 14420 14380 = 10 := by decide +kernel

/-- Section 7.10, the third STATUS after the pass change. -/
theorem test_computation_clamped :
    computeGap { stand3 with cfb := -995, cff := some (-25), trim := 0, lastCommand := some (-5725) }
      ⟨6, 20000, 13900, -6400, -7000, -6000, 1536, 512, 256, 1200, 500⟩ (-6400) (-5715) (some 9570) =
    { command := -5750, flags := { window := true, corr := true, rate := true }, cfb := -1200, estimate := some 14223 } := by
  decide +kernel

/-- Chapter 6, step 2: the first STATUS after the admission of stand 2 ramps from -4,060 toward -4,000 by 25. -/
theorem test_status_ramp :
    let s := stand1 fun S => { S with base := some (-4000), lastCommand := some (-4060) }
    ((after (.status 3 1#8 11#8 ⟨-4058, -4060, .ready⟩) s).port 3).commandSlot = some ⟨-4035, 5, 4#8, 1, 11#8⟩ := by
  decide +kernel

/-- Section 8.7, t = 130: number 22 where 20 was expected sets HOLD for 200 ms and fills the record. -/
theorem test_sequence_error :
    let s := stand1 fun S => { S with mode := .rolling, sequence := some 20#8 }
    let S := (after (.setpoint ⟨0, 1#8⟩ ⟨0, 22#8, .trim, -10⟩) s).stand 1
    S.hold = true ∧ S.holdTimer = some 200 ∧ S.sequence = none ∧ S.base = some (-5200) ∧
      S.error = some ⟨1, 20#8, 22#8, .trim, -10, 0#32, false, false⟩ := by decide +kernel

/-- Section 8.7, t = 41: a repeated number is a duplicate. -/
theorem test_duplicate :
    let s := stand1 fun S => { S with mode := .rolling, sequence := some 19#8 }
    ((after (.setpoint ⟨0, 1#8⟩ ⟨0, 18#8, .trim, 20⟩) s).stand 1).base = some (-5200) := by decide +kernel

/-- Section 9.9, t = 0: DRIVE FAULT fires an entry of class FAST; the order to the stand's node goes into its port's slot. -/
theorem test_drive_fault :
    let t := after (.status 3 1#8 11#8 ⟨0, 0, .fault⟩) (entry12 ⟨.driveFault, 1⟩ (some .fast) .idle mill)
    (t.stand 1).mode = .tripped ⟨.fast, 12, 0#8, 10⟩ ∧ (t.port 3).stopSlot = some ⟨.fast, 1#8, 12, 0#8, 11#8⟩ ∧
      t.stopLine = true ∧ t.alertLine = true := by decide +kernel

/-- Chapter 3, a trip at a stand port: FAST for one node and SLOW for another merge as FAST broadcast. -/
theorem test_merge : mergeOrders ⟨.fast, 4#8, 12, 0#8, 33#8⟩ ⟨.slow, 8#8, 20, 0#8, 44#8⟩ = ⟨.fast, 12#8, 12, 0#8, 255#8⟩ := by
  decide +kernel

/-- Chapter 4, sample 2 of the force channel: a step of 5,500 is rejected. -/
theorem test_rejected :
    let s := mill.modChannel 1 fun C => { C with value := 12500, record := { C.record with table := [(0, 0), (60000, 60000)] } }
    let t := after (.sample 4 1#8 31#8 ⟨0#8, 18000, 0#32, 0, .raw⟩) s
    (t.channel 1).state = .suspect ∧ (t.channel 1).value = 12500 ∧ (t.channel 1).rejectCount = 1 := by decide +kernel

/-- R24 as a step, and the timers of stand 8 and entry 63, the last ones. -/
theorem test_last_stand : ((after (.moveTimeout 7) (mill.modStand 8 fun S => { S with mode := .moving move })).stand 8).mode = .ready := by
  decide +kernel
theorem test_last_entry :
    ((after (.tripDelayExpiry 63) (mill.modEntry 63 fun t => { t with state := .timing 0 })).entry 63).state = .fired := by
  decide +kernel

/-- R186, R167: STOP is asserted after reset, and released once the matrix is in force. -/
theorem test_stopLine : State.reset.stopLine = true ∧ (after .startUpReadComplete State.reset).stopLine = false := by
  decide +kernel


/-- R109, R119, R157, R160, R163, R178: the notices of a move that has failed, CONDITION, STAND STATE, MOVE FAILED, and then those of
the entry that it fires: STAND STATE, MOVE FAILED cleared, the flush of the exit span, TRIP. -/
theorem test_moveFailedNotices :
    let s := entry12 ⟨.moveFailed, 1⟩ (some .slow) .idle (stand1 fun S => { S with mode := .moving move })
    (after (.moveTimeout 0) s).net.frames.map (fun h => h.frame.payload.head?) =
      [NoticeKind.condition, .standState, .moveFailed, .standState, .condition, .trackFlush, .trip].map fun k => some (BitVec.ofNat 8 (noticeCode k)) := by
  decide +kernel

/-! ### What meets the hypotheses of each statement -/

theorem test_witness_StepTakesFront : { mill with pending := [.powerOn] }.pending = .powerOn :: [] ∧ mill.pending = [] := by
  decide +kernel

theorem ports_all (s : State) (P : Port → Prop) (h0 : P (Port.cold (builtInPort .disabled) false))
    (h : ∀ p, p < 12 → P (s.port p)) (p : Nat) : P (s.port p) := by
  by_cases h1 : p < 12
  · exact h p h1
  · have : s.port p = Port.cold (builtInPort .disabled) false := by
      unfold State.port Net.port getAt
      rw [Vector.getElem?_eq_none (by omega)]; rfl
    rw [this]; exact h0

/-- A sound buffer whose ports refer to no frame, and that holds none, counts exactly. -/
theorem exact_of {s : State} (h : s.net.frames = [])
    (hp : ∀ p ∈ portNumbers, (s.net.port p).queue = [] ∧ (s.net.port p).sending = none) : s.net.Exact [] := by
  refine ⟨⟨by simp [h], by simp [h], by simp [h]⟩, by simp [h], fun id hid => absurd ?_ hid⟩
  simp only [List.count_nil, Nat.add_zero, Net.refsTo]
  rw [List.map_congr_left (g := fun _ => 0) (fun p hp' => by simp [Port.refsTo, hp p hp'])]
  decide

theorem mill_exact : mill.net.Exact [] := exact_of (by decide +kernel) (by decide +kernel)

/-- The invariant holds in the mill, and a step from it answers a next state. -/
theorem test_witness_StepKeepsInvariant : mill.Inv ∧ step mill = .next mill := by
  refine ⟨⟨?_, mill_exact, by decide +kernel, fun _ => by decide +kernel, ?_⟩, rfl⟩
  · exact ports_all mill (fun P => P.queue.length ≤ Config.queueCapacity) (by decide) (by decide +kernel)
  · exact ports_all mill (fun P => P.link = .disabled → P.stopSlot = none ∧ P.commandSlot = none ∧ P.silenceTimer = none ∧ P.loop = none)
      (by decide) (by decide +kernel)

theorem test_witness_PowerAndReset :
    let h := after .resetInputAssert mill
    let b := after .brownOut mill
    mill.phase ≠ .unpowered ∧ (h.phase = .heldInReset ∧ h.supplyLow = false) ∧ (b.phase = .heldInReset ∧ b.supplyLow = true) ∧
    (after .powerLoss mill).phase = .unpowered := by decide +kernel

/-- A store whose PORTS section has a PANEL port and whose STANDS section has two configured stands. -/
def stored : State :=
  let x := mill.portsContent
  let x := { x with part := ⟨254, 60, [(11, 3), (12, 5)]⟩ }
  let t := State.reset.store
  { State.reset with store :=
      ⟨.written PortsSection.bytes x, t.channels, .written StandsSection.bytes mill.standsContent, t.trip, none, false, t.sections⟩ }

set_option maxRecDepth 20000 in
/-- Nothing stored, and two valid sections, which a start-up takes. -/
theorem test_witness_StartUpLoadsSections :
    let t := after .startUpReadComplete stored
    (State.reset.phase = .reading ∧ State.reset.net.frames = []) ∧
    (stored.phase = .reading ∧ (stored.store.ports.read PortsSection.bytes).isSome ∧
      (stored.store.stands.read StandsSection.bytes).isSome) ∧
    staticPort t.part.bindings 11 = some 3 ∧ t.node 11 = ⟨.static 3, none⟩ ∧ (t.stand 1).record.configured = true ∧
    (t.port 9).record.role = .panel := by decide +kernel

/-- A stored record is checked whether or not it is configured: one with the own number as its node is marked (R184). -/
theorem test_storedRecordOutOfRange :
    let s := mill.modStand 3 fun S => { S with record := { S.record with configured := false, node := 254 } }
    let m := fun b => (s.modStore fun t => { t with sections := t.sections.set 2 ⟨b, false⟩ }).checkStands
    ((m true).stand 3).record.configured = false ∧ ((m true).store.isModified 2 = true) ∧ (m false).store.isModified 2 = false := by
  decide +kernel

set_option maxRecDepth 20000 in
theorem test_witness_BuiltInContent :
    let t := after .startUpReadComplete stored
    (State.reset.store.ports.read PortsSection.bytes = none ∧ State.reset.store.channels.read channelsBytes = none ∧
      State.reset.store.stands.read StandsSection.bytes = none ∧ State.reset.store.trip.read TripSection.bytes = none) ∧
    (stored.phase = .reading ∧ stored.store.trip.read TripSection.bytes = none ∧ (t.port 9).record.role = .panel ∧
      (t.stand 1).record.configured = true ∧ (t.stand 1).record.port = 3 ∧ (t.port 0).record.role ≠ .panel) ∧
    (t.entry 9).record = ⟨true, ⟨.panel, 9⟩, 0, some .fast, 0xFF#8⟩ ∧
    (t.entry 15).record = ⟨true, ⟨.link, 3⟩, 0, some .fast, 1#8⟩ := by decide +kernel

theorem test_witness_TickAdvancesTimers : State.reset.phase = .reading ∧ mill.phase = .running := by decide +kernel

/-! Link ports -/

/-- Port 1 in a link state. -/
def linkAt (l : LinkState) : State := mill.modPort 1 fun P => { P with link := l }

theorem test_witness_LinkState : ((linkAt .sync).port 1).link = .sync ∧ (mill.port 1).link = .up ∧
    ((linkAt .babble).port 1).link = .babble ∧ (mill.port 11).link = .disabled := by decide +kernel

theorem test_witness_Monitors : (mill.port 0).silenceTimer.isSome ∧ (mill.port 0).rateSpoiled = false ∧
    (mill.port 11).rateSpoiled = true ∧
    (250000 + 750 < 250751 ∧ 250000 < 250499 + 500 ∧ 250499 < 250000 + 500 ∧ 249249 + 750 < 250000 ∧
      250000 + 500 ≤ 250500 ∧ 250750 ≤ 250000 + 750 ∧ 249500 + 500 ≤ 250000 ∧ 250000 ≤ 249250 + 750) := by decide +kernel

/-- A frame held in the queue of ports 0 and 1. -/
def queued : State := mill.notice .hold 1 []

def gap1 : GapCommand := ⟨0, 5, 0#8, 1, 11#8⟩
def order1 : StopOrder := ⟨.fast, 1#8, 12, 0#8, 11#8⟩

theorem test_witness_Transmitter :
    let slots := mill.modPort 3 fun P => { P with mode := .localLoop, commandSlot := some gap1 }
    let stops := mill.modPort 3 fun P => { P with commandSlot := some gap1, stopSlot := some order1 }
    ((stops.port 3).stopSlot = some order1 ∧ (stops.port 3).mode = .none ∧ (stops.port 3).sending = none) ∧
    ((queued.port 0).queue = [0] ∧ (queued.net.frame 0).isSome ∧ (queued.port 0).sending = none ∧
      (queued.port 0).link ≠ .disabled ∧ (queued.port 0).mode = .none ∧ (queued.port 0).stopSlot = none ∧
      (queued.port 0).commandSlot = none) ∧ (mill.port 11).link = .disabled ∧
    ((slots.port 3).sending = none ∧ (slots.port 3).mode = .localLoop ∧ (slots.port 3).commandSlot = some gap1) ∧
    ((mill.modPort 1 fun P => { P with mode := .pattern, injection := true }).port 1).mode = .pattern ∧
    ((mill.port 0).mode ≠ .pattern ∧ (mill.port 0).queue = []) := by decide +kernel

/-- The frame on the line holds a reference, and another copy of it waits at port 1; a stop order on the line holds none. -/
theorem test_witness_TransmissionEnd :
    let s := after (.transmitBegin 0) queued
    ((s.port 0).sending.bind Sending.held = some 0 ∧ (s.port 0).loop = none ∧ (mill.port 0).sending = none ∧
      ((after (.transmitBegin 3) (mill.modPort 3 fun P => { P with stopSlot := some order1 })).port 3).sending.any
        Sending.stopOrder = true) ∧ s.net.Sound :=
  ⟨by decide +kernel, sound_of (by decide +kernel)⟩

/-- R33, R38: a STOP frame echoed in REMOTE LOOP counts as sent and as a stop order sent. -/
theorem test_echoedStopCounts :
    let e := mill.modPort 1 fun P => { P with mode := .remoteLoop }
    let f : Frame := ⟨254#8, 41#8, .stop, [2#8, 1#8, 0#8, 0#8]⟩
    let c := ((after (.transmitEnd 1) (after (.transmitBegin 1) (after (.frameReceived 1 (symbolsOf f.bytes)) e))).port 1).counters
    c = { received := 1, sent := 1, stopSent := 1 } := by decide +kernel

/-- The SETPOINT frame of node 1 for stand 1. -/
def setpointFrame : Frame := ⟨254#8, 1#8, .setpoint, [1#8, 0#8, 1#8, 0#8, 0#8, 0#8, 0#8]⟩
/-- A PATTERN frame, and a burst that fails as CHECK. -/
def patternFrame : Frame := ⟨0#8, 0#8, .pattern, List.replicate 66 0#8⟩
def badBurst : List Symbol := symbolsOf [1#8, 1#8, 0x31#8, 0#8, 0#8, 0#8]

/-- Port 3 in LOCAL LOOP, sending a frame with a burst in the loop. -/
def looping (f : Frame) (b : Burst) : State :=
  mill.modPort 3 fun P => { P with mode := .localLoop, sending := some ⟨f, none⟩, loop := some b }

/-- The part's own GAP frame is MALFORMED at its own receiver (R6), a forwarded frame valid; with blocks, and short of buffer. -/
theorem test_witness_TestModes_loop :
    let s := looping setpointFrame .start
    judge mill.part.own (symbolsOf (gapFrame mill.part.own gap1).bytes) = .malformed ∧
    judge mill.part.own (symbolsOf setpointFrame.bytes) = .valid setpointFrame ∧
    ((s.port 3).loop = some .start ∧ s.net.used 3 + 2 ≤ s.net.reservation 3 ∧ s.part.own = mill.part.own) := by
  decide +kernel

set_option maxRecDepth 2000 in
/-- Port 1 in REMOTE LOOP with an empty and a full queue, and in PATTERN. -/
theorem test_witness_TestModes_line :
    let e := mill.modPort 1 fun P => { P with mode := .remoteLoop }
    let f := e.modPort 1 fun P => { P with queue := List.replicate 64 0 }
    let p := mill.modPort 1 fun P => { P with mode := .pattern }
    (e.phase = .running ∧ (e.port 1).link = .up ∧ e.net.used 1 + 2 ≤ e.net.reservation 1 ∧ (e.port 1).burst = none ∧
      (e.port 1).mode = .remoteLoop ∧ (e.port 1).queue.length < 64 ∧ 64 ≤ (f.port 1).queue.length ∧
      (p.port 1).mode = .pattern ∧ (mill.port 1).mode = .none) ∧
    judge mill.part.own (symbolsOf patternFrame.bytes) = .valid patternFrame ∧ judge mill.part.own badBurst = .check ∧
    Kept e := by decide +kernel

/-- The bits of a PATTERN frame from the register at all ones. -/
def patternBits : List Bool := (patternDraw 512 0x7FFF#15).1

theorem patternDraw_bit (n k : Nat) (r : BitVec 15) (h : k < n) :
    (patternDraw n r).1[k]? = some (patternBit (patternStep^[k] r)) := by
  induction n generalizing k r with
  | zero => omega
  | succ n ih =>
    cases k with
    | zero => rfl
    | succ k => simpa [patternDraw] using ih k (patternStep r) (by omega)

theorem patternStep_high (r : BitVec 15) (i : Nat) (h : i < 14) : (patternStep r).getLsbD (i + 1) = r.getLsbD i := by
  simp [patternStep, show i + 1 < 15 by omega, BitVec.getLsbD_eq_getElem (show i < 15 by omega)]

theorem patternStep_low (r : BitVec 15) : (patternStep r).getLsbD 0 = patternBit r := by simp [patternStep]

theorem patternStep_shift (j i : Nat) (r : BitVec 15) (h : i + j < 15) : (patternStep^[j] r).getLsbD (i + j) = r.getLsbD i := by
  induction j with
  | zero => rfl
  | succ j ih => rw [Function.iterate_succ_apply', ← Nat.add_assoc, patternStep_high _ _ (by omega), ih (by omega)]

/-- No register draws ones alone: the sixteenth output bit is the exclusive-or of the first two. -/
theorem not_all_ones (r : BitVec 15) : (patternDraw 512 r).1 ≠ List.replicate 512 true := by
  intro h
  have bit : ∀ k, k < 512 → patternBit (patternStep^[k] r) = true := fun k hk => by
    have := patternDraw_bit 512 k r hk
    rw [h, List.getElem?_replicate, if_pos hk] at this
    exact (Option.some.inj this).symm
  have a : (patternStep^[14] (patternStep r)).getLsbD 14 = _ := patternStep_shift 14 0 _ (by decide)
  have b : (patternStep^[13] (patternStep (patternStep r))).getLsbD 13 = _ := patternStep_shift 13 0 _ (by decide)
  have c := bit 15 (by decide)
  rw [patternStep_low, show patternBit r = true from bit 0 (by decide)] at a
  rw [patternStep_low, show patternBit (patternStep r) = true from bit 1 (by decide)] at b
  have a : (patternStep^[15] r).getLsbD 14 = true := a
  have b : (patternStep^[15] r).getLsbD 13 = true := b
  rw [patternBit, a, b] at c
  cases c

/-- A checker that takes, or misses, its own draw; and one that hunts, with a run of one frame or none. -/
theorem test_witness_TestModes_checker :
    let K : Checker := ⟨true, 2, 3, 0x7FFF#15⟩
    let H : Checker := ⟨false, 1, 0, 0x7FFF#15⟩
    (patternBits.length = 512 ∧ (List.replicate 512 true).length = 512) ∧
    (K.inSync = true ∧ (patternDraw 512 K.register).1 = patternBits ∧ (patternDraw 512 K.register).1 ≠ List.replicate 512 true) ∧
    (H.inSync = false ∧ ¬ ∃ r : BitVec 15, r ≠ 0#15 ∧ (patternDraw 512 r).1 = List.replicate 512 true) ∧
    (0x7FFF#15 ≠ 0#15 ∧ (patternDraw 512 0x7FFF#15).1 = patternBits ∧ H.goodRun = 1 ∧ H.register = 0x7FFF#15) :=
  ⟨⟨by decide +kernel, by decide +kernel⟩, ⟨rfl, rfl, not_all_ones _⟩, ⟨rfl, fun ⟨r, _, h⟩ => not_all_ones r h⟩, by decide, rfl, rfl, rfl⟩

/-- A LINE port with a longer reservation, at a pool that covers it and at one that does not; PANEL port 9 loses its role, port 6
takes one; port 1 keeps the two blocks of its burst through a raise and loses one. -/
theorem test_witness_LoadPort :
    let r : PortRecord := ⟨.line, false, 15, 20, 10, 200, 100⟩
    let tight := mill.modPort 1 fun P => { P with burst := some ⟨List.replicate 410 .shared, 1, false⟩ }
    let lower := mill.modPort 1 fun P => { P with burst := some ⟨[.reserved 1, .reserved 1], 2, false⟩ }
    tight.CanReply A ∧ mill.net.Exact [] ∧
    (PortRecord.inRange r = true ∧ tight.linesFit 1 r = true ∧ tight.reservationsFit 1 r = true ∧
      (tight.port 1).record.role = r.role ∧ (tight.port 1).record.reservation + tight.net.sharedFree < r.reservation) ∧
    (mill.linesFit 1 r = true ∧ mill.reservationsFit 1 r = true ∧ (mill.port 1).record.role = r.role ∧
      mill.net.used 1 ≤ r.reservation ∧ r.reservation ≤ (mill.port 1).record.reservation + mill.net.sharedFree) ∧
    ((mill.port 9).record.role ≠ .disabled ∧ mill.roleHeld 0 9 = false ∧
      PortRecord.inRange (builtInPort .disabled) = true ∧ mill.linesFit 9 (builtInPort .disabled) = true ∧
      mill.reservationsFit 9 (builtInPort .disabled) = true ∧ mill.net.used 9 ≤ (builtInPort .disabled).reservation ∧
      (builtInPort .disabled).reservation ≤ (mill.port 9).record.reservation + mill.net.sharedFree) ∧
    ((mill.port 6).record.role ≠ .sensor ∧ mill.roleHeld 0 6 = false ∧
      PortRecord.inRange (builtInPort .sensor) = true ∧ mill.linesFit 6 (builtInPort .sensor) = true ∧
      mill.reservationsFit 6 (builtInPort .sensor) = true) ∧
    (∀ q, q ≠ 1 → .reserved 1 ∉ (lower.net.port q).heldTags) ∧
    (lower.net.used 1 = 2 ∧ lower.net.reservation 1 ≤ 8 ∧ 1 < lower.net.reservation 1) := by
  refine ⟨canReply_of (by decide +kernel), mill_exact, by decide +kernel, by decide +kernel, by decide +kernel, by decide +kernel,
    fun q h => ?_, by decide +kernel⟩
  by_cases hq : q < 12
  · exact (by decide +kernel : ∀ q < 12, q ≠ 1 → .reserved 1 ∉ ((mill.modPort 1 fun P =>
      { P with burst := some ⟨[.reserved 1, .reserved 1], 2, false⟩ }).net.port q).heldTags) q hq h
  · rw [Net.port, getAt, Vector.getElem?_eq_none (by omega)]; decide

/-- Port 1 can enter every test mode, port 3 once its stand is OUT; port 1 leaves one, and takes an injection. -/
theorem test_witness_PortTest :
    let s := mill.modPort 1 fun P => { P with mode := .pattern }
    let o := stand1 fun S => { S with mode := .out }
    mill.CanReply A ∧ mill.net.Exact [] ∧ s.Hears A ∧ o.Hears A ∧
    ((mill.port 1).mode = .none ∧ (mill.port 1).record.role ≠ .disabled ∧ (1 : Fin 12) ≠ A.port ∧
      ((mill.port 1).record.role = .stand → mill.namedInService 1 = false)) ∧
    ((o.port 3).record.role ≠ .disabled ∧ (3 : Fin 12) ≠ A.port ∧ o.namedInService 3 = false) ∧ (s.port 1).mode = .pattern :=
  ⟨mill_canReply, mill_exact, hears_of (by decide +kernel), hears_of (by decide +kernel), by decide +kernel⟩

/-! The frame buffer, the node table and frames at arrival -/

theorem blocks_of {s : State} {p : Nat} (h : s.net.used p + 2 ≤ s.net.reservation p ∧ (s.port p).burst = none) : s.HasBlocks p :=
  ⟨h.1, fun b hb => by rw [h.2] at hb; cases hb⟩

theorem block_of {s : State} {p : Nat} (h : (s.port p).burst = none ∧ s.net.used p < s.net.reservation p) : s.HasBlock p := by
  unfold State.HasBlock; rw [h.1]; exact h.2

/-- What a notice on port `q` needs. -/
abbrev Noticed (s : State) (q : Nat) : Prop := (q < 12 ∧ (s.port q).record.role = .line ∧ (s.port q).forwards = true ∧
  (s.port q).queue.length < Config.queueCapacity) ∧ 0 < s.net.sharedFree ∧ Kept s

theorem canNotify_of {s : State} {q : Nat} (h : Noticed s q) : s.CanNotify q :=
  ⟨⟨h.1.1, h.1.2.1, h.1.2.2.1, h.1.2.2.2⟩, h.2.1, sound_of h.2.2⟩

theorem mill_canNotify : mill.CanNotify 0 := canNotify_of (by decide +kernel)

/-- Port 4 with a free reservation, with none but a free pool, and with neither; each discard; port 11, not UP. -/
theorem test_witness_ReceiverClaims :
    let full := mill.modPort 4 fun P => { P with record := { P.record with reservation := 0 } }
    let none_ := full.modPort 0 fun P => { P with burst := some ⟨List.replicate 424 .shared, 1, false⟩ }
    let second := mill.modPort 4 fun P => { P with burst := some ⟨[.reserved 4], 1, false⟩ }
    let loop := mill.modPort 4 fun P => { P with mode := .localLoop, loop := some ⟨[.reserved 4], 1, false⟩ }
    let short := mill.modPort 4 fun P => { P with burst := some ⟨[], 1, true⟩ }
    (mill.phase = .running ∧ (mill.port 4).link = .up ∧ (mill.port 4).mode = .none ∧ (mill.port 4).burst = none) ∧
    (mill.net.used 4 < mill.net.reservation 4 ∧ (full.net.reservation 4 ≤ full.net.used 4 ∧ 0 < full.net.sharedFree) ∧
      (none_.net.reservation 4 ≤ none_.net.used 4 ∧ none_.net.sharedFree = 0)) ∧
    ((second.port 4).burst = some ⟨[.reserved 4], 1, false⟩ ∧ (loop.port 4).mode = .localLoop ∧
      (loop.port 4).loop = some ⟨[.reserved 4], 1, false⟩) ∧
    (judge mill.part.own [] = .malformed ∧ judge mill.part.own badBurst = .check) ∧
    (short.port 4).isShort .line = true ∧ (mill.port 11).link ≠ .up ∧ (mill.port 11).loop = none := by decide +kernel

def sampleFrame : Frame := ⟨1#8, 31#8, .sample, putSample ⟨2#8, 52345, 0#32, 0, .raw⟩⟩
def statusFrame : Frame := ⟨1#8, 11#8, .status, putStatus ⟨0, 0, .ready⟩⟩
def panelFrame : Frame := ⟨254#8, 41#8, .stop, [2#8, 255#8, 0#8, 0#8]⟩
def groupFrame : Frame := ⟨254#8, 1#8, .group, [0#8, 1#8, 3#8, 0#8, 0#8, 0#8, 0#8]⟩
def readFrame : Frame := ⟨254#8, 1#8, .manage, 0x10#8 :: 7#8 :: encodeRequest (.readPort false 11)⟩

/-- One valid frame of each kind at a port in test mode NONE; a burst short of buffer. -/
theorem test_witness_FrameReceivedIsItsRow :
    let short := mill.modPort 0 fun P => { P with burst := some ⟨[], 1, true⟩ }
    (∀ p, p = 0 ∨ p = 3 ∨ p = 4 ∨ p = 9 → mill.HasBlocks p) ∧ (Request.row A (.readPort false 11)).WF ∧
    ((short.port 0).isShort .line = true ∧ (short.port 0).link = .up ∧ (short.port 0).mode = .none) ∧
    (mill.phase = .running ∧ ∀ p, p = 0 ∨ p = 3 ∨ p = 4 ∨ p = 9 → (mill.port p).link = .up ∧ (mill.port p).mode = .none) ∧
    (∀ f ∈ [setpointFrame, sampleFrame, statusFrame, panelFrame, groupFrame, readFrame],
      judge mill.part.own (symbolsOf f.bytes) = .valid f) ∧
    (getSample sampleFrame.payload).isSome ∧ (getStatus statusFrame.payload).isSome ∧ (getStop panelFrame.payload).isSome ∧
    ((getSetpoint setpointFrame.payload).isSome ∧ (getGroup groupFrame.payload).isSome ∧ setpointFrame.dest.toNat = mill.part.own) ∧
    readFrame.payload = 0x10#8 :: A.tag :: encodeRequest (.readPort false 11) ∧ requestCode (.readPort false 11) = 0x10 := by
  refine ⟨fun p h => ?_, by simp [Request.row, Instr.WF], by decide +kernel, ⟨by decide +kernel, ?_⟩, by decide +kernel⟩
  · rcases h with h | h | h | h <;> subst h <;> exact blocks_of (by decide +kernel)
  · rintro p (h | h | h | h) <;> subst h <;> decide +kernel

/-- Node 1, BOUND at port 0, sends to port 1; node 50 to port 4, where NODE LOCK holds node 31; to port 0, first and after it was
LEARNED at port 1; and to port 3, whose NODE LOCK holds no BOUND entry. -/
theorem test_witness_NodeTableJudges :
    let moved := mill.setNode 50 ⟨.learned 1 9, none⟩
    let f : SetpointFields := ⟨0, 0#8, .preset, 0⟩
    (Instr.Asks 1 1#8 (.setpoint ⟨1, 1#8⟩ f) ∧ Instr.Reports 4 50#8 (.sample 4 1#8 50#8 ⟨2#8, 52345, 0#32, 0, .raw⟩) ∧
      mill.HasBlock 4 ∧ mill.HasBlocks 1 ∧ mill.CanNotify 0) ∧
    (mill.phase = .running ∧ (mill.port 1).link = .up ∧ (mill.port 1).mode = .none ∧
      (mill.node 1) = ⟨.bound 0, none⟩ ∧ 0 ≠ (1 : Fin 12).val) ∧
    ((mill.node 50).binding = .empty ∧ (mill.port 4).record.nodeLock = true ∧ (mill.node 31).binding = .bound 4 ∧
      ∀ j, 1 ≤ j → j < 31 → (mill.node j).binding ≠ .bound 4) ∧
    ((mill.port 0).record.nodeLock = false ∧ (moved.node 50).binding = .learned 1 9 ∧ 1 ≠ (0 : Fin 12).val) ∧
    ((mill.port 3).record.nodeLock = true ∧ ∀ m, 1 ≤ m → m ≤ 254 → (mill.node m).binding ≠ .bound 3) ∧
    judge mill.part.own (symbolsOf setpointFrame.bytes) = .valid setpointFrame :=
  ⟨⟨.inl ⟨_, rfl⟩, .inl ⟨_, _, rfl⟩, block_of (by decide +kernel), blocks_of (by decide +kernel), mill_canNotify⟩, by decide +kernel⟩

/-- A REPLY of node 60 at port 1 to all; to nodes of port 0, with room and full, of ports 3 and 1, and of none; a MANAGE to all and
to another node. -/
theorem test_witness_FrameCopies :
    let s := mill.setNode 60 ⟨.bound 1, none⟩
    let full := s.modPort 0 fun P => { P with queue := List.replicate 64 0 }
    let down := s.modPort 3 fun P => { P with link := .sync }
    let reply (d : Byte) : Frame := ⟨d, 60#8, .reply, [0x10#8, 0#8, 0#8]⟩
    let ask (d : Byte) : Frame := ⟨d, 60#8, .manage, [0x10#8, 0#8]⟩
    s.Takes 1 60#8 ∧ s.HasBlocks 1 ∧ s.net.Sound ∧ s.refs ⟨.silent, 1⟩ = [] ∧
    (∀ f ∈ [reply 255#8, reply 1#8, reply 11#8, reply 60#8, reply 77#8, ask 255#8, ask 11#8,
        { statusFrame with source := 60#8 }, { setpointFrame with source := 60#8, dest := 11#8 }],
      judge s.part.own (symbolsOf f.bytes) = .valid f) ∧
    ((s.node 1).binding = .bound 0 ∧ (s.port 0).forwards = true ∧ (s.port 0).queue.length < 64 ∧
      64 ≤ (full.port 0).queue.length ∧ (s.node 11).binding = .static 3 ∧ (down.port 3).forwards = false ∧
      (s.node 60).binding = .bound 1 ∧ (s.node 77).binding = .empty) ∧
    (s.port 1).record.role = .line ∧ (s.port 0).record.role = .line ∧ s.part.own ≠ 255 :=
  ⟨takes_bound (by decide +kernel), blocks_of (by decide +kernel), sound_of (by decide +kernel), refs_none _ (by decide +kernel) _,
   by decide +kernel⟩

theorem test_witness_WrongRole : mill.Takes 3 11#8 ∧ mill.HasBlock 3 ∧
    ((mill.port 3).record.role ≠ .line ∧ (mill.port 3).record.role ≠ .panel ∧ (mill.port 3).record.role ≠ .sensor) ∧
    Instr.Asks 11 1#8 (.setpoint ⟨11, 1#8⟩ ⟨0, 0#8, .preset, 0⟩) ∧ (mill.port 11).link ≠ .up ∧ State.reset.phase ≠ .running :=
  ⟨takes_static (by decide +kernel), block_of (by decide +kernel), by decide +kernel, .inl ⟨_, rfl⟩, by decide +kernel⟩

theorem test_witness_NodeTableAges : mill.CanReply A ∧ (mill.node 11).binding = .static 3 ∧ 11 ≠ mill.part.own ∧
    ((mill.node 253).binding = .empty ∧ 253 ≠ mill.part.own) ∧
    (PartWide.inRange ⟨253, 600, [(11, 3), (12, 5), (254, 11)]⟩ = true ∧
      mill.keepsStands ⟨253, 600, [(11, 3), (12, 5), (254, 11)]⟩ = true) ∧
    ((mill.setNode 254 ⟨.learned 0 59, some 1⟩).node 254).binding = .learned 0 59 := ⟨mill_canReply, by decide +kernel⟩
/-! Gauge channels -/

theorem test_witness_Calibration : risingRaw [(0, 0), (40000, 20000), (80000, 41000)] = true ∧
    ((40000, 20000) : Int × Int) ∈ [(0, 0), (40000, 20000), (80000, 41000)] ∧ (-500 : Int) < 0 ∧
    [((0 : Int), (0 : Int)), (40000, 20000), (80000, 41000)].getLast? = some (80000, 41000) ∧
    ((40000 : Int) < 52345 ∧ (52345 : Int) < 80000) ∧ (0 : Int) ≤ 40000 := by decide

/-- The sample of section 1.8 at its port. -/
theorem mill_samples : mill.Takes 4 31#8 ∧ mill.HasBlock 4 ∧ (mill.port 4).record.role = .sensor :=
  ⟨takes_bound (by decide +kernel), block_of (by decide +kernel), by decide +kernel⟩

/-- That sample at its channel, in VALID within the step limit and at it, and in WAITING; at a port that is LIMITING. -/
theorem test_witness_AcceptedSample :
    let w := mill.modChannel 3 fun C => { C with state := .waiting }
    let l := mill.modPort 4 fun P => { P with limiting := true, stormCount := 99 }
    (∀ k, mill.refs ⟨k, 3⟩ = []) ∧ mill.net.Sound ∧
    ((mill.port 4).limiting = false ∧ (mill.port 4).stormCount < (mill.port 4).record.rising) ∧
    ((l.port 4).limiting = true ∧ (l.port 4).stormCount < (l.port 4).record.falling) ∧
    (mill.matching 31#8 2#8 = some 3 ∧ (mill.channel 3).record.type = .thickness ∧
      ChannelRecord.calibrate (mill.channel 3).record 52345 = (26481, false) ∧ (mill.channel 3).state = .valid ∧
      |(26481 : Int) - (mill.channel 3).value| ≤ (mill.channel 3).record.stepLimit ∧
      |(28000 : Int) - (mill.channel 3).value| = (mill.channel 3).record.stepLimit) ∧
    ((w.channel 3).state = .waiting ∧ w.matching 31#8 2#8 = some 3) :=
  ⟨fun _ => mill_refs _, mill_sound, by decide +kernel⟩

/-- Beyond the storm limit from LIMITING and not; of no channel; outside the step limit, below the reject limit and at it, under
HOLD and MUTE; out of range in WAITING. -/
theorem test_witness_SamplesTurnedAway :
    let l := mill.modPort 4 fun P => { P with limiting := true, stormCount := 100 }
    let n := mill.modPort 4 fun P => { P with stormCount := 200 }
    let m := mill.modChannel 3 fun C => { C with rejectCount := 2, record := { C.record with treatment := .mute } }
    let w := mill.modChannel 3 fun C => { C with state := .waiting }
    ((l.port 4).limiting = true ∧ (l.port 4).record.falling ≤ (l.port 4).stormCount) ∧
    ((n.port 4).limiting = false ∧ (n.port 4).record.rising ≤ (n.port 4).stormCount) ∧
    (mill.matching 31#8 9#8 = none ∧ mill.matching 31#8 2#8 = some 3 ∧ (mill.channel 3).record.type = .thickness) ∧
    (ChannelRecord.calibrate (mill.channel 3).record 70000 = (35750, false) ∧
      ((mill.channel 3).record.stepLimit : Int) < |35750 - (mill.channel 3).value| ∧
      ¬ (mill.channel 3).record.rejectLimit ≤ (mill.channel 3).rejectCount + 1) ∧
    ((m.channel 3).record.rejectLimit ≤ (m.channel 3).rejectCount + 1 ∧ (m.channel 3).record.treatment = .mute) ∧
    ((w.channel 3).state = .waiting ∧ (ChannelRecord.calibrate (w.channel 3).record 80001).2 = true) := by decide +kernel

/-- Channel 3 of another type and state, with its runs. -/
def channel3 (type : ChannelType) (state : ChannelState) (run : Nat) : State :=
  mill.modChannel 3 fun _ =>
    { channelAt type 2 20500 with state := state, recoveryRun := run, lengthRef := some 4294966960#32,
                                  lastCalibrated := some (20500, 4294966960#32) }

/-- SPEED within and beyond the length limit, and without a reference; FORCE within the step limit and beyond; a MARKER with a valid
code and with another on both sides; a FAILED channel at each length of its run. -/
theorem test_witness_SamplesAreHandedOn :
    (∀ type, (channel3 type .valid 0).matching 31#8 2#8 = some 3) ∧ (mill.port 4).admits = true ∧
    ChannelRecord.calibrate (channelRecord 31 2 .speed) 40000 = (20000, false) ∧
    (let C := (channel3 .speed .valid 0).channel 3
     (C.record.type = .speed ∧ C.state = .valid ∧ |20000 - C.value| ≤ C.record.stepLimit ∧
        C.lengthRef = some 4294966960#32) ∧
     (4294967100#32 - 4294966960#32).toNat ≤ C.record.lengthLimit ∧ C.record.lengthLimit < (504#32 - 4294966960#32).toNat) ∧
    (((channel3 .force .valid 0).channel 3).record.type = .force ∧
      (((channel3 .force .valid 0).channel 3).record.stepLimit : Int) < |30000 - ((channel3 .force .valid 0).channel 3).value|) ∧
    (((channel3 .marker .failed 2).channel 3).record.type = .marker ∧ ((channel3 .marker .valid 0).channel 3).state = .valid ∧
      (0 : Int) < 1 ∧ (3 : Int) < 4 ∧ ((channel3 .marker .failed 1).channel 3).state = .failed ∧
      ((channel3 .marker .failed 1).channel 3).recoveryRun ≠ 2) ∧
    ((channel3 .force .failed 2).channel 3).lastCalibrated = some (20500, 4294966960#32) ∧
    (∀ n, 1 ≤ n → n ≤ 8 → (mill.stand n).record.configured = true → (mill.stand n).record.force ≠ 7) ∧
    ((mill.stand 1).record.configured = true ∧ (mill.stand 1).record.force = 1 ∧
      ∀ m, 1 ≤ m → m ≤ 8 → m ≠ 1 → (mill.stand m).record.configured = true → (mill.stand m).record.force ≠ 1) := by
  refine ⟨fun t => ?_, by decide +kernel⟩
  cases t <;> decide +kernel

theorem test_witness_ChannelsAreLoaded :
    let r := { channelRecord 31 2 .thickness with engMax := 20000, staleTime := 60 }
    let q := channelRecord 31 7 .thickness
    mill.Hears A ∧
    (ChannelRecord.inRange mill.part.own r = true ∧ mill.channelFree 3 r = true ∧
      ChannelRecord.sameIdentity (mill.channel 3).record r = true) ∧
    (ChannelRecord.inRange mill.part.own q = true ∧ mill.channelFree 3 q = true ∧
      ChannelRecord.sameIdentity (mill.channel 3).record q = false ∧ mill.channelBusy 3 = false) ∧
    (mill.channelFree 31 q = true ∧ ChannelRecord.sameIdentity (mill.channel 31).record q = false) ∧
    (mill.channel 31).staleTimer = none ∧ (mill.channel 3).staleTimer.isSome := ⟨mill_hears, by decide +kernel⟩

/-! Spans -/

theorem test_witness_SpanQueues : mill.Tracked ∧ step mill = .next mill :=
  ⟨⟨by decide +kernel, by decide +kernel, fun c h => (by
      rw [show mill.store.stands = Stored.erased from by decide +kernel] at h; cases h),
    fun c h => (by
      rw [show mill.store.op = none from by decide +kernel] at h
      rcases h with h | h <;> cases h)⟩, rfl⟩

def segment (n : Nat) (w : Bool) : Segment := ⟨BitVec.ofNat 16 n, some 20110, none, some 5, w⟩
def segments (k : Nat) : List Segment := (List.range k).map fun n => segment n (n == 0)

/-- The mill with the span's queue and state, and stands 1 and 2 ROLLING. -/
def rollingMill (st : SpanState) (q : List Segment) : State :=
  ((span3 fun P => { P with state := st, queue := q, popAcc := 299 }).modStand 1 fun S => { S with mode := .rolling }).modStand 2
    fun S => { S with mode := .rolling }

/-- Both sides closed; the push side and the pop side open; one channel for both. -/
theorem test_witness_Advances :
    let s := rollingMill .running (segments 3)
    let b := s.modSpan 3 fun P => { P with record := { P.record with pop := 14 }, pushAcc := 299 }
    (s.refs ⟨.trackLimit, 3⟩ = [] ∧ s.refs ⟨.scheduleMissing, 2⟩ = [] ∧ 0 < (s.span 3).record.segment ∧
      (s.span 3).pushAcc < (s.span 3).record.segment ∧ (s.span 3).popAcc < (s.span 3).record.segment) ∧
    ((mill.span 3).record.push = 14 ∧ (mill.stand 1).mode ≠ .rolling ∧ (mill.span 3).record.upstream = 1) ∧
    ((s.span 3).record.enabled = true ∧ (s.span 3).state = .running ∧ (s.stand 1).mode = .rolling ∧
      (s.stand 2).mode = .rolling ∧ (s.span 3).record.pop = 15 ∧ (s.span 3).record.downstream = 2) ∧
    ((b.span 3).record.push = 14 ∧ (b.span 3).record.pop = 14 ∧ (b.span 3).pushAcc = (b.span 3).popAcc) ∧
    ∀ j, j < 9 → j ≠ 3 → (s.span j).record.push ≠ 14 ∧ (s.span j).record.pop ≠ 14 := by decide +kernel

/-- An IDLE span; one RUNNING at its capacity; one before an OUT stand at depth D; the mill exit; the mill entry. -/
theorem test_witness_Push :
    let full := rollingMill .running (segments 16)
    let out := (mill.modStand 2 fun S => { S with mode := .out }).modSpan 3 fun P => { P with state := .filling, queue := segments 4 }
    let exit := span3 fun P => { P with record := spanRecord 2 0, state := .filling, queue := segments 4 }
    let enter := span3 fun P => { P with record := spanRecord 0 1, weldPending := true }
    ((mill.span 3).record.upstream = 1 ∧ (mill.span 3).record.gauge = none ∧ SpanRecord.inRange (mill.span 3).record = true ∧
      mill.refs ⟨.trackLimit, 3⟩ = [] ∧ (mill.span 3).state = .idle ∧ mill.workingDownstream 3 = true ∧
      (mill.span 3).queue.length < (mill.span 3).record.capacity) ∧
    (full.workingDownstream 3 = true ∧ (full.span 3).record.capacity ≤ 14 + 2 ∧ (full.span 3).queue.length = 16) ∧
    (out.workingDownstream 3 = false ∧ SpanRecord.depth (out.span 3).record ≤ 2 + 2 ∧ (out.span 3).queue.length = 4 ∧
      (out.span 3).record.downstream ≠ 0) ∧
    ((exit.span 3).record.downstream = 0 ∧ SpanRecord.depth (exit.span 3).record ≤ 3 + 1 ∧
      SpanRecord.inRange (exit.span 3).record = true) ∧
    ((enter.span 3).record.upstream = 0 ∧ (enter.span 3).record.gauge = none ∧ SpanRecord.inRange (enter.span 3).record = true ∧
      enter.refs ⟨.trackLimit, 3⟩ = []) := by decide +kernel

/-- A gauge one segment from the tail, of a usable channel and of one that is not, over a segment of the CURRENT pass. -/
theorem test_witness_GaugeFills :
    let s := (rollingMill .running [segment 1 false, segment 2 false]).modSpan 3 fun P =>
      { P with record := { P.record with gauge := some (3, 300) } }
    let w := ((s.modSpan 3 fun P => { P with record := { P.record with gauge := none } }).push 3).modSpan 3 fun P =>
      { P with record := (s.span 3).record }
    (s.refs ⟨.trackLimit, 3⟩ = [] ∧ (s.span 3).record.upstream = 1 ∧ (s.span 3).record.gauge = some (3, 300)) ∧
    ((s.channel 3).record.enabled = true ∧ (s.channel 3).record.type = .thickness ∧ (s.channel 3).state = .valid) ∧
    ((w.span 3).queue = [segment 1 false] ++ segment 2 false :: [⟨0#16, none, none, some 5, false⟩] ∧
      ([⟨0#16, none, none, some 5, false⟩] : List Segment).length = 300 / (s.span 3).record.segment) ∧
    ((segment 2 false).estimated = some 20110 ∧ (s.stand 1).mode ≠ .out ∧ (s.stand 1).current = some (pass 5) ∧
      (segment 2 false).pass = some (pass 5).id) ∧ (mill.channel 1).record.type ≠ .thickness := by decide +kernel

/-- A mill entry span, strip present or not, empty or not, and none at all. -/
theorem test_witness_Markers :
    let s := span3 fun P => { P with record := { spanRecord 0 1 with marker := some 7 }, state := .running, stripPresent := true,
                                     queue := segments 2 }
    let e := s.modSpan 3 fun P => { P with queue := [], state := .filling }
    let a := s.modSpan 3 fun P => { P with stripPresent := false }
    ((s.span 3).record.enabled = true ∧ (s.span 3).record.upstream = 0 ∧ (s.span 3).record.marker = some 7 ∧
      s.refs ⟨.trackLimit, 3⟩ = [] ∧ ∀ j, j < 3 → (s.span j).record.enabled = true → (s.span j).record.upstream ≠ 0) ∧
    ((s.span 3).stripPresent = true ∧ (s.span 3).state = .running ∧ (s.span 3).queue ≠ []) ∧
    ((e.span 3).queue = [] ∧ (e.span 3).state = .filling ∧ (e.stand (e.span 3).record.downstream).mode ≠ .rolling) ∧
    (a.span 3).stripPresent = false ∧ mill.millEntry = none := by decide +kernel

theorem test_witness_Pop :
    let s := rollingMill .running [segment 1 false, segment 2 false]
    let w := (rollingMill .running (segments 3)).modStand 2 fun S => { S with next := some (pass 6) }
    let e := rollingMill .running []
    ((s.span 3).record.downstream = 2 ∧ (s.span 3).state = .running ∧ s.refs ⟨.trackLimit, 3⟩ = [] ∧
      (s.span 3).queue = [segment 1 false, segment 2 false] ∧ (segment 1 false).weld = false ∧
      (s.stand 2).current = some (pass 5) ∧ (segment 1 false).measured = none ∧ (segment 1 false).estimated = some 20110) ∧
    (e.span 3).queue = [] ∧
    ((w.span 3).queue = segment 0 true :: [segment 1 false, segment 2 false] ∧ (segment 0 true).weld = true ∧
      (w.stand 2).next = some (pass 6) ∧ (s.stand 2).next = none ∧ w.refs ⟨.scheduleMissing, 2⟩ = [] ∧
      w.refs ⟨.trackLimit, 3⟩ = []) := by decide +kernel

/-- The last segment and one before it, at the mill exit and before a stand that is ROLLING or not. -/
theorem test_witness_Emptying :
    let s := rollingMill .emptying [segment 1 false]
    let x := span3 fun P => { P with record := spanRecord 2 0, state := .emptying, queue := segments 2 }
    ((x.span 3).record.downstream = 0 ∧ (x.span 3).state = .emptying ∧
      (x.span 3).queue = segment 0 true :: [segment 1 false]) ∧
    ((s.span 3).record.downstream = 2 ∧ (s.span 3).state = .emptying ∧ (s.span 3).queue = segment 1 false :: [] ∧
      (segment 1 false).weld = false ∧ (s.stand 2).current = some (pass 5)) ∧
    ((s.stand 2).mode = .rolling ∧ s.refs ⟨.following, 2⟩ = [] ∧ s.exitSpan 2 = none) ∧
    (mill.stand 2).mode ≠ .rolling := by decide +kernel

theorem test_witness_LoadAndFlush : mill.Hears A ∧ SpanRecord.inRange (spanRecord 1 2) = true ∧
    mill.spanFits 3 (spanRecord 1 2) = true ∧ (mill.span 3).state = .idle ∧
    (∀ n ∈ [(mill.span 3).record.upstream, (mill.span 3).record.downstream, 1, 2],
      n = 0 ∨ (mill.stand n).mode = .out ∨ (mill.stand n).mode = .ready) ∧ (mill.span 3).record.enabled = true :=
  ⟨mill_hears, by decide +kernel⟩

/-! Stands -/

/-- The mill with no span. -/
def bare (f : Stand → Stand) : State := (stand1 f).modSpan 3 fun P => { P with record := builtInSpan }

/-- The third outcome of a READY, a MOVING and a ROLLING stand, without spans; with the span behind the stand FILLING; with the
span after it RUNNING, empty before a ROLLING stand. -/
theorem test_witness_ThreeForceOutcomes :
    let s := bare fun S => { S with biteOnRun := 2 }
    let m := bare fun S => { S with mode := .moving move, biteOnRun := 2 }
    let r := bare fun S => { S with mode := .rolling, biteOffRun := 2 }
    let f := ((stand1 fun S => { S with biteOnRun := 2 }).modSpan 3 fun P => { P with record := spanRecord 0 1, state := .filling })
    let x := (rollingMill .running []).modStand 1 fun S => { S with biteOffRun := 2 }
    let y := x.modSpan 3 fun P => { P with queue := segments 2 }
    (s.refs ⟨.following, 1⟩ = [] ∧ s.entrySpan 1 = none ∧ (s.stand 1).mode = .ready ∧
      ((s.stand 1).record.biteOn : Int) ≤ 3000) ∧
    (m.entrySpan 1 = none ∧ (m.stand 1).isMoving = true) ∧
    (r.exitSpan 1 = none ∧ (r.stand 1).mode = .rolling ∧ 999 < ((r.stand 1).record.biteOff : Int)) ∧
    (f.entrySpan 1 = some 3 ∧ (f.span 3).state = .filling ∧ f.refs ⟨.trackLimit, 3⟩ = []) ∧
    (x.exitSpan 1 = some 3 ∧ (x.span 3).state = .running ∧ (x.span 3).queue = [] ∧ (x.span 3).record.downstream = 2 ∧
      (x.stand 2).mode = .rolling ∧ x.refs ⟨.following, 2⟩ = [] ∧ x.exitSpan 2 = none ∧ (mill.stand 2).mode ≠ .rolling) ∧
    (y.span 3).queue ≠ [] ∧ ((stand1 fun S => { S with mode := .tripped trip }).stand 1).isTripped = true := by decide +kernel

/-- What a STATUS of stand 1's node needs, by the stand's mode: OUT, TRIPPED, READY, MOVING at the band's edge and just beyond,
ROLLING. -/
theorem test_witness_Status :
    let o := stand1 fun S => { S with mode := .out }
    let t := stand1 fun S => { S with mode := .tripped trip }
    let m := stand1 fun S => { S with mode := .moving move }
    let r := stand1 fun S => { S with mode := .rolling }
    ((mill.port 3).record.role = .stand ∧ mill.standOf 3 11#8 = some 1 ∧ (mill.stand 1).mode = .ready ∧
      (mill.stand 1).base = some (-5200) ∧ (mill.stand 1).current = some (pass 5) ∧
      (mill.stand 1).record.limLo ≤ (mill.stand 1).record.limHi ∧ mill.refs ⟨.driveFault, 1⟩ = []) ∧
    (o.standOf 3 11#8 = some 1 ∧ (o.stand 1).mode = .out) ∧
    (t.standOf 3 11#8 = some 1 ∧ (t.stand 1).isTripped = true ∧ t.refs ⟨.driveFault, 1⟩ = []) ∧
    (m.standOf 3 11#8 = some 1 ∧ (m.stand 1).mode = .moving move ∧ (m.stand 1).lastCommand = some (-5650) ∧
      (m.stand 1).record.limLo ≤ move.target ∧ move.target ≤ (m.stand 1).record.limHi ∧ m.refs ⟨.driveFault, 1⟩ = [] ∧
      m.refs ⟨.following, 1⟩ = [] ∧ |(-3020 : Int) - move.target| ≤ (m.stand 1).record.band ∧
      ¬ |(-3021 : Int) - move.target| ≤ (m.stand 1).record.band ∧ 3 ≤ move.run + 1) ∧
    (r.standOf 3 11#8 = some 1 ∧ (r.stand 1).mode = .rolling ∧ (r.stand 1).base = some (-5200) ∧
      r.refs ⟨.driveFault, 1⟩ = [] ∧ r.refs ⟨.following, 1⟩ = [] ∧ (r.channel 1).usable .force = true) := by decide +kernel

theorem test_witness_Status_taken : mill.Takes 3 11#8 ∧ mill.HasBlock 3 ∧
    (stand1 fun S => { S with mode := .moving move }).Takes 3 11#8 ∧ (stand1 fun S => { S with mode := .moving move }).HasBlock 3 :=
  ⟨takes_static (by decide +kernel), block_of (by decide +kernel), takes_static (by decide +kernel), block_of (by decide +kernel)⟩

theorem test_witness_MoveTimeout :
    let s := stand1 fun S => { S with mode := .moving move }
    let t := mill.modStand 8 fun S => { S with mode := .moving move, lastActual := some 0 }
    ((s.stand ((0 : Fin 8) + 1)).mode = .moving move ∧ (s.stand 1).lastActual = some (-5600) ∧ s.refs ⟨.following, 1⟩ = [] ∧
      s.refs ⟨.moveFailed, 1⟩ = []) ∧
    ((t.stand ((7 : Fin 8).val + 1)).mode = .moving move ∧ (t.stand 8).lastActual = some 0) := by decide +kernel

theorem test_witness_GapComputation : stand3.lastCommand = some (-5650) ∧ 0 < stand3.record.modulus ∧
    (pass 5).winLo ≤ (pass 5).winHi ∧ stand3.record.limLo ≤ (pass 5).winLo ∧ (pass 5).winHi ≤ stand3.record.limHi ∧
    (0 : Int) < 2 ∧ roundDiv 1 2 = 1 ∧ roundDiv (-1) 2 = -1 := by decide +kernel

/-- Stand 1 OUT, and the same with a FIRED entry that names it; READY with HOLD set. -/
theorem test_witness_AdmitAndBypass :
    let s := stand1 fun S => { S with mode := .out }
    let f := entry12 ⟨.driveFault, 1⟩ (some .fast) .fired s
    s.Hears A ∧
    ((s.stand 1).mode = .out ∧ (s.stand 1).record.configured = true ∧ (s.stand 1).current = some (pass 5) ∧
      s.standPorts (s.stand 1).record = true ∧ (s.stand 1).following = false) ∧
    ((∀ e, e < 64 → (s.entry e).state = .fired → (s.entry e).record.cls = none ∨ inMask (s.entry e).record.mask 1 = false) ∧
      s.unmappedPanels = []) ∧
    ((f.entry 12).state = .fired ∧ (f.entry 12).record.cls = some .fast ∧ inMask (f.entry 12).record.mask 1 = true ∧
      (f.stand 1).mode = .out ∧ f.standPorts (f.stand 1).record = true) ∧
    mill.Hears A ∧ (mill.stand 1).mode = .ready ∧ ((stand1 fun S => { S with hold := true, holdTimer := some 5 }).stand 1).mode = .ready :=
  ⟨hears_of (by decide +kernel), by decide +kernel, by decide +kernel, by decide +kernel, mill_hears, by decide +kernel⟩

theorem test_witness_PassRequests :
    let s := stand1 fun S => { S with next := some (pass 6) }
    s.Hears A ∧ (s.stand 1).mode ≠ .out ∧ (s.stand 1).next = some (pass 6) ∧ (s.stand 1).record.configured = true ∧
    PassRecord.inRange (s.stand 1).record (pass 255) = true ∧ (s.stand 1).mode = .ready :=
  ⟨hears_of (by decide +kernel), by decide +kernel⟩

theorem test_witness_LoadStand :
    let s := stand1 fun S => { S with mode := .out }
    let r := (s.stand 1).record
    let u := { r with configured := false }
    s.Hears A ∧ (s.stand 1).mode = .out ∧ s.standLoadRange 1 r (some (pass 6)) = true ∧ r.configured = true ∧
    s.standFits 1 r = true ∧ s.standLoadRange 1 u none = true ∧ u.configured = false :=
  ⟨hears_of (by decide +kernel), by decide +kernel⟩

/-! Setpoints and groups -/

/-- Accepted, with and without a sequence; OUT; a duplicate across the wrap; a TRIPPED stand, HOLD, a move, a MOVE to a ROLLING
stand; an error. -/
theorem test_witness_Setpoints :
    let s := stand1 fun S => { S with sequence := some 255#8 }
    let o := stand1 fun S => { S with mode := .out }
    let d := stand1 fun S => { S with sequence := some 0#8 }
    let t := stand1 fun S => { S with mode := .tripped trip }
    let h := stand1 fun S => { S with hold := true }
    let m := stand1 fun S => { S with mode := .moving move }
    let r := stand1 fun S => { S with mode := .rolling }
    ((mill.port 0).record.role = .line ∧ (mill.stand 1).record.configured = true ∧ (mill.stand 1).hold = false ∧
      (mill.stand 1).mode = .ready ∧ (mill.stand 1).sequence = none ∧ (mill.stand 1).record.limLo ≤ (mill.stand 1).record.limHi ∧
      (mill.stand 1).base = some (-5200)) ∧
    (s.stand 1).sequence = some 255#8 ∧ (o.stand 1).mode = .out ∧ (mill.stand 8).record.configured = false ∧
    ((d.stand 1).mode ≠ .out ∧ (d.stand 1).hold = false ∧ (d.stand 1).sequence = some (255#8 + 1)) ∧
    ((t.stand 1).isTripped = true ∧ (t.stand 1).sequence = none) ∧ (h.stand 1).hold = true ∧ (m.stand 1).isMoving = true ∧
    (r.stand 1).mode ≠ .ready ∧ (1#8 ≠ 0#8 ∧ 1#8 + 1 ≠ 0#8) := by decide +kernel

/-- The same frames are taken. -/
theorem test_witness_Setpoints_taken : mill.Takes 0 1#8 := mill_hears.toTakes

/-- Stands 1 and 2 masked, and a mask that names unconfigured stands alone; a duplicate and an error of the group stream. -/
theorem test_witness_GroupFrame :
    let s := { mill with group := { mill.group with sequence := some 8#8 } }
    (∀ n, s.refs ⟨.hold, n⟩ = []) ∧
    (∀ n, 1 ≤ n → n ≤ 8 → inMask 0x80#8 n = true → (mill.stand n).record.configured = false) ∧
    (inMask 1#8 1 = true ∧ (mill.stand 1).record.configured = true) ∧ s.group.sequence = some (7#8 + 1) ∧
    mill.group.sequence = none ∧ (s.group.sequence = some 8#8 ∧ 10#8 ≠ 8#8 ∧ 10#8 + 1 ≠ 8#8) ∧
    (∀ n, 1 ≤ n → n ≤ 8 → (mill.stand n).record.limLo ≤ (mill.stand n).record.limHi ∧ (mill.stand n).moveFailed = false ∧
      ((mill.stand n).base = none → (mill.stand n).mode = .out)) :=
  ⟨fun n => refs_none _ (by decide +kernel) ⟨.hold, n⟩, by decide +kernel⟩

theorem test_witness_HoldEnds :
    let s := stand1 fun S => { S with hold := true, holdTimer := some 0 }
    mill.Hears A ∧ (mill.stand 1).record.configured = true ∧ (mill.stand 1).mode ≠ .out ∧
    (s.stand ((0 : Fin 8) + 1)).holdTimer.isSome ∧ (s.stand 1).hold = true :=
  ⟨mill_hears, by decide +kernel⟩

/-! Trip matrix -/

/-- Two enabled entries on the STALE condition of channel 3: a NOTE with a delay and a stop with none. -/
def watched : State :=
  (mill.modEntry 12 fun _ => ⟨⟨true, ⟨.stale, 3⟩, 30, none, 0#8⟩, .idle⟩).modEntry 20 fun _ =>
    ⟨⟨true, ⟨.stale, 3⟩, 0, some .fast, 1#8⟩, .idle⟩

/-- A condition raised and cleared, which two entries, one of them, or none refers to, and that is as it was. -/
theorem test_witness_Conditions :
    let up := watched.modChannel 3 fun C => { C with state := .stale }
    let fired := entry12 ⟨.stale, 3⟩ none .fired mill
    (watched.refs ⟨.stale, 3⟩ = [12, 20] ∧ watched.level ⟨.stale, 3⟩ = false ∧ up.level ⟨.stale, 3⟩ = true) ∧
    (watched.CanNotify 0 ∧ (fired.entry 12).state = .fired ∧ fired.level ⟨.stale, 3⟩ = false) ∧
    ((up.entry 20).record.delay = 0 ∧ (up.entry 20).state = .idle ∧ (up.entry 20).record.cls = some .fast ∧
      ∀ k, k < 64 → (up.entry k).record.enabled = true → (up.entry k).record.cond = ⟨.stale, 3⟩ →
        (up.entry k).record.delay = 0 → k = 20) ∧
    ((entry12 ⟨.stale, 3⟩ none .idle mill).entry 12).record.cls = none ∧ mill.trip.log.length < 32 ∧
    ((mill.port 4).silenceTimer.isSome ∧ (mill.port 4).energy = true ∧ (mill.port 4).rateSpoiled = false ∧
      (mill.port 4).link = .up ∧ (linkAt .sync).port 1 = { (mill.port 1) with link := .sync } ∧ (mill.channel 3).staleTimer.isSome ∧
      (mill.port 9).record.role = .panel) :=
  ⟨by decide +kernel, ⟨canNotify_of (by decide +kernel), by decide +kernel⟩, by decide +kernel⟩

/-- A TIMING entry of a stop class that acts on a READY stand, one of class NOTE, and a full log that begins with FIRST. -/
theorem test_witness_DelayExpiry :
    let s := entry12 ⟨.driveFault, 1⟩ (some .fast) (.timing 0) mill
    let r : LogRecord := ⟨0#16, 3, .cond ⟨.link, 0⟩, some .fast, 1#8, false, 0#32⟩
    let f := entry12 ⟨.driveFault, 1⟩ none (.timing 0)
      { mill with trip := { mill.trip with log := { r with first := true } :: List.replicate 31 r } }
    ((s.entry 12).state = .timing 0 ∧ (s.entry 12).record.cls = some .fast) ∧
    (mill.entry 12).state = .idle ∧ ((f.entry 12).record.cls = none ∧ 32 ≤ f.trip.log.length) ∧
    (f.trip.log = [{ r with first := true }] ++ r :: List.replicate 30 r ∧ r.first = false ∧
      ∀ y ∈ [{ r with first := true }], y.first = true) := by decide +kernel

theorem test_witness_ActsOn : mill.ActsOn .fast 1#8 1 ∧ ¬ mill.ActsOn .fast 1#8 2 ∧
    (stand1 fun S => { S with mode := .tripped trip }).ActsOn .fast 1#8 1 ∧
    ¬ (stand1 fun S => { S with mode := .tripped trip }).ActsOn .slow 1#8 1 := by
  refine ⟨⟨by decide, by decide, by decide, by decide +kernel, by decide +kernel, fun x h => ?_⟩, fun h => absurd h.2.2.1 (by decide),
    ⟨by decide, by decide, by decide, by decide +kernel, by decide +kernel, fun x h => ?_⟩, fun h => ?_⟩
  · rw [show (mill.stand 1).mode = .ready from by decide +kernel] at h; cases h
  · rw [show ((stand1 fun S => { S with mode := .tripped trip }).stand 1).mode = .tripped trip from by decide +kernel] at h
    cases h; decide
  · exact absurd (h.2.2.2.2.2 trip (by decide +kernel)) (by decide)

theorem test_witness_Stops : mill.Hears A ∧ 1#8 ≠ 0#8 ∧ mill.Takes 9 41#8 ∧
    ((mill.port 9).record.role = .panel ∧ (mill.port 9).panel = false ∧ mill.refs ⟨.panel, 9⟩ = []) ∧
    ((mill.modPort 9 fun P => { P with panel := true }).port 9).panel = true :=
  ⟨mill_hears, by decide, takes_bound (by decide +kernel), by decide +kernel⟩

/-- Stand 1 TRIPPED with a pending order and no active cause. -/
def tripped1 : State :=
  (stand1 fun S => { S with mode := .tripped trip }).modPort 3 fun P => { P with stopSlot := some ⟨.slow, 1#8, 7, 0#8, 11#8⟩ }

/-- A NOTE entry about to fire; a stop, a reset and the end of the only HOLD; a sequence error. -/
theorem test_witness_OutputLines :
    let n := entry12 ⟨.driveFault, 1⟩ none (.timing 0) mill
    let h := stand1 fun S => { S with hold := true }
    let e := stand1 fun S => { S with sequence := some 5#8 }
    (n.phase = .running ∧ (n.entry 12).state = .timing 0 ∧ (n.entry 12).record.cls = none) ∧ mill.Hears A ∧ tripped1.Hears A ∧
    (∀ n, 1 ≤ n → n ≤ 8 → (tripped1.stand n).isTripped = true → inMask 1#8 n = true ∧ tripped1.causeActive n = false) ∧
    ((∀ m, 1 ≤ m → m ≤ 8 → (h.stand m).isTripped = false ∧ (m ≠ 1 → (h.stand m).hold = false)) ∧
      ∀ e, e < 64 → (h.entry e).record.cls = none → (h.entry e).state ≠ .fired) ∧
    ((e.stand 1).sequence = some 5#8 ∧ (e.stand 1).isTripped = false ∧ 1#8 ≠ 5#8 ∧ 1#8 + 1 ≠ 5#8) ∧
    (tripped1.phase = .running ∧ State.reset.phase = .reading) :=
  ⟨by decide +kernel, mill_hears, hears_of (by decide +kernel), by decide +kernel⟩

theorem test_witness_RepeatTimer :
    let s := stand1 fun S => { S with mode := .tripped trip }
    let o := s.modPort 3 fun P => { P with stopSlot := some ⟨.fast, 2#8, 12, 0#8, 12#8⟩ }
    (s.stand ((0 : Fin 8) + 1)).mode = .tripped trip ∧ (s.stand 1).record.port = 3 ∧ (s.port 3).link ≠ .disabled ∧
    (s.port 3).stopSlot = none ∧ (o.port 3).stopSlot = some ⟨.fast, 2#8, 12, 0#8, 12#8⟩ ∧ (mill.stand 1).isTripped = false := by
  decide +kernel

/-- Stand 1 without an active cause, and with one. -/
theorem test_witness_ResetTrip :
    let c := entry12 ⟨.driveFault, 1⟩ (some .slow) .fired tripped1
    (∀ n, (tripped1.stand n).following = false ∧ (tripped1.stand n).moveFailed = false) ∧
    (∀ n, (c.stand n).following = false ∧ (c.stand n).moveFailed = false) ∧ tripped1.Hears A ∧ c.CanReply A ∧
    ((tripped1.stand 1).isTripped = true ∧ tripped1.causeActive 1 = false ∧ inMask 1#8 1 = true) ∧
    (tripped1.port 3).stopSlot = some ⟨.slow, 1#8, 7, 0#8, 11#8⟩ ∧ (c.stand 1).isTripped = true ∧
    ∀ n, 1 ≤ n → n ≤ 8 → inMask 1#8 n = true → c.causeActive n = true := by
  refine ⟨?_, ?_, hears_of (by decide +kernel), canReply_of (by decide +kernel), by decide +kernel⟩ <;>
    exact stand_all _ (fun S => S.following = false ∧ S.moveFailed = false) (by decide) (by decide +kernel)

theorem test_witness_LoadTripEntry :
    let p := { mill with trip := { mill.trip with protect := true } }
    let r : TripEntryRecord := ⟨true, ⟨.link, 11⟩, 2000, some .fast, 1#8⟩
    mill.CanReply A ∧ sourceInRange r.cond = true ∧ r.delay ≤ 2000 ∧ p.trip.protect = true ∧
    mill.trip.protect = false ∧ mill.level r.cond = true ∧ mill.level ⟨.link, 0⟩ = false :=
  ⟨mill_canReply, by decide +kernel⟩

/-! Management and the setting store -/

theorem test_witness_Reads : mill.CanReply A := mill_canReply

theorem test_witness_Outside : mill.CanReply A ∧ (2#8).toNat ∉ [0x01, 0x10, 0x60] ∧ Request.Outside mill.part.own (.readPort false 12) ∧
    Request.Outside mill.part.own (.bindNode 254 0) ∧ Request.Outside mill.part.own (.admitStand 9) :=
  ⟨mill_canReply, by decide, Nat.le_refl 12, Or.inr (Or.inr (Or.inl (by decide +kernel))), Or.inr (by decide)⟩

/-- The mill with the latch set, with an operation in flight. -/
def latched (x : Option StoreOp) : State := { mill with store := { mill.store with op := x, latch := x.isNone } }

theorem canReply_store {s : State} (t : Store) (h : s.CanReply A) : { s with store := t }.CanReply A :=
  ⟨⟨⟨h.running, h.up, h.test, h.known⟩, h.line⟩, h.room, h.blocks, h.sound⟩

theorem latched_canReply (x : Option StoreOp) : (latched x).CanReply A := canReply_store _ mill_canReply

/-- BUSY; an idle store, latched and not; a line that is not stopped; protection on. -/
theorem test_witness_StoreRequests :
    let b := latched (some (.erase 4))
    let r := (latched none).modStand 1 fun S => { S with mode := .rolling }
    let p := { latched none with trip := { mill.trip with protect := true } }
    b.CanReply A ∧ (latched none).CanReply A ∧ mill.CanReply A ∧ r.CanReply A ∧ b.store.op.isSome ∧
    ((latched none).store.op = none ∧ (latched none).store.latch = true ∧ mill.store.latch = false) ∧
    ((latched none).trip.protect = false ∧ (latched none).lineStopped = true ∧ p.trip.protect = true) ∧
    ((r.stand 1).mode ≠ .out ∧ (r.stand 1).mode ≠ .ready ∧ r.store.latch = true) :=
  ⟨latched_canReply _, latched_canReply _, mill_canReply, canReply_of (by decide +kernel), by decide +kernel⟩

theorem test_witness_StoreCompletions :
    (latched (some (.save (.stands mill.standsContent)))).store.op = some (.save (.stands mill.standsContent)) ∧
    (latched (some (.protect (.trip emptyTrip)))).store.op = some (.protect (.trip emptyTrip)) ∧
    (latched (some (.erase 3))).store.op = some (.erase 3) ∧ mill.store.op = none ∧
    ((∀ x, (latched (some (.erase 3))).store.op ≠ some (.save x)) ∧ (∀ x, (latched (some (.erase 3))).store.op ≠ some (.protect x)) ∧
      ∀ k, (latched (some (.protect (.trip emptyTrip)))).store.op ≠ some (.erase k)) ∧ (latched none).Hears A ∧
    (latched none).store.latch = true ∧ (latched none).trip.protect = false :=
  ⟨rfl, rfl, rfl, by decide +kernel, ⟨fun _ => by simp [latched], fun _ => by simp [latched], fun _ => by simp [latched]⟩, (latched_canReply none).toHears, by decide +kernel⟩

theorem test_witness_Restart :
    let b := latched (some (.erase 4))
    let r := stand1 fun S => { S with mode := .rolling }
    mill.Hears A ∧ b.CanReply A ∧ r.CanReply A ∧ b.store.op.isSome ∧ mill.store.op = none ∧
    (∀ n, 1 ≤ n → n ≤ 8 → (mill.stand n).mode = .out ∨ (mill.stand n).mode = .ready) ∧
    (∀ i, i < 9 → (mill.span i).state = .idle) ∧ ((r.stand 1).mode ≠ .out ∧ (r.stand 1).mode ≠ .ready) :=
  ⟨mill_hears, latched_canReply _, canReply_of (by decide +kernel), by decide +kernel⟩

/-! Frames and requests as bytes -/

theorem test_witness_Frames : setpointFrame.payload.length ≤ 240 ∧ patternFrame.payload.length ≤ 240 ∧
    (List.replicate 240 0#8).length ≤ 240 := by decide +kernel

theorem test_witness_Requests : (Request.row A (.loadStand 1 (standRecord 11 3 1) (some (pass 255)))).WF ∧
    (Request.row A (.stop 255 255#8)).WF := by
  simp [Request.row, standRecord, pass, Instr.WF, StandRecord.Fits, FitsOptPass, PassRecord.Fits, FitsInt]

end Sys2Proof.Tests
end

section
/-! PROOFS. Frames as bytes: the check code of a message (R2), the burst a frame makes (R1), and the fields a frame is
judged by (R5 to R7). -/

namespace Sys2Proof.Machine

/-! ### Two-byte fields -/

/-- The two bytes of a field, high byte first, are the field (R1). -/
theorem high_append_low (x : Half) : BitVec.ofNat 8 (x.toNat / 256) ++ BitVec.ofNat 8 x.toNat = x := by
  apply BitVec.eq_of_toNat_eq
  have hx := x.isLt
  rw [BitVec.toNat_append, ← Nat.shiftLeft_add_eq_or_of_lt (BitVec.isLt _), Nat.shiftLeft_eq, BitVec.toNat_ofNat,
    BitVec.toNat_ofNat]
  omega

/-! ### The check code, bit by bit (R2) -/

theorem crcBit_eq_ite (r : Half) (b : Bool) :
    crcBit r b = if r.getLsbD 15 ≠ b then (r <<< 1) ^^^ 0x1021#16 else r <<< 1 := by
  simp [crcBit, BitVec.msb_eq_getLsbD_last]

theorem crcByte_eq_foldl_bits (r : Half) (b : Byte) : crcByte r b = (unpackBits [b]).foldl crcBit r := rfl

/-- The check code takes the bits of the message in the order R16 gives bytes: most significant first. -/
theorem foldl_crcByte (l : List Byte) (r : Half) : l.foldl crcByte r = (unpackBits l).foldl crcBit r := by
  induction l generalizing r with
  | nil => rfl
  | cons b l ih =>
    calc (b :: l).foldl crcByte r = l.foldl crcByte (crcByte r b) := rfl
      _ = (unpackBits l).foldl crcBit ((unpackBits [b]).foldl crcBit r) := by rw [ih, crcByte_eq_foldl_bits]
      _ = (unpackBits (b :: l)).foldl crcBit r := by simp [unpackBits]

/-- The register whose bits, from the top, are the given ones, with zeros below them. -/
def topBits (l : List Bool) : Half := BitVec.ofFnLE fun i : Fin 16 => l.getD (15 - i) false

theorem getLsbD_topBits (l : List Bool) (i : Nat) (h : i < 16) : (topBits l).getLsbD i = l.getD (15 - i) false := by
  simp [topBits, h]

/-- One step backwards: only the exclusive-or sets the lowest bit, so where that bit is clear, the bit shifted out was the
message bit, and the others moved up by one. -/
theorem crcBit_eq_topBits_iff (r : Half) (b : Bool) (l : List Bool) (h : l.length ≤ 15) :
    crcBit r b = topBits l ↔ r = topBits (b :: l) := by
  have hlow : (topBits l).getLsbD 0 = false := by
    rw [getLsbD_topBits l 0 (by omega), List.getD_eq_default _ _ h]
  have htop : (topBits (b :: l)).getLsbD 15 = b := by rw [getLsbD_topBits _ 15 (by omega)]; rfl
  have hnext : ∀ i, i < 15 → (topBits (b :: l)).getLsbD i = (topBits l).getLsbD (i + 1) := fun i hi => by
    rw [getLsbD_topBits _ i (by omega), getLsbD_topBits _ (i + 1) (by omega), show 15 - i = 15 - (i + 1) + 1 by omega]
    rfl
  rw [crcBit_eq_ite]
  split
  next hb =>
    refine iff_of_false (fun e => ?_) (fun e => hb (e ▸ htop))
    have hset : (topBits l).getLsbD 0 = true := by rw [← e]; simp
    exact Bool.false_ne_true (hlow.symm.trans hset)
  next hb =>
    have hb : r.getLsbD 15 = b := not_not.mp hb
    constructor
    · intro e
      refine BitVec.eq_of_getLsbD_eq fun i hi => ?_
      by_cases h15 : i = 15
      · rw [h15, hb, htop]
      · rw [hnext i (by omega), ← e]
        simp
        omega
    · intro e
      refine BitVec.eq_of_getLsbD_eq fun i hi => ?_
      cases i with
      | zero => rw [hlow]; simp
      | succ i => rw [← hnext i (by omega), ← e]; simp; omega

/-- Up to sixteen bits bring the register to zero exactly when they are its top bits and the rest of it is clear. -/
theorem foldl_crcBit_eq_zero_iff (l : List Bool) (r : Half) (h : l.length ≤ 16) :
    l.foldl crcBit r = 0#16 ↔ r = topBits l := by
  induction l generalizing r with
  | nil => rfl
  | cons b l ih =>
    have hl : l.length ≤ 15 := Nat.le_of_succ_le_succ h
    rw [List.foldl_cons, ih _ (by omega), crcBit_eq_topBits_iff r b l hl]

theorem topBits_two_bytes (hi lo : Byte) : topBits (unpackBits [hi, lo]) = hi ++ lo := by
  refine BitVec.eq_of_getLsbD_eq fun i h => ?_
  rw [getLsbD_topBits _ i h, BitVec.getLsbD_append]
  interval_cases i <;> rfl

/-- The residue of a message with two more bytes is zero exactly when these are its code, high byte first (R2). -/
theorem checkCode_append_eq_zero_iff (l : List Byte) (hi lo : Byte) :
    checkCode (l ++ [hi, lo]) = 0#16 ↔ hi ++ lo = checkCode l := by
  calc checkCode (l ++ [hi, lo]) = 0#16 ↔ (unpackBits [hi, lo]).foldl crcBit (checkCode l) = 0#16 := by
        rw [checkCode, List.foldl_append, foldl_crcByte [hi, lo]]; rfl
    _ ↔ checkCode l = topBits (unpackBits [hi, lo]) := foldl_crcBit_eq_zero_iff _ _ (by simp [unpackBits])
    _ ↔ hi ++ lo = checkCode l := by rw [topBits_two_bytes, eq_comm]

theorem checkCode_append_byte (l : List Byte) (b : Byte) :
    checkCode (l ++ [b]) = [7, 6, 5, 4, 3, 2, 1, 0].foldl (fun r i => crcBit r (b.getLsbD i)) (checkCode l) := by
  rw [checkCode, List.foldl_append]
  rfl

/-- The code a frame is sent with is that of its header and payload (R2). -/
theorem Frame.bytes_eq_message_append (f : Frame) :
    ∃ hi lo, f.bytes = f.message ++ [hi, lo] ∧ hi ++ lo = checkCode f.message :=
  ⟨_, _, rfl, high_append_low _⟩

/-- Settles O58: the residue clause by running the register backwards over the last sixteen bits. -/
theorem checkCodeOfAMessage : Obligations.CheckCodeOfAMessage := by
  unfold Obligations.CheckCodeOfAMessage
  refine ⟨rfl, fun l b => ?_, by decide +kernel, checkCode_append_eq_zero_iff, Frame.bytes_eq_message_append⟩
  simp only [checkCode_append_byte, crcBit_eq_ite]

/-! ### The burst of a frame (R1, R19) -/

theorem nibbles_symbolsOf_length (l : List Byte) : (nibbles (symbolsOf l)).length = 2 * l.length := by
  induction l with
  | nil => rfl
  | cons b l ih => simp [symbolsOf, nibbles, ih]; omega

theorem allData_symbolsOf (l : List Byte) : allData (symbolsOf l) = true := by
  induction l with
  | nil => rfl
  | cons b l ih => simpa [symbolsOf, allData] using ih

theorem halves_append (b : Byte) : b.extractLsb' 4 4 ++ b.extractLsb' 0 4 = b :=
  BitVec.extractLsb'_append_extractLsb'_eq_extractLsb' (by omega) |>.trans (by simp)

theorem pairUp_nibbles_symbolsOf (l : List Byte) : pairUp (nibbles (symbolsOf l)) = l := by
  induction l with
  | nil => rfl
  | cons b l ih => simp only [symbolsOf, nibbles, pairUp, ih, halves_append]

/-- Tests 1 to 5 of R4 on bytes sent as they are: between 6 and 246 of them that bring the check code to zero are left to the
judgement of their fields. -/
theorem judge_symbolsOf (own : Nat) (l : List Byte) (hmin : 6 ≤ l.length) (hmax : l.length ≤ 246)
    (hcode : checkCode l = 0#16) : judge own (symbolsOf l) = judgeFields own l := by
  have hlong : ¬ 247 ≤ l.length := by omega
  have hshort : ¬ 2 * l.length < 12 := by omega
  simp [judge, nibbles_symbolsOf_length, allData_symbolsOf, pairUp_nibbles_symbolsOf, hcode, hlong, hshort]

/-! ### The fields of a frame (R5 to R7) -/

theorem kindOf_kindCode (k : FrameKind) : kindOf (BitVec.ofNat 8 (kindCode k)).toNat = some k := by
  cases k <;> rfl

theorem Frame.bytes_length (f : Frame) : f.bytes.length = f.payload.length + 6 := by
  simp [Frame.bytes, Frame.message, put16]

theorem Frame.checkCode_bytes (f : Frame) : checkCode f.bytes = 0#16 := by
  obtain ⟨hi, lo, hbytes, hcode⟩ := f.bytes_eq_message_append
  rw [hbytes, checkCode_append_eq_zero_iff, hcode]

/-- Tests 6 to 8 of R4 on a frame's fields. -/
def Frame.fieldsPass (own : Nat) (f : Frame) : Bool :=
  lengthSuits f.kind f.payload.length && addressesAllowed own f.kind f.dest f.source && codesDefined f.kind f.payload

theorem judgeFields_bytes (own : Nat) (f : Frame) (h : f.payload.length ≤ 240) :
    judgeFields own f.bytes = if f.fieldsPass own then .valid f else .malformed := by
  have hlen : (BitVec.ofNat 8 f.payload.length).toNat = f.payload.length := by
    rw [BitVec.toNat_ofNat]; omega
  obtain ⟨hi, lo, hbytes, -⟩ := f.bytes_eq_message_append
  have hpayload : (f.payload ++ [hi, lo]).take ((f.payload ++ [hi, lo]).length - 2) = f.payload := by simp
  rw [hbytes]
  simp only [Frame.message, List.cons_append, List.nil_append, judgeFields, hpayload, hlen, kindOf_kindCode]
  simp [Frame.fieldsPass]

theorem judge_bytes (own : Nat) (f : Frame) (h : f.payload.length ≤ 240) :
    judge own (symbolsOf f.bytes) = if f.fieldsPass own then .valid f else .malformed := by
  have hlen := f.bytes_length
  rw [judge_symbolsOf own f.bytes (by omega) (by omega) f.checkCode_bytes, judgeFields_bytes own f h]

theorem addressesAllowed_iff (own : Nat) (k : FrameKind) (dest source : Byte) :
    addressesAllowed own k dest source = true ↔
      if k = .pattern then source = 0#8 ∧ dest = 0#8
      else source ≠ 0#8 ∧ source ≠ 255#8 ∧ source.toNat ≠ own ∧ dest ≠ 0#8 := by
  cases k
  case pattern => simp [addressesAllowed, and_comm]
  all_goals simp [addressesAllowed, and_assoc]

/-! ### Reading a payload at a place -/

section
variable {l : List Byte} {i : Nat}

theorem get8_drop (h : i < l.length) : get8 (l.drop i) = some ((l.getD i 0#8).toNat, l.drop (i + 1)) := by
  rw [List.drop_eq_getElem_cons h, List.getD_eq_getElem _ _ h]
  rfl

theorem get32_drop (h : i + 4 ≤ l.length) : ∃ n, get32 (l.drop i) = some (n, l.drop (i + 4)) := by
  rw [List.drop_eq_getElem_cons (by omega), List.drop_eq_getElem_cons (by omega), List.drop_eq_getElem_cons (by omega),
    List.drop_eq_getElem_cons (by omega)]
  exact ⟨_, rfl⟩

theorem getInt_drop (h : i + 4 ≤ l.length) : ∃ z, getInt (l.drop i) = some (z, l.drop (i + 4)) := by
  obtain ⟨n, hn⟩ := get32_drop h
  exact ⟨_, by rw [getInt, hn]; rfl⟩

end

/-! ### The codes of the enumerated fields (R7) -/

theorem qualityOf_isSome_iff : ∀ n, (qualityOf n).isSome ↔ n ≤ 4
  | 0 | 1 | 2 | 3 | 4 => by decide
  | n + 5 => by simp [qualityOf]

theorem driveOf_isSome_iff : ∀ n, (driveOf n).isSome ↔ n ≤ 2
  | 0 | 1 | 2 => by decide
  | n + 3 => by simp [driveOf]

theorem setpointOf_isSome_iff : ∀ n, (setpointOf n).isSome ↔ 1 ≤ n ∧ n ≤ 3
  | 0 | 1 | 2 | 3 => by decide
  | n + 4 => by simp [setpointOf]

theorem groupKindOf_isSome_iff : ∀ n, (groupKindOf n).isSome ↔ n = 2 ∨ n = 3
  | 0 | 1 | 2 | 3 => by decide
  | n + 4 => by simp [groupKindOf]

theorem classOf_isSome_iff : ∀ n, (classOf n).isSome ↔ n ≤ 3
  | 0 | 1 | 2 | 3 => by decide
  | n + 4 => by simp [classOf]

/-- Fields built after the last of their codes are there exactly when that code is defined. -/
theorem isSome_bind_some {α β : Type} (x : Option α) (f : α → β) : (x.bind fun a => some (f a)).isSome = x.isSome := by
  cases x <;> rfl

section
variable {l : List Byte}

theorem getSample_isSome_iff (h : l.length = 14) : (getSample l).isSome ↔ (l.getD 13 0#8).toNat ≤ 4 := by
  have hpoint : get8 l = some (_, l.drop 1) := get8_drop (i := 0) (by omega)
  obtain ⟨raw, hraw⟩ : ∃ z, getInt (l.drop 1) = some (z, l.drop 5) := getInt_drop (by omega)
  obtain ⟨len, hlen⟩ : ∃ n, get32 (l.drop 5) = some (n, l.drop 9) := get32_drop (by omega)
  obtain ⟨eng, heng⟩ : ∃ z, getInt (l.drop 9) = some (z, l.drop 13) := getInt_drop (by omega)
  have hquality := get8_drop (l := l) (i := 13) (by omega)
  simp only [getSample, hpoint, hraw, hlen, heng, hquality, Option.bind_eq_bind, Option.bind_some, isSome_bind_some,
    qualityOf_isSome_iff]

theorem getStatus_isSome_iff (h : l.length = 9) : (getStatus l).isSome ↔ (l.getD 8 0#8).toNat ≤ 2 := by
  obtain ⟨actual, hactual⟩ : ∃ z, getInt l = some (z, l.drop 4) := getInt_drop (i := 0) (by omega)
  obtain ⟨echo, hecho⟩ : ∃ z, getInt (l.drop 4) = some (z, l.drop 8) := getInt_drop (by omega)
  have hdrive := get8_drop (l := l) (i := 8) (by omega)
  simp only [getStatus, hactual, hecho, hdrive, Option.bind_eq_bind, Option.bind_some, isSome_bind_some,
    driveOf_isSome_iff]

theorem getSetpoint_isSome_iff (h : l.length = 7) : (getSetpoint l).isSome ↔
    1 ≤ (l.getD 0 0#8).toNat ∧ (l.getD 0 0#8).toNat ≤ 8 ∧ 1 ≤ (l.getD 2 0#8).toNat ∧ (l.getD 2 0#8).toNat ≤ 3 := by
  have hstand : get8 l = some (_, l.drop 1) := get8_drop (i := 0) (by omega)
  have hsequence : get8 (l.drop 1) = some (_, l.drop 2) := get8_drop (by omega)
  have hkind : get8 (l.drop 2) = some (_, l.drop 3) := get8_drop (by omega)
  obtain ⟨value, hvalue⟩ : ∃ z, getInt (l.drop 3) = some (z, l.drop 7) := getInt_drop (by omega)
  rw [← setpointOf_isSome_iff]
  simp only [getSetpoint, hstand, hsequence, hkind, hvalue, Option.bind_eq_bind, Option.bind_some]
  generalize (l.getD 0 0#8).toNat = stand
  cases setpointOf (l.getD 2 0#8).toNat with
  | none => simp
  | some kind =>
    simp only [Option.bind_some, Option.isSome_dite, Option.isSome_some, and_true]
    omega

theorem getGroup_isSome_iff (h : l.length = 7) :
    (getGroup l).isSome ↔ (l.getD 2 0#8).toNat = 2 ∨ (l.getD 2 0#8).toNat = 3 := by
  have hsequence : get8 l = some (_, l.drop 1) := get8_drop (i := 0) (by omega)
  have hmask : get8 (l.drop 1) = some (_, l.drop 2) := get8_drop (by omega)
  have hkind : get8 (l.drop 2) = some (_, l.drop 3) := get8_drop (by omega)
  obtain ⟨value, hvalue⟩ : ∃ z, getInt (l.drop 3) = some (z, l.drop 7) := getInt_drop (by omega)
  simp only [getGroup, hsequence, hmask, hkind, hvalue, Option.bind_eq_bind, Option.bind_some, isSome_bind_some,
    groupKindOf_isSome_iff]

theorem getStop_isSome_iff (h : l.length = 4) : (getStop l).isSome ↔ (l.getD 0 0#8).toNat ≤ 3 := by
  have hclass : get8 l = some (_, l.drop 1) := get8_drop (i := 0) (by omega)
  have hmask : get8 (l.drop 1) = some (_, l.drop 2) := get8_drop (by omega)
  have hentry : get8 (l.drop 2) = some (_, l.drop 3) := get8_drop (by omega)
  have hcount : get8 (l.drop 3) = some (_, l.drop 4) := get8_drop (by omega)
  simp only [getStop, hclass, hmask, hentry, hcount, Option.bind_eq_bind, Option.bind_some, isSome_bind_some,
    classOf_isSome_iff]

end

/-- The two upper bits of the flags byte of a GAP are clear exactly below 64 (R7, R12). -/
theorem upper_flags_clear_iff : ∀ b : Byte, b &&& 0xC0#8 = 0#8 ↔ b.toNat < 64 := by decide

theorem gap_codesDefined_iff (payload : List Byte) :
    codesDefined .gap payload = true ↔ (payload.getD 5 0#8).toNat < 64 := by
  rw [codesDefined, beq_iff_eq, upper_flags_clear_iff]

/-- The meaning of the codes is wanted only where the length suits, which is what puts them in the payload. -/
theorem suits_and_codes_iff {suits suits' addresses codes codes' : Prop} (hsuits : suits ↔ suits')
    (hcodes : suits' → (codes ↔ codes')) : (suits ∧ addresses ∧ codes) ↔ (suits' ∧ addresses ∧ codes') := by
  rw [hsuits]
  exact and_congr_right fun h => and_congr_right fun _ => hcodes h

theorem Frame.fieldsPass_iff (own : Nat) (f : Frame) : f.fieldsPass own = true ↔
    lengthSuits f.kind f.payload.length = true ∧ addressesAllowed own f.kind f.dest f.source = true ∧
      codesDefined f.kind f.payload = true := by
  rw [Frame.fieldsPass, Bool.and_eq_true, Bool.and_eq_true, and_assoc]

/-- Settles O59: the burst reads back as the frame's bytes, whose check code is zero, so that tests 6 to 8 decide. -/
theorem framesAreJudgedByTheirFields : Obligations.FramesAreJudgedByTheirFields := by
  unfold Obligations.FramesAreJudgedByTheirFields
  intro own f hmax
  refine ⟨f.fieldsPass own, judge_bytes own f hmax, ?_⟩
  rw [Frame.fieldsPass_iff, addressesAllowed_iff]
  obtain ⟨dest, source, kind, payload⟩ := f
  cases kind with
  | sample => exact suits_and_codes_iff (by simp [lengthSuits]) getSample_isSome_iff
  | status => exact suits_and_codes_iff (by simp [lengthSuits]) getStatus_isSome_iff
  | setpoint => exact suits_and_codes_iff (by simp [lengthSuits]) getSetpoint_isSome_iff
  | group => exact suits_and_codes_iff (by simp [lengthSuits]) getGroup_isSome_iff
  | gap => exact suits_and_codes_iff (by simp [lengthSuits]) fun _ => gap_codesDefined_iff payload
  | stop => exact suits_and_codes_iff (by simp [lengthSuits]) getStop_isSome_iff
  | manage | reply | notice =>
    exact suits_and_codes_iff (by simpa [lengthSuits] using fun _ => hmax) fun _ => by simp [codesDefined]
  | pattern => exact suits_and_codes_iff (by simp [lengthSuits]) fun _ => by simp [codesDefined]

end Sys2Proof.Machine
end

section
/-! PROOFS. The gap computation (R127 to R137): rounding to the nearest integer and clamping (R126), and the steps of the
computation in terms of them. -/

namespace Sys2Proof.Machine

/-! ### Rounding to the nearest integer (R126) -/

theorem roundDiv_of_nonneg {n : Int} (d : Int) (h : 0 ≤ n) : roundDiv n d = (2 * n + d) / (2 * d) := if_pos h

theorem roundDiv_of_neg {n : Int} (d : Int) (h : n < 0) : roundDiv n d = -roundDiv (-n) d := by
  rw [roundDiv_of_nonneg d (Int.neg_nonneg_of_nonpos h.le)]
  exact if_neg (Int.not_le.mpr h)

/-- The quotient by `2 * d` is rounded down, so a half goes up. -/
theorem roundDiv_bounds_of_nonneg {n d : Int} (hn : 0 ≤ n) (hd : 0 < d) :
    2 * n - d < 2 * (d * roundDiv n d) ∧ 2 * (d * roundDiv n d) ≤ 2 * n + d := by
  have hsplit := Int.mul_ediv_add_emod (2 * n + d) (2 * d)
  have hlow := Int.emod_nonneg (2 * n + d) (b := 2 * d) (by omega)
  have hhigh := Int.emod_lt_of_pos (2 * n + d) (b := 2 * d) (by omega)
  rw [← roundDiv_of_nonneg d hn, mul_assoc] at hsplit
  omega

/-- `x`, a multiple of `d`, is nearest to `n`; of two such it is the one farther from zero. -/
def NearestAwayFromZero (d n x : Int) : Prop := 2 * |x - n| ≤ d ∧ (2 * |x - n| = d → |n| < |x|)

theorem NearestAwayFromZero.neg {d n x : Int} (h : NearestAwayFromZero d n x) : NearestAwayFromZero d (-n) (-x) := by
  have hdist : |-x - -n| = |x - n| := by rw [← neg_sub', abs_neg]
  simpa only [NearestAwayFromZero, hdist, abs_neg] using h

theorem NearestAwayFromZero.of_bounds {d n x : Int} (hn : 0 ≤ n) (hlow : 2 * n - d < 2 * x)
    (hhigh : 2 * x ≤ 2 * n + d) : NearestAwayFromZero d n x := by
  unfold NearestAwayFromZero
  rcases le_total n x with hle | hle
  · rw [abs_of_nonneg (by omega : 0 ≤ x - n), abs_of_nonneg hn, abs_of_nonneg (by omega : 0 ≤ x)]
    omega
  · rw [abs_of_nonpos (by omega : x - n ≤ 0)]
    omega

theorem roundDiv_nearest (n : Int) {d : Int} (hd : 0 < d) : NearestAwayFromZero d n (d * roundDiv n d) := by
  have hnonneg : ∀ {m : Int}, 0 ≤ m → NearestAwayFromZero d m (d * roundDiv m d) := fun hm =>
    .of_bounds hm (roundDiv_bounds_of_nonneg hm hd).1 (roundDiv_bounds_of_nonneg hm hd).2
  rcases le_or_gt 0 n with hn | hn
  · exact hnonneg hn
  · have hneg := (hnonneg (m := -n) (by omega)).neg
    rwa [neg_neg, ← mul_neg, ← roundDiv_of_neg d hn] at hneg

/-! ### Clamping (R126) -/

theorem clampTo_eq_max_min {lo hi : Int} (h : lo ≤ hi) (x : Int) : clampTo lo hi x = max lo (min hi x) := by
  unfold clampTo
  split
  next hlow => omega
  next hlow =>
    split
    next hhigh => omega
    next hhigh => omega

theorem clampTo_of_mem {lo hi x : Int} (hlo : lo ≤ x) (hhi : x ≤ hi) : clampTo lo hi x = x := by
  rw [clampTo, if_neg (by omega), if_neg (by omega)]

/-- A clamp to a wider range changes nothing more. -/
theorem clampTo_clampTo_of_within {lo lo' hi' hi : Int} (hlo : lo ≤ lo') (h : lo' ≤ hi') (hhi : hi' ≤ hi) (x : Int) :
    clampTo lo hi (clampTo lo' hi' x) = clampTo lo' hi' x := by
  rw [clampTo_eq_max_min h]
  exact clampTo_of_mem (by omega) (by omega)

theorem saturate_eq_max_min (n : Nat) (x : Int) : saturate n x = max (-(n : Int)) (min n x) :=
  clampTo_eq_max_min (by omega) x

theorem saturate32_eq_max_min (x : Int) : saturate32 x = max (-2147483648) (min 2147483647 x) :=
  clampTo_eq_max_min (by omega) x

theorem saturate_ne_iff (n : Nat) (x : Int) : saturate n x ≠ x ↔ (n : Int) < |x| := by
  rw [saturate_eq_max_min, lt_abs]
  omega

/-- The flags compare with `!=` where the rules speak of a clamp that changed the value. -/
theorem int_decide_ne (x y : Int) : decide (x ≠ y) = (x != y) := by
  rw [decide_not, bne, beq_eq_decide]

/-! ### The steps of the computation (R127 to R137) -/

theorem Stand.reference_of_lastCommand {S : Stand} {c : Int} (h : S.lastCommand = some c) (actual : Int) :
    S.reference actual = c := by
  rw [Stand.reference, h]

/-- The sum of the corrections, before the clamp that R135 puts on it. -/
def Stand.rawCorrection (S : Stand) (p : PassRecord) (actual : Int) (force : Option Int) : Int :=
  (feedbackSteps S p actual force).1 + S.cff.getD 0

/-- The target held within the pass window, which R136 then holds within the stand limits. -/
def Stand.aim (S : Stand) (p : PassRecord) (base actual : Int) (force : Option Int) : Int :=
  clampTo p.winLo p.winHi (base + saturate p.corrLimit (S.rawCorrection p actual force))

theorem feedbackSteps_some (S : Stand) (p : PassRecord) (actual F : Int) : ∃ h raw,
    h = gaugemeter S.record actual F ∧ raw = feedback S.cfb (thicknessError h S.trim p) p ∧
    feedbackSteps S p actual (some F) =
      (saturate p.corrLimit raw, some (saturate32 (h + S.trim)), decide (saturate p.corrLimit raw ≠ raw)) :=
  ⟨_, _, rfl, rfl, by rw [int_decide_ne]; rfl⟩

theorem computeGap_cfb (S : Stand) (p : PassRecord) (base actual : Int) (force : Option Int) :
    (computeGap S p base actual force).cfb = (feedbackSteps S p actual force).1 := rfl

theorem computeGap_estimate (S : Stand) (p : PassRecord) (base actual : Int) (force : Option Int) :
    (computeGap S p base actual force).estimate = (feedbackSteps S p actual force).2.1 := rfl

/-- While the pass window lies within the stand limits, the clamp to these changes nothing (R136). -/
theorem clampTo_limits_aim {S : Stand} {p : PassRecord} (hlo : S.record.limLo ≤ p.winLo) (hwin : p.winLo ≤ p.winHi)
    (hhi : p.winHi ≤ S.record.limHi) (base actual : Int) (force : Option Int) :
    clampTo S.record.limLo S.record.limHi (S.aim p base actual force) = S.aim p base actual force :=
  clampTo_clampTo_of_within hlo hwin hhi _

theorem computeGap_command {S : Stand} {p : PassRecord} {base actual target : Int} {force : Option Int}
    (h : clampTo S.record.limLo S.record.limHi (S.aim p base actual force) = target) :
    (computeGap S p base actual force).command =
      S.reference actual + saturate S.record.rateStep (target - S.reference actual) := by
  rw [← h]
  rfl

theorem computeGap_flags {S : Stand} {p : PassRecord} {base actual target : Int} {force : Option Int}
    (h : clampTo S.record.limLo S.record.limHi (S.aim p base actual force) = target) :
    (computeGap S p base actual force).flags =
      { window := decide (S.aim p base actual force ≠ base + saturate p.corrLimit (S.rawCorrection p actual force)),
        corr := (feedbackSteps S p actual force).2.2 ||
          decide (saturate p.corrLimit (S.rawCorrection p actual force) ≠ S.rawCorrection p actual force),
        rate := decide ((S.record.rateStep : Int) < |target - S.reference actual|),
        ffAbsent := S.cff.isNone, fbSuspended := force.isNone, opened := false } := by
  simp only [← h, ← saturate_ne_iff, int_decide_ne]
  rfl

/-- Settles O39: the rounding from the remainder of its division; the steps one by one, with the target left alone by the
stand limits. -/
theorem gapComputationFollowsItsSteps : Obligations.GapComputationFollowsItsSteps := by
  unfold Obligations.GapComputationFollowsItsSteps
  refine ⟨fun n d hd => roundDiv_nearest n hd, fun S p base actual F last hlast _ hwin hlo hhi => ?_⟩
  have hlimits := clampTo_limits_aim hlo hwin hhi base actual (some F)
  have href := Stand.reference_of_lastCommand hlast actual
  obtain ⟨h, raw, hh, hraw, hsteps⟩ := feedbackSteps_some S p actual F
  have hcorrection : S.rawCorrection p actual (some F) = saturate p.corrLimit raw + S.cff.getD 0 := by
    rw [Stand.rawCorrection, hsteps]
  refine ⟨h, thicknessError h S.trim p, raw, saturate p.corrLimit raw, S.rawCorrection p actual (some F),
    saturate p.corrLimit (S.rawCorrection p actual (some F)), S.aim p base actual (some F), hh,
    saturate_eq_max_min 100000 _, hraw, saturate_eq_max_min _ _, hcorrection, saturate_eq_max_min _ _,
    clampTo_eq_max_min hwin _, ?cfb, ?estimate, ?command, ?flags, rfl, rfl, rfl⟩
  case cfb => rw [computeGap_cfb, hsteps]
  case estimate => rw [computeGap_estimate, hsteps, saturate32_eq_max_min]
  case command => rw [computeGap_command hlimits, href, saturate_eq_max_min]
  case flags => rw [computeGap_flags hlimits, href, hsteps, Bool.decide_or, Option.isNone_some]

end Sys2Proof.Machine
end

section
/-! PROOFS. Reading the numbered tables that a start-up, a RESTART or a tick writes whole. -/

namespace Sys2Proof.Machine

variable {α β : Type} {n : Nat}

theorem getAt_outside (v : Vector α n) (d : α) {i : Nat} (h : ¬ i < n) : getAt v d i = d := by
  simp [getAt, Vector.getElem?_eq_none (by omega : n ≤ i)]

theorem getAt_map (f : α → β) (v : Vector α n) (d : α) (e : β) {i : Nat} (h : i < n) :
    getAt (v.map f) e i = f (getAt v d i) := by
  simp [getAt, h]

/-- A table mapped by a function that keeps what stands outside it. -/
theorem getAt_map_of_default (f : α → β) (v : Vector α n) (d : α) (e : β) (hd : f d = e) (i : Nat) :
    getAt (v.map f) e i = f (getAt v d i) := by
  by_cases h : i < n
  · exact getAt_map f v d e h
  · rw [getAt_outside _ _ h, getAt_outside _ _ h, hd]

theorem getAt_zip (v : Vector α n) (w : Vector β n) (d : α) (e : β) (x : α × β) {i : Nat} (h : i < n) :
    getAt (v.zip w) x i = (getAt v d i, getAt w e i) := by
  simp [getAt, h]

theorem getAt_ofFn (f : Fin n → α) (d : α) {i : Nat} (h : i < n) : getAt (Vector.ofFn f) d i = f ⟨i, h⟩ := by
  simp [getAt, h]

theorem getAt_replicate (x d : α) {i : Nat} (h : i < n) : getAt (Vector.replicate n x) d i = x := by
  simp [getAt, h]

/-- A table of the value that also stands outside it. -/
@[simp] theorem getAt_replicate_self (x : α) (i : Nat) : getAt (Vector.replicate n x) x i = x := by
  by_cases h : i < n
  · exact getAt_replicate x x h
  · exact getAt_outside _ _ h

end Sys2Proof.Machine
end

section
/-! PROOFS. What a step keeps, as one relation between the states before and after a part of a step: the invariant of the
link side and of the store, the spans' capacities, the phase, and the queue of waiting commands. Every operation of the model is
in it, said once each. -/

namespace Sys2Proof.Machine

variable {s t u : State} {us : List Nat} {tbl : Bool}

/-! ### The invariant while units hold frames -/

/-- What the invariant asks of one port in a part in phase `ph` (R21, R26, R46, log 31). -/
structure Port.Sound (ph : Phase) (P : Port) : Prop where
  queue : P.queue.length ≤ Config.queueCapacity
  role : ph = .running → (P.link = .disabled ↔ P.record.role = .disabled)
  rest : P.link = .disabled → P.stopSlot = none ∧ P.commandSlot = none ∧ P.silenceTimer = none ∧ P.loop = none

/-- The invariant while the units of the part hold the references `us` to frames (R43, R60). -/
structure State.InvFor (us : List Nat) (s : State) : Prop where
  ports : ∀ p, (s.port p).Sound s.phase
  exact : s.net.Exact us
  latch : s.store.op.isSome → s.store.latch = false

theorem Port.cold_sound (r : PortRecord) (e : Bool) (ph : Phase) (h : ph = .running → r.role = .disabled) :
    (Port.cold r e).Sound ph :=
  ⟨Nat.zero_le _, fun hp => ⟨fun _ => h hp, fun _ => rfl⟩, fun _ => ⟨rfl, rfl, rfl, rfl⟩⟩

/-- Outside the twelve there is only the port that nothing has configured. -/
theorem State.port_outside (s : State) {p : Nat} (h : ¬ p < 12) : s.port p = Port.cold (builtInPort .disabled) false := by
  unfold State.port Net.port getAt
  rw [Vector.getElem?_eq_none (by omega)]; rfl

/-- With no frame held by a unit, this is the invariant. -/
theorem State.invFor_nil_iff : s.InvFor [] ↔ s.Inv := by
  constructor
  · intro h
    exact ⟨fun p => (h.ports p).queue, h.exact, h.latch, fun hr p _ => (h.ports p).role hr, fun p => (h.ports p).rest⟩
  · intro h
    refine ⟨fun p => ?_, h.exact, h.latch⟩
    by_cases hp : p < 12
    · exact ⟨h.queues p, fun hr => h.roles hr p hp, h.disabled p⟩
    · rw [s.port_outside hp]; exact Port.cold_sound _ _ _ fun _ => rfl

/-! ### The relation -/

/-- `t` is `s` after a part of a step, as to the phase, the waiting commands and the spans. -/
structure Tracks (s t : State) : Prop where
  phase : t.phase = s.phase
  pending : t.pending = s.pending
  tracked : s.Tracked → t.Tracked

/-- `t` is `s` after a part of a step during which the units hold `us`: the invariants of `s` are invariants of `t`; with
`tbl`, the node table is as it was too. -/
structure Keeps (tbl : Bool) (us : List Nat) (s t : State) : Prop extends Tracks s t where
  nodes : tbl = true → t.nodes = s.nodes
  inv : s.InvFor us → t.InvFor us

theorem Tracks.trans (h : Tracks s t) (g : Tracks t u) : Tracks s u :=
  ⟨g.phase.trans h.phase, g.pending.trans h.pending, fun hs => g.tracked (h.tracked hs)⟩

/-- Spans and store decide whether the spans are tracked. -/
theorem Tracks.of_eq (hp : t.phase = s.phase) (hq : t.pending = s.pending) (hs : t.spans = s.spans)
    (ht : t.store.stands = s.store.stands) (ho : t.store.op = s.store.op) : Tracks s t where
  phase := hp
  pending := hq
  tracked h := by
    have hspan : ∀ i, t.span i = s.span i := fun i => by simp only [State.span, hs]
    exact ⟨fun i hi => hspan i ▸ h.records i hi, fun i hi => hspan i ▸ h.queues i hi, by rw [ht]; exact h.stored,
      by rw [ho]; exact h.writing⟩

theorem Keeps.refl (us : List Nat) (s : State) : Keeps tbl us s s := ⟨⟨rfl, rfl, id⟩, fun _ => rfl, id⟩

theorem Keeps.trans (h : Keeps tbl us s t) (g : Keeps tbl us t u) : Keeps tbl us s u :=
  ⟨h.toTracks.trans g.toTracks, fun hb => (g.nodes hb).trans (h.nodes hb), fun hs => g.inv (h.inv hs)⟩

/-- The invariants read the link side, the spans and the store. -/
theorem Keeps.of_eq (hp : t.phase = s.phase) (hq : t.pending = s.pending) (hs : t.spans = s.spans)
    (hn : t.net = s.net) (ht : t.store = s.store) (hm : tbl = true → t.nodes = s.nodes) : Keeps tbl us s t :=
  ⟨.of_eq hp hq hs (by rw [ht]) (by rw [ht]), hm, fun h =>
    ⟨fun p => by rw [hp]; simp only [State.port, hn]; exact h.ports p, hn ▸ h.exact, ht ▸ h.latch⟩⟩

theorem EventFrame.tracks (h : EventFrame s t) : Tracks s t where
  phase := h.phase
  pending := h.pending
  tracked hs := by
    have hrec : ∀ i, (t.span i).record = (s.span i).record := fun i => by
      have := congrArg Span.record (h.spans i)
      exact this
    refine ⟨fun i hi => hrec i ▸ hs.records i hi, fun i hi => ?_, by rw [h.store]; exact hs.stored,
      by rw [h.store]; exact hs.writing⟩
    rw [hrec i]
    rcases h.segments i with hq | hq
    · rw [hq]; exact hs.queues i hi
    · rw [hq]; exact Nat.zero_le _

/-- The part of a port outside its queue, slots and test is unchanged by events. -/
theorem EventFrame.port_eq {α : Type} (π : Port → α) (hπ : ∀ P, π P.core = π P) (h : EventFrame s t) (p : Nat) :
    π (t.port p) = π (s.port p) := by rw [← hπ (t.port p), h.ports p, hπ]

theorem EventFrame.port_sound {ph : Phase} (h : EventFrame s t) {p : Nat} (hs : (s.port p).Sound ph) :
    (t.port p).Sound ph := by
  have hl := h.port_eq Port.link (fun _ => rfl) p
  refine ⟨?_, fun hr => ?_, fun hd => ?_⟩
  · obtain ⟨l, hl, hb⟩ := h.queues p
    by_cases h0 : l = []
    · have hq : (t.port p).queue = (s.port p).queue := by
        rw [h0, List.append_nil] at hl; exact hl
      rw [hq]; exact hs.queue
    · exact hb h0
  · rw [hl, h.port_eq (fun P => P.record.role) (fun _ => rfl) p]; exact hs.role hr
  · rw [hl] at hd
    obtain ⟨h1, h2, h3, h4⟩ := hs.rest hd
    obtain ⟨g1, g2⟩ := (h.slots p).disabled hd
    refine ⟨g1.trans h1, ?_, ?_, ?_⟩
    · rcases g2 with g2 | g2
      · rw [g2, h2]
      · exact g2
    · rw [h.port_eq Port.silenceTimer (fun _ => rfl) p, h3]
    · rw [h.port_eq Port.loop (fun _ => rfl) p, h4]

theorem EventFrame.keeps (h : EventFrame s t) : Keeps tbl us s t :=
  ⟨h.tracks, fun _ => h.nodes, fun hs => ⟨fun p => by rw [h.phase]; exact h.port_sound (hs.ports p), h.exact us hs.exact,
    by rw [h.store]; exact hs.latch⟩⟩

theorem QuietFrame.keeps (h : QuietFrame s t) : Keeps tbl us s t := h.event.keeps

theorem Keeps.foldl {α : Type} (g : State → α → State) (l : List α) (h : ∀ s, ∀ a ∈ l, Keeps tbl us s (g s a)) (s : State) :
    Keeps tbl us s (l.foldl g s) := by
  induction l generalizing s with
  | nil => exact .refl us s
  | cons a l ih => exact (h s a (by simp)).trans (ih (fun s b hb => h s b (List.mem_cons_of_mem a hb)) (g s a))

/-- A part of a step made in one case and not in the other. -/
theorem Keeps.ite {c : Prop} [Decidable c] (h : c → Keeps tbl us s t) (g : ¬ c → Keeps tbl us s u) :
    Keeps tbl us s (if c then t else u) := by
  split
  · exact h ‹_›
  · exact g ‹_›

/-! ### One unit changed -/

theorem Keeps.modStand (n : Nat) (f : Stand → Stand) (s : State) : Keeps tbl us s (s.modStand n f) :=
  .of_eq (by simp) (by simp) (by simp) (by simp) (by simp) fun _ => by simp

theorem Keeps.trip (x : TripUnit) (s : State) : Keeps tbl us s { s with trip := x } := .of_eq rfl rfl rfl rfl rfl fun _ => rfl

theorem Keeps.modEntry (e : Nat) (f : TripEntry → TripEntry) (s : State) : Keeps tbl us s (s.modEntry e f) := .trip _ s

theorem Keeps.modChannel (c : Nat) (f : Channel → Channel) (s : State) : Keeps tbl us s (s.modChannel c f) :=
  .of_eq rfl rfl rfl rfl rfl fun _ => rfl

theorem Keeps.setNode (n : Nat) (e : NodeEntry) (s : State) : Keeps false us s (s.setNode n e) :=
  .of_eq rfl rfl rfl rfl rfl nofun

theorem Keeps.drawGap (s : State) : Keeps tbl us s s.drawGap.1 := .of_eq rfl rfl rfl rfl rfl fun _ => rfl

theorem Keeps.setModified (k : Nat) (s : State) : Keeps tbl us s (s.setModified k) :=
  ⟨.of_eq rfl rfl rfl rfl rfl, fun _ => rfl, fun h => ⟨h.ports, h.exact, h.latch⟩⟩

/-- The link side alone has changed. -/
theorem Keeps.net (n : Net) (hp : s.InvFor us → ∀ p, (n.port p).Sound s.phase) (he : s.InvFor us → n.Exact us) :
    Keeps tbl us s { s with net := n } :=
  ⟨.of_eq rfl rfl rfl rfl rfl, fun _ => rfl, fun h => ⟨hp h, he h, h.latch⟩⟩

/-- One port has changed, and its references have not. -/
theorem Keeps.modPort (p : Nat) (f : Port → Port) (s : State) (hr : ∀ id, (f (s.port p)).refsTo id = (s.port p).refsTo id)
    (h : (s.port p).Sound s.phase → (f (s.port p)).Sound s.phase) : Keeps tbl us s (s.modPort p f) :=
  .net _ (fun hs q => by
    change ((s.modPort p f).port q).Sound _
    rw [State.port_modPort]
    split
    · exact h (hs.ports p)
    · exact hs.ports q) fun hs => Net.KeepsExact.modPort s.net p f hr us hs.exact

/-- One span has changed: its record stands, and its queue is no longer than it was or than the record allows. -/
theorem Keeps.modSpan (i : Nat) (f : Span → Span) (s : State) (hr : (f (s.span i)).record = (s.span i).record)
    (hq : SpanRecord.inRange (s.span i).record = true → (s.span i).queue.length ≤ (s.span i).record.capacity →
      (f (s.span i)).queue.length ≤ (s.span i).record.capacity) : Keeps tbl us s (s.modSpan i f) where
  phase := rfl
  pending := rfl
  nodes _ := rfl
  tracked h := by
    refine ⟨fun j hj => ?_, fun j hj => ?_, h.stored, h.writing⟩ <;> rw [State.span_modSpan] <;> split
    · rename_i hi; rw [hr]; exact h.records i hi.2
    · exact h.records j hj
    · rename_i hi; rw [hr]; exact hq (h.records i hi.2) (h.queues i hi.2)
    · exact h.queues j hj
  inv h := ⟨h.ports, h.exact, h.latch⟩

/-- One span has changed but for its record and queue. -/
theorem Keeps.modSpan_rest (i : Nat) (f : Span → Span) (s : State) (hr : (f (s.span i)).record = (s.span i).record)
    (hq : (f (s.span i)).queue = (s.span i).queue) : Keeps tbl us s (s.modSpan i f) :=
  .modSpan i f s hr fun _ h => by rw [hq]; exact h

/-- Two changes of one span are one. -/
theorem State.modSpan_modSpan (i : Nat) (f g : Span → Span) (s : State) :
    (s.modSpan i f).modSpan i g = s.modSpan i fun P => g (f P) := by
  by_cases h : i < 9
  · have : (s.modSpan i f).span i = f (s.span i) := by rw [State.span_modSpan]; simp [h]
    unfold State.modSpan at this ⊢
    simp only [this]
    simp only [setAt, Vector.setIfInBounds_setIfInBounds]
  · have : ∀ (s : State) f, s.modSpan i f = s := fun s f => by
      simp [State.modSpan, setAt, Vector.setIfInBounds_eq_of_size_le (by omega : 9 ≤ i)]
    rw [this, this, this]

/-! ### Frames held, copied and released (R43, R59, R60) -/

theorem Keeps.dropBurst (p : Nat) (s : State) : Keeps tbl us s { s with net := s.net.dropBurst p } :=
  .modPort p (fun P => { P with burst := none }) s (fun _ => rfl) fun h => ⟨h.queue, h.role, h.rest⟩

theorem Keeps.count (p : Nat) (k : Count) (s : State) : Keeps tbl us s { s with net := s.net.count p k } :=
  .modPort p (fun P => { P with counters := P.counters.count k }) s (fun _ => rfl) fun h => ⟨h.queue, h.role, h.rest⟩

/-- A frame is held while a unit works on it. -/
theorem Keeps.release_hold {f : Frame} {tags : List BlockTag} (h : Keeps tbl (s.net.nextId :: us) (s.hold f tags) t) :
    Keeps tbl us s (t.release s.net.nextId) where
  phase := h.phase
  pending := h.pending
  nodes := h.nodes
  tracked hs := by
    obtain ⟨h1, h2, h3, h4⟩ := h.tracked ⟨hs.records, hs.queues, hs.stored, hs.writing⟩
    exact ⟨h1, h2, h3, h4⟩
  inv hs := by
    obtain ⟨h1, h2, h3⟩ := h.inv ⟨hs.ports, Net.hold_exact s.net f tags hs.exact, hs.latch⟩
    exact ⟨h1, Net.release_exact _ _ h2, h3⟩

/-- The frame in the burst of a port is held while a unit works on it. -/
theorem Keeps.release_keep {p : Nat} {f : Frame}
    (h : Keeps tbl (s.net.nextId :: us) { s with net := (s.net.keep p f).1 } t) : Keeps tbl us s (t.release (s.net.keep p f).2) :=
  (Keeps.dropBurst p s).trans (Keeps.release_hold (s := { s with net := s.net.dropBurst p }) h)

theorem Port.Sound.of_unqueued {ph : Phase} {P Q : Port} (h : P.Sound ph) (hu : Q.unqueued = P.unqueued)
    (hq : Q.queue.length ≤ Config.queueCapacity) : Q.Sound ph := by
  have hl : Q.unqueued.link = P.unqueued.link := congrArg Port.link hu
  have hr : Q.unqueued.record = P.unqueued.record := congrArg Port.record hu
  have h1 : Q.unqueued.stopSlot = P.unqueued.stopSlot := congrArg Port.stopSlot hu
  have h2 : Q.unqueued.commandSlot = P.unqueued.commandSlot := congrArg Port.commandSlot hu
  have h3 : Q.unqueued.silenceTimer = P.unqueued.silenceTimer := congrArg Port.silenceTimer hu
  have h4 : Q.unqueued.loop = P.unqueued.loop := congrArg Port.loop hu
  simp only [Port.unqueued] at hl hr h1 h2 h3 h4
  exact ⟨hq, by rw [hl, hr]; exact h.role, by rw [hl, h1, h2, h3, h4]; exact h.rest⟩

theorem Net.KeepsQueues.length_le {n m : Net} (h : n.KeepsQueues m) {p : Nat}
    (hn : (n.port p).queue.length ≤ Config.queueCapacity) : (m.port p).queue.length ≤ Config.queueCapacity := by
  obtain ⟨l, hl, hb⟩ := h p
  by_cases h0 : l = []
  · rw [hl, h0, List.append_nil]; exact hn
  · exact hb h0

/-- Copies of a frame that a unit holds. -/
theorem Keeps.copies (id : Nat) (ps : List Nat) (s : State) (hid : id ∈ us) (hp : ∀ p ∈ ps, p < 12) :
    Keeps tbl us s { s with net := (s.net.copies id ps).1 } := by
  obtain ⟨h1, h2, -⟩ := Net.copies_spec id ps s.net
  exact .net _ (fun hs p => (hs.ports p).of_unqueued (h1 p) (h2.length_le (hs.ports p).queue))
    fun hs => Net.copies_exact id ps s.net hp hs.exact (Net.mem_of_named hs.exact hid)

theorem Keeps.toLines (p id : Nat) (s : State) (hid : id ∈ us) : Keeps tbl us s { s with net := s.net.toLines p id } :=
  .copies id _ s hid (Net.upLines_lt _ _)

theorem Keeps.enqueue (p id : Nat) (s : State) (hid : id ∈ us) (hp : p < 12) :
    Keeps tbl us s { s with net := (s.net.enqueue p id).1 } :=
  .copies id [p] s hid (by simpa using hp)

theorem Net.Exact.rewrite {n : Net} (h : n.Exact us) (id : Nat) (f : Frame) : (n.rewrite id f).Exact us := by
  have hids : (n.rewrite id f).frames.map HeldFrame.id = n.frames.map HeldFrame.id := by
    simp only [Net.rewrite, List.map_map]
    exact List.map_congr_left fun g _ => by simp only [Function.comp]; split <;> rfl
  have hmem : ∀ g ∈ (n.rewrite id f).frames, ∃ g' ∈ n.frames, g.id = g'.id ∧ g.refs = g'.refs := fun g hg => by
    obtain ⟨g', hg', rfl⟩ := List.mem_map.1 hg
    exact ⟨g', hg', by split <;> rfl, by split <;> rfl⟩
  refine ⟨⟨fun g hg => ?_, fun g hg => ?_, hids ▸ h.nodup⟩, fun g hg => ?_, fun id hid => hids ▸ h.named id hid⟩ <;>
    obtain ⟨g', hg', hi, hr⟩ := hmem g hg
  · rw [hr]; exact h.refs g' hg'
  · rw [hi]; exact h.ids g' hg'
  · rw [hr, hi]; exact h.count g' hg'

theorem Keeps.rewrite (id : Nat) (f : Frame) (s : State) : Keeps tbl us s { s with net := s.net.rewrite id f } :=
  .net _ (fun hs => hs.ports) fun hs => hs.exact.rewrite id f

/-! ### Conditions as events (R155) -/

theorem Keeps.lower (c : CondId) (f : State → State) (h : Keeps tbl us s (f s)) : Keeps tbl us s (s.lower c f) :=
  .ite (fun _ => h.trans (State.cleared_event c _).keeps) fun _ => h

theorem Keeps.event (c : CondId) (f : State → State) (h : Keeps tbl us s (f s)) : Keeps tbl us s (s.event c f) :=
  h.trans (State.event_event c f s).keeps

theorem Keeps.notice (k : NoticeKind) (x : Nat) (l : List Byte) (s : State) : Keeps tbl us s (s.notice k x l) :=
  (State.notice_quiet k x l s).keeps

/-- A condition of a stand is cleared. -/
theorem Keeps.lowerStand (c : CondId) (n : Nat) (f : Stand → Stand) (s : State) :
    Keeps tbl us s (s.lower c fun s => s.modStand n f) := .lower c _ (.modStand n f s)

theorem State.settleMode_keeps (n : Nat) (s : State) : Keeps tbl us s (s.settleMode n) := by
  unfold State.settleMode
  split
  · exact .lowerStand _ _ _ s
  · exact (Keeps.lowerStand _ _ _ s).trans (.lowerStand _ _ _ _)
  · exact (Keeps.lowerStand _ _ _ s).trans (.lowerStand _ _ _ _)
  · exact .refl us s
  · exact .refl us s

theorem State.changeMode_keeps (n : Nat) (m : StandMode) (cause : StandCause) (s : State) :
    Keeps tbl us s (s.changeMode n m cause) :=
  ((Keeps.modStand n _ s).trans (.notice _ _ _ _)).trans (State.settleMode_keeps n _)

theorem State.biteOff_keeps (n : Nat) (cause : StandCause) (s : State) : Keeps tbl us s (s.biteOff n cause) :=
  (Keeps.modStand n _ s).trans (State.changeMode_keeps _ _ _ _)

/-! ### The trip unit (chapter 9) -/

theorem State.resetStand_keeps (n : Nat) (s : State) : Keeps tbl us s (s.resetStand n) := by
  unfold State.resetStand
  refine (((Keeps.modStand n _ s).trans (.lowerStand _ _ _ _)).trans (.foldl _ _ (fun s t _ => ?_) _)).trans
    (State.changeMode_keeps _ _ _ _)
  refine .modPort t.1 (fun P => { P with stopSlot := dropFromOrder n P.stopSlot }) s (fun _ => rfl) fun h =>
    ⟨h.queue, h.role, fun hd => ?_⟩
  obtain ⟨h1, h2⟩ := h.rest hd
  refine ⟨?_, h2⟩
  change dropFromOrder n (s.port t.1).stopSlot = none
  rw [h1]; rfl

theorem State.closeEpisode_keeps (s : State) : Keeps tbl us s s.closeEpisode := by
  unfold State.closeEpisode
  split
  · exact .refl us s
  · exact .trip _ s

theorem State.resetStands_keeps (mask : Byte) (l : List Nat) (s : State) : Keeps tbl us s (s.resetStands mask l).1 := by
  induction l generalizing s with
  | nil => exact .refl us s
  | cons n l ih =>
    unfold State.resetStands
    split
    · split
      · exact (Keeps.trip _ s).trans (ih _)
      · exact ((State.resetStand_keeps n s).trans (State.closeEpisode_keeps _)).trans (ih _)
    · exact ih s

theorem reqResetTrip_keeps (mask : Byte) (s : State) : Keeps tbl us s (reqResetTrip mask s).1 := by
  unfold reqResetTrip
  split
  · exact .refl us s
  · have h := State.resetStands_keeps (us := us) (tbl := tbl) mask standNumbers s
    dsimp only
    split <;> exact h

theorem reqStop_keeps (p c : Nat) (mask : Byte) (s : State) : Keeps tbl us s (reqStop p c mask s).1 := by
  unfold reqStop
  split
  · split
    · exact .refl us s
    · dsimp only
      exact (State.fire_event _ _ _ _ s).keeps
  · exact .refl us s

theorem reqLoadTripEntry_keeps (e : Nat) (r : TripEntryRecord) (s : State) : Keeps tbl us s (reqLoadTripEntry e r s).1 := by
  unfold reqLoadTripEntry
  split
  · exact .refl us s
  split
  · exact .refl us s
  · have h : Keeps tbl us s ((s.modEntry e fun _ => ⟨r, .idle⟩).setModified secTrip) :=
      (Keeps.modEntry e _ s).trans (.setModified _ _)
    exact .ite (fun _ => h.trans (State.proceed_event _ _).keeps) fun _ => h

theorem reqLoadTripInterval_keeps (k : Nat) (s : State) : Keeps tbl us s (reqLoadTripInterval k s).1 := by
  unfold reqLoadTripInterval
  split
  · exact .refl us s
  split
  · exact .refl us s
  · exact (Keeps.trip { s.trip with interval := k } s).trans (.setModified _ _)

theorem State.delayExpiry_keeps (e : Nat) (s : State) : Keeps tbl us s (s.delayExpiry e) := by
  unfold State.delayExpiry
  split
  · exact (Keeps.modEntry e _ s).trans (State.fireEntry_event e _).keeps
  · exact .refl us s

theorem State.repeatExpiry_keeps (n : Nat) (s : State) : Keeps tbl us s (s.repeatExpiry n) := by
  unfold State.repeatExpiry
  split
  · exact (Keeps.modStand n _ s).trans (State.writeOrders_event _ _ _ _ _ _).keeps
  · exact .refl us s

theorem State.panelStop_keeps (p : Nat) (c : Option Severity) (s : State) : Keeps tbl us s (s.panelStop p c) :=
  .event _ _ (.modPort p _ s (fun _ => rfl) fun h => ⟨h.queue, h.role, h.rest⟩)

end Sys2Proof.Machine
end

section
/-! PROOFS. What the stand unit, the tracking unit, the gauge unit and the setpoint chapter keep along a step (chapters 4 to
8). -/

namespace Sys2Proof.Machine

variable {s t u : State} {us : List Nat} {tbl : Bool}

/-! ### Spans and stands at a force outcome (R86, R87, R97, R112, R113) -/

theorem State.enterRunning_keeps (i : Nat) (s : State) : Keeps tbl us s (s.enterRunning i) :=
  (Keeps.modSpan_rest i _ s rfl rfl).trans (State.judgeTrack_event i _).keeps

theorem State.downstreamRolling_keeps (n : Nat) (s : State) : Keeps tbl us s (s.downstreamRolling n) := by
  unfold State.downstreamRolling
  split
  · exact .ite (fun _ => State.enterRunning_keeps _ s) fun _ => .refl us s
  · exact .refl us s

theorem State.biteOn_keeps (n : Nat) (s : State) : Keeps tbl us s (s.biteOn n) := by
  unfold State.biteOn
  dsimp only
  split
  · exact ((((Keeps.modStand n _ s).trans (.notice _ _ _ _)).trans (.modStand n _ _)).trans
      (State.changeMode_keeps _ _ _ _)).trans (State.downstreamRolling_keeps n _)
  · exact ((Keeps.modStand n _ s).trans (State.changeMode_keeps _ _ _ _)).trans (State.downstreamRolling_keeps n _)

theorem State.countBiteOn_keeps (n : Nat) (b : Bool) (s : State) : Keeps tbl us s (s.countBiteOn n b) :=
  .ite (fun _ => (Keeps.modStand n _ s).trans (State.biteOn_keeps n _)) fun _ => .modStand n _ s

theorem State.countBiteOff_keeps (n : Nat) (b : Bool) (s : State) : Keeps tbl us s (s.countBiteOff n b) :=
  .ite (fun _ => ((Keeps.modStand n _ s).trans (State.biteOff_keeps n _ _)).trans (State.leftRolling_event n _).keeps)
    fun _ => .modStand n _ s

theorem State.forceOutcome_keeps (n : Nat) (v : Option Int) (s : State) : Keeps tbl us s (s.forceOutcome n v) := by
  unfold State.forceOutcome
  dsimp only
  split
  · exact State.countBiteOn_keeps n _ s
  · exact State.countBiteOn_keeps n _ s
  · exact State.countBiteOff_keeps n _ s
  · exact .refl us s
  · exact .refl us s

/-! ### STATUS and moves (R114 to R119) -/

theorem State.baseOf_keeps (n : Nat) (s : State) : Keeps tbl us s (s.baseOf n).1 := by
  unfold State.baseOf
  split
  · exact .refl us s
  · exact .drawGap s

theorem State.writeGap_keeps (n : Nat) (c : Int) (f : GapFlags) (s : State) : Keeps tbl us s (s.writeGap n c f) :=
  (State.writeGap_event n c f s).keeps

theorem State.emitGap_keeps (n : Nat) (a : Int) (s : State) : Keeps tbl us s (s.emitGap n a) := by
  unfold State.emitGap
  dsimp only
  split
  · exact (State.baseOf_keeps n s).trans (State.writeGap_keeps n _ _ _)
  · exact State.writeGap_keeps n _ _ s
  · split
    · exact .refl us s
    · exact ((State.baseOf_keeps n s).trans (.modStand n _ _)).trans (State.writeGap_keeps n _ _ _)
  · exact .refl us s
  · exact .refl us s

theorem State.moveDone_keeps (n : Nat) (x a : Int) (s : State) : Keeps tbl us s (s.moveDone n x a) :=
  ((Keeps.modStand n _ s).trans (State.changeMode_keeps _ _ _ _)).trans (.notice _ _ _ _)

theorem State.judgeMove_keeps (n : Nat) (a : Int) (s : State) : Keeps tbl us s (s.judgeMove n a) := by
  unfold State.judgeMove
  split
  · exact .ite (fun _ => State.moveDone_keeps n _ a s) fun _ => .modStand n _ s
  · exact .refl us s

theorem State.judgeDrive_keeps (n : Nat) (d : DriveState) (s : State) : Keeps tbl us s (s.judgeDrive n d) :=
  .event _ _ (.modStand n _ s)

theorem State.judgeFollowing_keeps (n : Nat) (f : StatusFields) (s : State) : Keeps tbl us s (s.judgeFollowing n f) :=
  .ite (fun _ => .event _ _ (.modStand n _ s)) fun _ => .refl us s

theorem State.handleStatus_keeps (n : Nat) (f : StatusFields) (s : State) : Keeps tbl us s (s.handleStatus n f) :=
  .ite (fun _ => .refl us s) fun _ =>
    ((((Keeps.modStand n _ s).trans (State.judgeDrive_keeps n _ _)).trans (State.judgeFollowing_keeps n f _)).trans
      (State.judgeMove_keeps n _ _)).trans (State.emitGap_keeps n _ _)

theorem State.startMove_keeps (n : Nat) (v : Int) (s : State) : Keeps tbl us s (s.startMove n v) :=
  (State.changeMode_keeps n _ _ s).trans (.lowerStand _ _ _ _)

theorem State.lastActualOf_keeps (n : Nat) (s : State) : Keeps tbl us s (s.lastActualOf n).1 := by
  unfold State.lastActualOf
  split
  · exact .refl us s
  · exact .drawGap s

theorem State.moveTimeout_keeps (n : Nat) (s : State) : Keeps tbl us s (s.moveTimeout n) := by
  unfold State.moveTimeout
  split
  · dsimp only
    have h1 : Keeps tbl us s (s.modStand n fun S => { S with moveFailed := true }) := .modStand n _ s
    have h2 := h1.trans (.ite (c := (!s.level ⟨.moveFailed, n⟩) = true)
      (fun _ => (State.condNotice_quiet ⟨.moveFailed, n⟩ _).keeps) fun _ => .refl us _)
    have h3 := (((h2.trans (.modStand n (fun S =>
      { S with base := S.lastCommand, counters := { S.counters with movesFailed := bump S.counters.movesFailed } }) _)).trans
      (State.changeMode_keeps n .ready .moveFailed _)).trans (State.lastActualOf_keeps n _))
    exact .ite (fun _ => (h3.trans (.notice _ _ _ _)).trans (State.proceed_event _ _).keeps)
      fun _ => h3.trans (.notice _ _ _ _)
  · exact .refl us s

/-! ### Deliveries and trim reports (R122, R123, R132 to R138) -/

theorem State.weldSwitch_keeps (n : Nat) (p : PassRecord) (g : Segment) (s : State) : Keeps tbl us s (s.weldSwitch n p g) :=
  ((Keeps.modStand n _ s).trans (.notice _ _ _ _)).trans (.setModified _ _)

theorem State.weldMissing_keeps (n : Nat) (g : Segment) (s : State) : Keeps tbl us s (s.weldMissing n g) :=
  ((Keeps.modStand n _ s).trans (.event _ _ (.modStand n _ _))).trans (.notice _ _ _ _)

theorem State.deliver_keeps (n : Nat) (g : Option Segment) (s : State) : Keeps tbl us s (s.deliver n g) := by
  unfold State.deliver
  split
  · exact .modStand n _ s
  · split
    · split
      · exact State.weldSwitch_keeps n _ _ s
      · exact State.weldMissing_keeps n _ s
    · exact .modStand n _ s

theorem State.trimReport_keeps (n : Nat) (p : Option Nat) (e m : Int) (s : State) : Keeps tbl us s (s.trimReport n p e m) := by
  unfold State.trimReport
  split
  · exact .ite (fun _ => .modStand n _ s) fun _ => .refl us s
  · exact .refl us s

/-! ### Requests on stands (R106 to R111, R124, R149, R150) -/

theorem State.clearStandConditions_keeps (n : Nat) (s : State) : Keeps tbl us s (s.clearStandConditions n) :=
  ((((Keeps.lowerStand _ n _ s).trans (.lowerStand _ n _ _)).trans (.lowerStand _ n _ _)).trans (.lowerStand _ n _ _)).trans
    (.lowerStand _ n _ _)

theorem reqLoadStand_keeps (n : Nat) (r : StandRecord) (p : Option PassRecord) (s : State) :
    Keeps tbl us s (reqLoadStand n r p s).1 := by
  unfold reqLoadStand
  split
  · exact .refl us s
  split
  · exact .refl us s
  split
  · split
    · exact (Keeps.modStand n _ s).trans (.setModified _ _)
    · exact .refl us s
  · exact ((Keeps.modStand n _ s).trans (State.clearStandConditions_keeps n _)).trans (.setModified _ _)

theorem reqLoadPassCurrent_keeps (n : Nat) (p : PassRecord) (s : State) : Keeps tbl us s (reqLoadPassCurrent n p s).1 := by
  unfold reqLoadPassCurrent
  split
  · exact .refl us s
  split
  · exact .refl us s
  · exact (Keeps.modStand n _ s).trans (.setModified _ _)

theorem reqLoadPassNext_keeps (n : Nat) (p : PassRecord) (s : State) : Keeps tbl us s (reqLoadPassNext n p s).1 := by
  unfold reqLoadPassNext
  split
  · exact .refl us s
  split
  · exact .refl us s
  · exact (Keeps.modStand n _ s).trans (.lowerStand _ n _ _)

theorem reqAdmit_keeps (n : Nat) (s : State) : Keeps tbl us s (reqAdmit n s).1 := by
  unfold reqAdmit
  dsimp only
  split
  · exact .refl us s
  split
  · exact .refl us s
  split
  · exact .refl us s
  · exact ((Keeps.modStand n _ s).trans (State.changeMode_keeps n _ _ _)).trans (State.admissionActions_event n _).keeps

theorem State.endHold_keeps (n : Nat) (c : HoldCause) (s : State) : Keeps tbl us s (s.endHold n c) :=
  .ite (fun _ => (Keeps.lowerStand _ n _ s).trans (.notice _ _ _ _)) fun _ => .refl us s

theorem reqBypass_keeps (n : Nat) (s : State) : Keeps tbl us s (reqBypass n s).1 := by
  unfold reqBypass
  split
  · exact .refl us s
  split
  · exact .refl us s
  · exact (((State.changeMode_keeps n _ _ s).trans (State.emptyCommand_event _ _).keeps).trans (.lowerStand _ n _ _)).trans
      (State.endHold_keeps n _ _)

theorem reqSwitchPass_keeps (n : Nat) (s : State) : Keeps tbl us s (reqSwitchPass n s).1 := by
  unfold reqSwitchPass
  dsimp only
  split
  · exact .refl us s
  split
  · exact .refl us s
  split
  · exact .refl us s
  · exact (((Keeps.modStand n _ s).trans (.lowerStand _ n _ _)).trans (.notice _ _ _ _)).trans (.setModified _ _)

theorem reqClearHold_keeps (n : Nat) (s : State) : Keeps tbl us s (reqClearHold n s).1 := by
  unfold reqClearHold
  dsimp only
  split
  · exact .refl us s
  split
  · exact .refl us s
  · dsimp only
    exact (State.endHold_keeps n _ s).trans (.modStand n _ _)

theorem State.holdExpiry_keeps (n : Nat) (s : State) : Keeps tbl us s (s.holdExpiry n) :=
  .ite (fun _ => State.endHold_keeps n _ s) fun _ => .refl us s

/-! ### Pushes (R88 to R92)

The one place where a queue grows: `makeRoom` leaves room for one segment under every record that R82 admits. -/

theorem dropHead_length (l : List Segment) : (dropHead l).length = l.length - 1 := by
  match l with
  | [] => rfl
  | [_] => rfl
  | _ :: _ :: _ => rfl

theorem SpanRecord.depth_le_capacity {r : SpanRecord} (h : SpanRecord.inRange r = true) :
    2 ≤ SpanRecord.depth r ∧ SpanRecord.depth r + 4 ≤ r.capacity := by
  simp only [SpanRecord.inRange, Bool.and_eq_true, decide_eq_true_eq] at h
  exact ⟨h.1.1.1.1.2, h.1.1.1.2⟩

theorem Span.makeRoom_record (P : Span) (w : Bool) : (P.makeRoom w).record = P.record := by
  unfold Span.makeRoom
  split
  · split <;> rfl
  · split <;> rfl

/-- After room has been made, one more segment fits (R91, R92). -/
theorem Span.makeRoom_length (P : Span) (w : Bool) (hr : SpanRecord.inRange P.record = true)
    (hq : P.queue.length ≤ P.record.capacity) : (P.makeRoom w).queue.length + 1 ≤ P.record.capacity := by
  obtain ⟨h1, h2⟩ := SpanRecord.depth_le_capacity hr
  unfold Span.makeRoom
  split
  · split
    · simp only [dropHead_length]; omega
    · omega
  · split
    · have : (if P.record.downstream = 0 then P.queue.tail else dropHead P.queue).length = P.queue.length - 1 := by
        split
        · exact List.length_tail
        · exact dropHead_length _
      simp only [this]; omega
    · omega

theorem State.gaugeFill_keeps (i : Nat) (s : State) : Keeps tbl us s (s.gaugeFill i) := by
  unfold State.gaugeFill
  dsimp only
  split
  · exact .refl us s
  split
  · split
    · exact .refl us s
    split
    · exact .refl us s
    · rename_i c _ _ _ _ k _ _ g _
      have h : Keeps tbl us s (s.modSpan i fun P =>
          { P with queue := P.queue.set k { g with measured := some (s.channel c).value } }) :=
        .modSpan i _ s rfl fun _ h => by simpa using h
      split
      · exact h
      · exact h.trans (State.trimReport_keeps _ _ _ _ _)
  · exact .refl us s

theorem State.settlePush_keeps (i : Nat) (s : State) : Keeps tbl us s (s.settlePush i) :=
  .ite (fun _ => State.enterRunning_keeps i s) fun _ => (State.judgeTrack_event i s).keeps

theorem Span.append_length (P : Span) (g : Segment) : (P.append g).queue.length = P.queue.length + 1 :=
  List.length_append

/-- A push with its making room is one change of the span: the segments stay within the capacity. -/
theorem State.push_keeps (i : Nat) (s : State) : Keeps tbl us s (s.push i) := by
  unfold State.push
  dsimp only
  generalize hw : s.workingDownstream i = w
  generalize hs1 : (s.modSpan i fun P => ({ P with pushAcc := P.pushAcc - P.record.segment } : Span).makeRoom w) = s1
  generalize s1.newSegment i = g
  have h : Keeps tbl us s (s1.modSpan i fun P => P.append g) := by
    have h1 : Keeps tbl us s (s.modSpan i fun P =>
        (({ P with pushAcc := P.pushAcc - P.record.segment } : Span).makeRoom w).append g) := by
      refine .modSpan i _ s (Span.makeRoom_record _ w) fun hr hq => ?_
      rw [Span.append_length]
      exact Span.makeRoom_length { s.span i with pushAcc := (s.span i).pushAcc - (s.span i).record.segment } w hr hq
    rw [← hs1, State.modSpan_modSpan]
    exact h1
  exact ((h.trans (.modStand _ _ _)).trans (State.gaugeFill_keeps i _)).trans (State.settlePush_keeps i _)

/-! ### Pops, advances and markers (R93 to R100) -/

theorem State.settlePop_keeps (i : Nat) (s : State) : Keeps tbl us s (s.settlePop i) :=
  .ite (fun _ => (State.enterIdle_event i s).keeps.trans (State.reportTailOut_event i _).keeps)
    fun _ => (State.judgeTrack_event i s).keeps

theorem State.pop_keeps (i : Nat) (s : State) : Keeps tbl us s (s.pop i) := by
  unfold State.pop
  dsimp only
  have h1 : Keeps tbl us s (s.modSpan i fun P => { P with popAcc := P.popAcc - P.record.segment }) :=
    .modSpan_rest i _ s rfl rfl
  split
  · exact ((h1.trans (.modSpan_rest i _ _ rfl rfl)).trans (State.deliver_keeps _ _ _)).trans (State.judgeTrack_event i _).keeps
  · rename_i g r hq
    have hlen : ∀ f : Span → Span, (∀ P, (f P).record = P.record) → (∀ P, (f P).queue = r) →
        Keeps tbl us s ((s.modSpan i fun P => { P with popAcc := P.popAcc - P.record.segment }).modSpan i f) := fun f hr hf => by
      rw [State.modSpan_modSpan]
      refine .modSpan i _ s (hr _) fun _ hl => ?_
      rw [hf]
      rw [hq, List.length_cons] at hl
      omega
    split
    · refine (hlen _ ?_ ?_).trans (State.settlePop_keeps i _) <;> exact fun _ => rfl
    · refine ((hlen _ ?_ ?_).trans (State.deliver_keeps _ _ _)).trans (State.settlePop_keeps i _) <;> exact fun _ => rfl

theorem State.workSpan_keeps (k i : Nat) (s : State) : Keeps tbl us s (s.workSpan k i) := by
  induction k generalizing s with
  | zero => exact .refl us s
  | succ k ih =>
    unfold State.workSpan
    dsimp only
    have h := fun c c' : Bool => (Keeps.ite (tbl := tbl) (c := c = true) (fun _ => State.push_keeps i s) fun _ => .refl us s).trans
      (.ite (c := c' = true) (fun _ => State.pop_keeps i _) fun _ => .refl us _)
    exact .ite (fun _ => (h _ _).trans (ih _)) fun _ => h _ _

theorem State.advanceSpan_keeps (c d i : Nat) (s : State) : Keeps tbl us s (s.advanceSpan c d i) :=
  .ite (fun _ => (Keeps.modSpan_rest i _ s rfl rfl).trans (State.workSpan_keeps _ i _)) fun _ => .refl us s

theorem State.advance_keeps (c d : Nat) (s : State) : Keeps tbl us s (s.advance c d) :=
  .foldl _ _ (fun s i _ => State.advanceSpan_keeps c d i s) s

theorem State.markSpan_keeps (i : Nat) (m : Marker) (s : State) : Keeps tbl us s (s.markSpan i m) := by
  unfold State.markSpan
  split
  · exact .modSpan_rest i _ s rfl rfl
  · have h : Keeps tbl us s (s.modSpan i fun P => { P with stripPresent := false, pushAcc := 0 }) := .modSpan_rest i _ s rfl rfl
    exact .ite (fun _ => h.trans (State.closeSpan_event _ _ _).keeps) fun _ => h
  · exact .modSpan_rest i _ s rfl rfl

theorem State.mark_keeps (c : Nat) (m : Marker) (s : State) : Keeps tbl us s (s.mark c m) := by
  unfold State.mark
  split
  · exact .ite (fun _ => State.markSpan_keeps _ m s) fun _ => .refl us s
  · exact .refl us s

/-! ### Requests on spans (R82, R83, R102) -/

theorem Span.loaded_record (P : Span) (r : SpanRecord) : (P.loaded r).record = r := by
  unfold Span.loaded; split <;> rfl

theorem Span.loaded_queue (P : Span) (r : SpanRecord) : (P.loaded r).queue = [] := by
  unfold Span.loaded; split <;> rfl

/-- A span takes a record that R82 admits, with no segment. -/
theorem Keeps.loadSpan (i : Nat) (r : SpanRecord) (s : State) (hr : SpanRecord.inRange r = true) :
    Keeps tbl us s (s.modSpan i fun P => P.loaded r) where
  phase := rfl
  pending := rfl
  nodes _ := rfl
  tracked h := by
    refine ⟨fun j hj => ?_, fun j hj => ?_, h.stored, h.writing⟩ <;> rw [State.span_modSpan] <;> split
    · rw [Span.loaded_record]; exact hr
    · exact h.records j hj
    · rw [Span.loaded_queue]; exact Nat.zero_le _
    · exact h.queues j hj
  inv h := ⟨h.ports, h.exact, h.latch⟩

theorem reqLoadSpan_keeps (i : Nat) (r : SpanRecord) (s : State) : Keeps tbl us s (reqLoadSpan i r s).1 := by
  unfold reqLoadSpan
  dsimp only
  split
  · exact .refl us s
  split
  · exact .refl us s
  · rename_i hrange _
    have hr : SpanRecord.inRange r = true := by
      simp only [Bool.or_eq_true, Bool.not_eq_true', not_or, Bool.not_eq_false] at hrange
      exact hrange.1.2
    exact ((Keeps.loadSpan i r s hr).trans (.ite (fun _ => .notice _ _ _ _) fun _ => .refl us _)).trans (.setModified _ _)

theorem reqFlushSpan_keeps (i : Nat) (s : State) : Keeps tbl us s (reqFlushSpan i s).1 := by
  unfold reqFlushSpan
  split
  · exact .refl us s
  split
  · exact .refl us s
  · exact (State.flush_event _ _ _ s).keeps

/-! ### Channels (chapter 4) -/

theorem State.setChannel_keeps (c : Nat) (C : Channel) (s : State) : Keeps tbl us s (s.setChannel c C) :=
  (Keeps.modChannel c _ s).trans (State.setChannel_event c C s).keeps

theorem State.forceOutcomes_keeps (c : Nat) (v : Option Int) (s : State) : Keeps tbl us s (s.forceOutcomes c v) :=
  .foldl _ _ (fun s n _ => State.forceOutcome_keeps n v s) s

theorem State.handOn_keeps (c : Nat) (x : Reading) (j : Judgement) (s : State) : Keeps tbl us s (s.handOn c x j) := by
  unfold State.handOn
  split
  · exact State.advance_keeps c _ s
  · split
    · exact State.mark_keeps c _ s
    · exact .refl us s
  · exact State.forceOutcomes_keeps c _ s
  · exact .refl us s

theorem State.takeSample_keeps (b : Byte) (f : SampleFields) (s : State) : Keeps tbl us s (s.takeSample b f).1 := by
  unfold State.takeSample
  split
  · exact .refl us s
  · rename_i c _
    have h := fun (C : Channel) x j => (State.setChannel_keeps (us := us) (tbl := tbl) c C s).trans (State.handOn_keeps c x j _)
    dsimp only
    split
    · dsimp only
      exact (h _ _ _).trans (.modChannel c _ _)
    · exact h _ _ _

theorem State.staleExpiry_keeps (c : Nat) (s : State) : Keeps tbl us s (s.staleExpiry c) :=
  .ite (fun _ => .event _ _ (.modChannel c _ s)) fun _ => .refl us s

theorem reqLoadChannel_keeps (c : Nat) (r : ChannelRecord) (s : State) : Keeps tbl us s (reqLoadChannel c r s).1 := by
  unfold reqLoadChannel
  dsimp only
  split
  · exact .refl us s
  split
  · exact (State.setChannel_keeps c _ s).trans (.setModified _ _)
  split
  · exact .refl us s
  · exact (State.setChannel_keeps c _ s).trans (.setModified _ _)

/-! ### Setpoints and groups (chapter 8) -/

theorem State.countSetpoint_keeps (n : Nat) (f : SetpointCounters → SetpointCounters) (s : State) :
    Keeps tbl us s (s.countSetpoint n f) := .modStand n _ s

theorem State.acceptSetpoint_keeps (n : Nat) (k : SetpointKind) (v : Int) (s : State) :
    Keeps tbl us s (s.acceptSetpoint n k v) := by
  unfold State.acceptSetpoint
  dsimp only
  split
  · exact (State.countSetpoint_keeps n _ s).trans (.modStand n _ _)
  · exact ((State.countSetpoint_keeps n _ s).trans (State.baseOf_keeps n _)).trans (.modStand n _ _)
  · exact (State.countSetpoint_keeps n _ s).trans (State.startMove_keeps n v _)

theorem State.setHold_keeps (n : Nat) (s : State) : Keeps tbl us s (s.setHold n) := .event _ _ (.modStand n _ s)

theorem State.sequenceError_keeps (n : Nat) (f : SetpointFields) (e : Byte) (s : State) :
    Keeps tbl us s (s.sequenceError n f e) := by
  unfold State.sequenceError
  dsimp only
  have h := ((Keeps.modStand (us := us) (tbl := tbl) n (fun S => { S with sequence := none }) s).trans
    (State.countSetpoint_keeps n (fun c => { c with errors := bump c.errors }) _)).trans
    (.modStand n (fun S => S.writeError ⟨n, e, f.sequence, f.kind, f.value, s.time, false, false⟩) _)
  have ht : ∀ g, ((s.modStand n fun S => { S with sequence := none }).countSetpoint n g).time = s.time := fun g => by
    simp [State.countSetpoint]
  rw [ht]
  exact .ite (fun _ => h.trans (.notice _ _ _ _)) fun _ => (h.trans (State.setHold_keeps n _)).trans (.notice _ _ _ _)

theorem State.applySetpoint_keeps (n : Nat) (f : SetpointFields) (s : State) : Keeps tbl us s (s.applySetpoint n f) := by
  unfold State.applySetpoint
  split
  · exact (State.countSetpoint_keeps n _ s).trans (.notice _ _ _ _)
  · exact State.acceptSetpoint_keeps n _ _ s

theorem State.takeSetpoint_keeps (f : SetpointFields) (s : State) : Keeps tbl us s (s.takeSetpoint f) := by
  unfold State.takeSetpoint
  dsimp only
  split
  · exact State.countSetpoint_keeps _ _ s
  split
  · exact State.applySetpoint_keeps _ f s
  split
  · exact (Keeps.modStand _ _ s).trans (State.applySetpoint_keeps _ f _)
  · exact State.countSetpoint_keeps _ _ s
  · exact State.sequenceError_keeps _ f _ s

theorem State.groupMarked_keeps (f : GroupFields) (e : Byte) (l : List Nat) (s : State) :
    Keeps tbl us s (s.groupMarked f e l) := .foldl _ _ (fun s n _ => .modStand n _ s) s

theorem State.groupHolds_keeps (f : GroupFields) (e : Byte) (b : State) (l : List Nat) (s : State) :
    Keeps tbl us s (State.groupHolds f e b l s) :=
  .foldl _ _ (fun s _ _ => (State.changed_event _ _ s).keeps.trans (.notice _ _ _ _)) s

theorem State.groupRefusedNotice_keeps (f : GroupFields) (l : List (Nat × RefusalCause)) (s : State) :
    Keeps tbl us s (s.groupRefusedNotice f l) := .ite (fun _ => .refl us s) fun _ => .notice _ _ _ s

theorem State.groupErrors_keeps (f : GroupFields) (e : Byte) (l : List Nat) (s : State) :
    Keeps tbl us s (s.groupErrors f e l) :=
  ((State.groupMarked_keeps f e l s).trans (State.groupHolds_keeps f e s l _)).trans (State.groupRefusedNotice_keeps f _ _)

theorem State.groupApplyAt_keeps (f : GroupFields) (n : Nat) (s : State) : Keeps tbl us s (s.groupApplyAt f n).1 := by
  unfold State.groupApplyAt
  split
  · dsimp only
    exact State.countSetpoint_keeps n _ s
  split
  · dsimp only
    exact State.countSetpoint_keeps n _ s
  · exact State.acceptSetpoint_keeps n _ _ s

theorem State.groupApply_keeps (f : GroupFields) (l : List Nat) (s : State) : Keeps tbl us s (s.groupApply f l).1 := by
  induction l generalizing s with
  | nil => exact .refl us s
  | cons n l ih => exact (State.groupApplyAt_keeps f n s).trans (ih _)

theorem Keeps.group (x : GroupStream) (s : State) : Keeps tbl us s { s with group := x } := .of_eq rfl rfl rfl rfl rfl fun _ => rfl

theorem State.takeGroup_keeps (p : Nat) (f : GroupFields) (s : State) : Keeps tbl us s (s.takeGroup p f) := by
  unfold State.takeGroup
  dsimp only
  split
  · exact .count p _ s
  split
  · exact .group _ s
  · exact ((Keeps.group _ s).trans (State.groupApply_keeps f _ _)).trans (State.groupRefusedNotice_keeps f _ _)
  · exact (Keeps.group _ s).trans (State.groupErrors_keeps f _ _ _)

end Sys2Proof.Machine
end

section
/-! PROOFS. What the link ports, the forwarding engine and the buffer keep along a step (chapters 1 to 3). -/

namespace Sys2Proof.Machine

variable {s t u : State} {us : List Nat} {tbl : Bool}

/-! ### A port that is not DISABLED -/

/-- A port that is not DISABLED stays sound when neither its link state nor its record changes. -/
theorem Port.Sound.of_link {ph : Phase} {P Q : Port} (h : P.Sound ph) (hP : P.link ≠ .disabled) (hl : Q.link = P.link)
    (hr : Q.record = P.record) (hq : Q.queue.length ≤ P.queue.length) : Q.Sound ph :=
  ⟨le_trans hq h.queue, by rw [hl, hr]; exact h.role, fun hd => absurd (hl ▸ hd) hP⟩

theorem Port.Sound.toLink {ph : Phase} {P : Port} {l : LinkState} (h : P.Sound ph) (hP : P.link ≠ .disabled)
    (hl : l ≠ .disabled) : (P.toLink l).Sound ph :=
  ⟨h.queue, fun hr => ⟨fun hd => absurd hd hl, fun hd => absurd ((h.role hr).2 hd) hP⟩, fun hd => absurd hd hl⟩

theorem Keeps.setPort (p : Nat) (f : Port → Port) (s : State) (hr : ∀ id, (f (s.port p)).refsTo id = (s.port p).refsTo id)
    (h : (s.port p).Sound s.phase → (f (s.port p)).Sound s.phase) : Keeps tbl us s (s.setPort p f) :=
  (Keeps.modPort p f s hr h).trans (State.setPort_event p f s).keeps

/-- An event takes a port from a link state that is not DISABLED to another. -/
theorem Keeps.setLink (p : Nat) (c : Port → Prop) [DecidablePred c] (l : LinkState) (s : State) (hl : l ≠ .disabled)
    (hc : ∀ P, c P → P.link ≠ .disabled) : Keeps tbl us s (s.setPort p fun P => if c P then P.toLink l else P) :=
  .setPort p _ s (fun id => by split <;> rfl) fun h => by
    split
    · exact h.toLink (hc _ ‹_›) hl
    · exact h

/-! ### Link events and monitors (R21 to R29) -/

theorem State.energyDetected_keeps (p : Nat) (s : State) : Keeps tbl us s (s.energyDetected p) :=
  .setPort p _ s (fun id => by split <;> rfl) fun h => by
    have h1 : ({ s.port p with energy := true } : Port).Sound s.phase := ⟨h.queue, h.role, h.rest⟩
    split
    · rename_i hd
      exact h1.toLink (by simp [hd]) (by simp)
    · exact h1

theorem State.energyLost_keeps (p : Nat) (s : State) : Keeps tbl us s (s.energyLost p) :=
  .setPort p _ s (fun id => by dsimp only; split <;> rfl) fun h => by
    have h1 : ({ s.port p with energy := false, rateSpoiled := true } : Port).Sound s.phase := ⟨h.queue, h.role, h.rest⟩
    dsimp only
    split
    · rename_i hd
      refine h1.toLink ?_ (by simp)
      rcases hd with hd | hd | hd <;> simp [hd]
    · exact h1

theorem State.idleRunComplete_keeps (p : Nat) (s : State) : Keeps tbl us s (s.idleRunComplete p) :=
  .setLink p (fun P => P.link = .sync) .up s (by simp) (by simp +contextual)

theorem State.holdPeriodExpiry_keeps (p : Nat) (s : State) : Keeps tbl us s (s.holdPeriodExpiry p) :=
  .setLink p (fun P => P.link = .up) .sync s (by simp) (by simp +contextual)

theorem State.runawayBurst_keeps (p : Nat) (s : State) : Keeps tbl us s (s.runawayBurst p) :=
  .setLink p (fun P => P.link = .up) .babble s (by simp) (by simp +contextual)

theorem State.babbleQuiet_keeps (p : Nat) (s : State) : Keeps tbl us s (s.babbleQuiet p) :=
  .setLink p (fun P => P.link = .babble) .sync s (by simp) (by simp +contextual)

theorem State.heard_keeps (p : Nat) (s : State) (hl : (s.port p).link ≠ .disabled) : Keeps tbl us s (s.heard p) :=
  .setPort p _ s (fun _ => rfl) fun h => h.of_link hl rfl rfl (le_refl _)

theorem State.silenceExpiry_keeps (p : Nat) (s : State) : Keeps tbl us s (s.silenceExpiry p) :=
  .setPort p _ s (fun id => by split <;> rfl) fun h => by
    split
    · exact ⟨h.queue, h.role, fun hd => ⟨(h.rest hd).1, (h.rest hd).2.1, rfl, (h.rest hd).2.2.2⟩⟩
    · exact h

theorem State.rateWindowEnd_keeps (p n : Nat) (s : State) : Keeps tbl us s (s.rateWindowEnd p n) :=
  .setPort p _ s (fun _ => rfl) fun h => ⟨h.queue, h.role, h.rest⟩

theorem State.stormWindowEnd_keeps (p : Nat) (s : State) : Keeps tbl us s (s.stormWindowEnd p) :=
  .setPort p _ s (fun _ => rfl) fun h => ⟨h.queue, h.role, h.rest⟩

theorem State.offer_keeps (p : Nat) (s : State) : Keeps tbl us s (s.offer p) :=
  .setPort p _ s (fun _ => rfl) fun h => ⟨h.queue, h.role, h.rest⟩

/-! ### A queue emptied (R31, R43) -/

theorem Net.foldl_release_modPort (p : Nat) (f : Port → Port) (l : List Nat) (n : Net) :
    (l.foldl (fun n id => n.release id) n).modPort p f = l.foldl (fun n id => n.release id) (n.modPort p f) := by
  induction l generalizing n with
  | nil => rfl
  | cons id l ih => exact ih (n.release id)

theorem Net.port_foldl_release (l : List Nat) (n : Net) (p : Nat) :
    (l.foldl (fun n id => n.release id) n).port p = n.port p := by
  induction l generalizing n with
  | nil => rfl
  | cons id l ih => exact ih (n.release id)

theorem Net.foldl_release_exact (l : List Nat) (n : Net) (h : n.Exact (l ++ us)) :
    (l.foldl (fun n id => n.release id) n).Exact us := by
  induction l generalizing n with
  | nil => exact h
  | cons id l ih => exact ih _ (Net.release_exact n id h)

theorem List.count_toList_eq (o : Option Nat) (id : Nat) : o.toList.count id = if o = some id then 1 else 0 := by
  cases o with
  | none => rfl
  | some x => simp [List.count_singleton]

/-- References that a port gives up are references of units until they are released. -/
theorem Net.Exact.give {n : Net} (h : n.Exact us) (p : Nat) (hp : p < 12) (f : Port → Port) (l : List Nat)
    (hf : ∀ id, (f (n.port p)).refsTo id + l.count id = (n.port p).refsTo id) : (n.modPort p f).Exact (l ++ us) := by
  have hr : ∀ id, (n.modPort p f).refsTo id + (l ++ us).count id = n.refsTo id + us.count id := fun id => by
    have h1 := Net.refsTo_modPort n p f id hp
    have h2 := hf id
    rw [List.count_append]; omega
  exact ⟨h.toSound.modPort p f, fun g hg => by rw [hr]; exact h.count g hg, fun id hid => h.named id (by rwa [← hr])⟩

theorem Net.emptyQueue_eq (p : Nat) (n : Net) : n.emptyQueue p =
    (n.port p).queue.foldl (fun n id => n.release id) (n.modPort p fun P => { P with queue := [] }) := by
  unfold Net.emptyQueue
  rw [Net.foldl_release_modPort]

theorem Net.port_emptyQueue (p q : Nat) (n : Net) :
    (n.emptyQueue p).port q = (n.modPort p fun P => { P with queue := [] }).port q := by
  rw [Net.emptyQueue_eq, Net.port_foldl_release]

theorem Net.emptyQueue_exact (p : Nat) (hp : p < 12) (n : Net) (h : n.Exact us) : (n.emptyQueue p).Exact us := by
  rw [Net.emptyQueue_eq]
  refine Net.foldl_release_exact _ _ (h.give p hp _ _ fun id => ?_)
  simp only [Port.refsTo, List.count_nil]; omega

theorem Keeps.emptyQueue (p : Nat) (hp : p < 12) (s : State) : Keeps tbl us s { s with net := s.net.emptyQueue p } :=
  .net _ (fun hs q => by
    rw [Net.port_emptyQueue, Net.port_modPort]
    split
    · exact ⟨Nat.zero_le _, (hs.ports p).role, (hs.ports p).rest⟩
    · exact hs.ports q) fun hs => Net.emptyQueue_exact p hp _ hs.exact

/-! ### Test modes (R30 to R36) -/

theorem Port.Sound.enterMode {ph : Phase} {P : Port} (h : P.Sound ph) (m : TestMode) : (P.enterMode m).Sound ph := by
  unfold Port.enterMode
  dsimp only
  split <;> exact ⟨h.queue, h.role, h.rest⟩

theorem Port.refsTo_enterMode (m : TestMode) (P : Port) (id : Nat) : (P.enterMode m).refsTo id = P.refsTo id := by
  unfold Port.enterMode
  dsimp only
  split <;> rfl

theorem reqSetPortTest_keeps (a p c : Nat) (s : State) : Keeps tbl us s (reqSetPortTest a p c s).1 := by
  unfold reqSetPortTest
  split
  · exact .refl us s
  rename_i hp
  have hset : ∀ (m : TestMode) (s : State), Keeps tbl us s (s.setPort p (Port.enterMode m)) := fun m s =>
    .setPort p _ s (Port.refsTo_enterMode m _) fun h => h.enterMode m
  split
  · exact .refl us s
  · exact .ite (fun _ => .refl us s) fun _ => hset _ s
  · split
    · exact .refl us s
    · refine Keeps.trans ?_ (hset _ _)
      unfold Net.clearForTest
      split
      · exact .emptyQueue p (by omega) s
      · exact .refl us s

theorem reqInjectError_keeps (p : Nat) (s : State) : Keeps tbl us s (reqInjectError p s).1 := by
  unfold reqInjectError
  split
  · exact .refl us s
  split
  · exact .modPort p (fun P => { P with injection := true }) s (fun _ => rfl) fun h => ⟨h.queue, h.role, h.rest⟩
  · exact .refl us s

theorem Keeps.setChecker (p : Nat) (r : Checker × Bool) (s : State) : Keeps tbl us s { s with net := s.net.setChecker p r } := by
  have h : Keeps tbl us s (s.modPort p fun P => { P with checker := r.1 }) :=
    .modPort p _ s (fun _ => rfl) fun h => ⟨h.queue, h.role, h.rest⟩
  unfold Net.setChecker
  dsimp only
  split
  · exact h.trans (.count p _ _)
  · exact h

/-! ### The transmitter (R20, R43, R49, R50) -/

/-- A reference a transmission holds (R43, R49). -/
def Port.heldRef (P : Port) : Option Nat := P.sending.bind Sending.held

/-- A free transmitter begins: the port, not DISABLED, keeps its link state and record, and its references are those of the
queue before. -/
theorem Keeps.send (p : Nat) (f : Port → Port) (s : State) (hl : (s.port p).link ≠ .disabled)
    (hf : (f (s.port p)).link = (s.port p).link) (hr : (f (s.port p)).record = (s.port p).record)
    (hq : (f (s.port p)).queue.length ≤ (s.port p).queue.length)
    (hid : ∀ id, (f (s.port p)).refsTo id = (s.port p).refsTo id) : Keeps tbl us s (s.modPort p f) :=
  .modPort p f s hid fun h => h.of_link hl hf hr hq

/-- A held frame that is referred to is found. -/
theorem Net.frame_of_named {n : Net} {id : Nat} (h : id ∈ n.frames.map HeldFrame.id) : n.frame id ≠ none := by
  obtain ⟨g, hg, rfl⟩ := List.mem_map.1 h
  simp only [Net.frame, ne_eq, Option.map_eq_none_iff, List.find?_eq_none, not_forall]
  exact ⟨g, hg, by simp⟩

theorem Net.refsTo_ge (n : Net) {p : Nat} (hp : p < 12) (id : Nat) : (n.port p).refsTo id ≤ n.refsTo id :=
  List.single_le_sum (fun _ _ => Nat.zero_le _) _ (List.mem_map.2 ⟨p, (mem_portNumbers p).2 hp, rfl⟩)

theorem Net.sendQueued_keeps (p : Nat) (hp : p < 12) (s : State) (hs : (s.port p).sending = none)
    (hl : (s.port p).link ≠ .disabled) : Keeps tbl us s { s with net := s.net.sendQueued p } := by
  have hsend : (s.net.port p).sending = none := hs
  unfold Net.sendQueued
  split
  · exact .refl us s
  · rename_i id rest hq
    have hq' : (s.port p).queue = id :: rest := hq
    split
    · refine .send p _ s hl rfl rfl (by rw [hq']; simp) fun j => ?_
      simp only [Port.refsTo, hs, hq', List.count_cons, Option.bind_some, Option.bind_none, Option.some.injEq, beq_iff_eq]
      simp
    · rename_i hnone
      have hexact : s.InvFor us → False := fun h => by
        refine Net.frame_of_named (h.exact.named id ?_) hnone
        have := s.net.refsTo_ge hp id
        have h1 : 0 < (s.net.port p).refsTo id := by simp [Port.refsTo, hq]
        omega
      exact .net _ (fun h => (hexact h).elim) fun h => (hexact h).elim

theorem Net.sendCommand_keeps (own p : Nat) (hp : p < 12) (s : State) (hs : (s.port p).sending = none)
    (hl : (s.port p).link ≠ .disabled) : Keeps tbl us s { s with net := s.net.sendCommand own p } := by
  unfold Net.sendCommand
  split
  · refine .send p _ s hl rfl rfl (le_refl _) fun j => ?_
    simp [Port.refsTo, hs]
  · exact Net.sendQueued_keeps p hp s hs hl

/-- Drawing a PATTERN frame moves the register, the frame index and the injection alone (R16, R34, R36). -/
theorem Port.nextPattern_port (P : Port) : ∃ r, P.nextPattern.2 =
    { P with patternRegister := r, patternIndex := P.patternIndex + 1, injection := false } := by
  unfold Port.nextPattern
  generalize patternDraw 512 P.patternRegister = gen
  exact ⟨_, rfl⟩

theorem Net.transmitBegin_keeps (own p : Nat) (hp : p < 12) (s : State) :
    Keeps tbl us s { s with net := s.net.transmitBegin own p } := by
  unfold Net.transmitBegin
  split
  · exact .refl us s
  · rename_i h
    simp only [Bool.or_eq_true, beq_iff_eq, not_or, Bool.not_eq_true, Option.isSome_eq_false_iff,
      Option.isNone_iff_eq_none] at h
    obtain ⟨hs, hl⟩ := h
    have hs' : (s.port p).sending = none := hs
    split
    · unfold Net.sendFirst
      split
      · refine .send p _ s hl rfl rfl (le_refl _) fun j => ?_
        simp [Port.refsTo, hs']
      · exact Net.sendCommand_keeps own p hp s hs hl
    · exact Net.sendCommand_keeps own p hp s hs hl
    · exact Net.sendQueued_keeps p hp s hs hl
    · obtain ⟨r, hr⟩ := (s.port p).nextPattern_port
      refine .send p _ s hl ?_ ?_ ?_ fun j => ?_ <;> simp [hr, Port.refsTo, hs']

theorem Net.transmitEnd_keeps (p : Nat) (hp : p < 12) (s : State) : Keeps tbl us s { s with net := s.net.transmitEnd p } := by
  unfold Net.transmitEnd
  split
  · exact .refl us s
  · rename_i x hx
    dsimp only
    have h1 : Keeps tbl us s { s with
        net := (if x.stopOrder then (s.net.count p .sent).count p .stopSent else s.net.count p .sent) } := by
      split
      · exact (Keeps.count p _ s).trans (.count p _ { s with net := s.net.count p .sent })
      · exact .count p _ s
    have hsend : ∀ (n : Net), n = (if x.stopOrder then (s.net.count p .sent).count p .stopSent else s.net.count p .sent) →
        (n.port p).sending = some x := fun n hn => by
      have hc : ∀ (n : Net) k, ((n.count p k).port p).sending = (n.port p).sending := fun n k =>
        Net.port_modPort_keep Port.sending n p p _ fun _ => rfl
      rw [hn]
      split
      · rw [hc, hc, hx]
      · rw [hc, hx]
    generalize hn : (if x.stopOrder then (s.net.count p .sent).count p .stopSent else s.net.count p .sent) = n at h1 hsend ⊢
    have hx' := hsend n rfl
    have heq : (n.releaseHeld x.held).modPort p (fun P => { P with sending := none }) =
        x.held.toList.foldl (fun n id => n.release id) (n.modPort p fun P => { P with sending := none }) := by
      unfold Net.releaseHeld
      cases x.held <;> rfl
    refine h1.trans (.net _ (fun hs q => ?_) fun hs => ?_)
    · rw [heq, Net.port_foldl_release, Net.port_modPort]
      split
      · exact ⟨(hs.ports p).queue, (hs.ports p).role, (hs.ports p).rest⟩
      · exact hs.ports q
    · rw [heq]
      refine Net.foldl_release_exact _ _ (hs.exact.give p hp _ _ fun id => ?_)
      change _ + _ = (n.port p).refsTo id
      simp only [Port.refsTo, hx', Option.bind_some, Option.bind_none, List.count_toList_eq]
      simp

/-! ### Claims and the loop (R32, R42) -/

theorem Keeps.setLane (l : Lane) (p : Nat) (f : Port → Option Burst) (s : State)
    (h : l = .line ∨ (s.port p).link ≠ .disabled) : Keeps tbl us s (s.modPort p fun P => P.setLane l (f P)) := by
  cases l with
  | line => exact .modPort p _ s (fun _ => rfl) fun h => ⟨h.queue, h.role, h.rest⟩
  | loop => exact .modPort p _ s (fun _ => rfl) fun hs => hs.of_link (h.resolve_left (by simp)) rfl rfl (le_refl _)

theorem Net.claim_link (l : Lane) (p q : Nat) (n : Net) : ((n.claim l p).port q).link = (n.port q).link :=
  Net.port_modPort_keep Port.link n p q _ fun P => by cases l <;> rfl

theorem Keeps.claim (l : Lane) (p : Nat) (s : State) (h : l = .line ∨ (s.port p).link ≠ .disabled) :
    Keeps tbl us s { s with net := s.net.claim l p } := by
  unfold Net.claim
  exact .setLane l p (fun _ => some _) s h

theorem Net.completeClaims_link (l : Lane) (p k q : Nat) (n : Net) :
    ((n.completeClaims l p k).port q).link = (n.port q).link := by
  unfold Net.completeClaims
  dsimp only
  split <;> split <;> simp only [Net.claim_link]

theorem Keeps.completeClaims (l : Lane) (p k : Nat) (s : State) (h : l = .line ∨ (s.port p).link ≠ .disabled) :
    Keeps tbl us s { s with net := s.net.completeClaims l p k } := by
  have h1 : ∀ c : Bool, Keeps tbl us s { s with net := if c then s.net.claim l p else s.net } ∧
      ((if c then s.net.claim l p else s.net).port p).link = (s.port p).link := fun c => by
    cases c
    · exact ⟨.refl us s, rfl⟩
    · exact ⟨.claim l p s h, Net.claim_link l p p s.net⟩
  obtain ⟨h2, h3⟩ := h1 ((s.net.port p).claims l < 1 && 1 ≤ k)
  unfold Net.completeClaims
  dsimp only
  generalize (if (decide ((s.net.port p).claims l < 1) && decide (1 ≤ k)) = true then s.net.claim l p else s.net) = m
    at h2 h3 ⊢
  refine h2.trans ?_
  split
  · exact .claim l p { s with net := m } (h.imp_right fun h => by rw [← h3] at h; exact h)
  · exact .refl us _

theorem State.loopEnd_keeps (p : Nat) (k : Count) (s : State) : Keeps tbl us s (s.loopEnd p k) :=
  (Keeps.count p k s).trans (.modPort p (fun P => { P with loop := none }) _ (fun _ => rfl) fun h =>
    ⟨h.queue, h.role, fun hd => ⟨(h.rest hd).1, (h.rest hd).2.1, (h.rest hd).2.2.1, rfl⟩⟩)

theorem State.loopEnd_link (p : Nat) (k : Count) (s : State) (q : Nat) : ((s.loopEnd p k).port q).link = (s.port q).link := by
  change (((s.net.count p k).modPort p fun P => { P with loop := none }).port q).link = _
  refine (Net.port_modPort_keep Port.link _ p q _ ?_).trans (Net.port_modPort_keep Port.link s.net p q _ ?_) <;>
    exact fun _ => rfl

theorem State.loopValid_keeps (p : Nat) (s : State) (hl : (s.port p).link ≠ .disabled) : Keeps tbl us s (s.loopValid p) := by
  have h := (State.loopEnd_keeps (us := us) (tbl := tbl) p .received s).trans
    (State.heard_keeps p _ (by rw [State.loopEnd_link]; exact hl))
  exact .ite (fun _ => h.trans (.count p _ _)) fun _ => h

theorem State.loopReceive_keeps (p : Nat) (f : Frame) (s : State) (hl : (s.port p).link ≠ .disabled) :
    Keeps tbl us s (s.loopReceive p f) := by
  have h : Keeps tbl us s { s with net := s.net.completeClaims .loop p (claimsNeeded f.size) } := .completeClaims _ _ _ s (.inr hl)
  unfold State.loopReceive
  dsimp only
  split
  · exact h.trans (State.loopEnd_keeps p _ _)
  · exact h.trans (State.loopEnd_keeps p _ _)
  · exact h.trans (State.loopValid_keeps p _ (by
      change ((s.net.completeClaims .loop p _).port p).link ≠ _
      rw [Net.completeClaims_link]; exact hl))

/-- What a looped frame's end leaves of the phase, the commands and the spans, whatever the port's link state. -/
theorem State.loopReceive_tracks (p : Nat) (f : Frame) (s : State) : Tracks s (s.loopReceive p f) := by
  have hn : ∀ (s : State) n, Tracks s { s with net := n } := fun s n => .of_eq rfl rfl rfl rfl rfl
  unfold State.loopReceive
  dsimp only
  split
  · exact hn _ _
  · exact hn _ _
  · have h : ∀ s : State, Tracks s ((s.loopEnd p .received).heard p) := fun s =>
      Tracks.trans (t := (s.loopEnd p .received).modPort p fun P =>
        { P with silenceTimer := some P.record.silenceTime, silent := false }) (hn _ _) (State.setPort_event p _ _).tracks
    refine (hn s (s.net.completeClaims .loop p (claimsNeeded f.size))).trans ?_
    unfold State.loopValid
    dsimp only
    split
    · exact (h _).trans (hn _ _)
    · exact h _

theorem State.transmitEnd_keeps (p : Nat) (hp : p < 12) (s : State) : Keeps false us s (s.transmitEnd p) := by
  unfold State.transmitEnd
  dsimp only
  refine Keeps.trans ?_ (Net.transmitEnd_keeps p hp _)
  split
  · rename_i f hf
    by_cases hl : (s.port p).link = .disabled
    · refine ⟨State.loopReceive_tracks p f s, nofun, fun h => ?_⟩
      rw [Port.looped, ((h.ports p).rest hl).2.2.2] at hf
      simp at hf
    · exact State.loopReceive_keeps p f s hl
  · exact .refl us s

/-! ### LOAD PORT (R17, R18, R44) -/

theorem retagFrames_refs (p k : Nat) (l : List HeldFrame) :
    (retagFrames p k l).2.map (fun h => (h.id, h.refs)) = l.map fun h => (h.id, h.refs) := by
  induction l generalizing k with
  | nil => rfl
  | cons h l ih => simp only [retagFrames, List.map_cons, ih]

/-- The counts are of names and references alone. -/
theorem Net.Exact.of_frames {n m : Net} (h : n.Exact us)
    (hf : m.frames.map (fun h => (h.id, h.refs)) = n.frames.map fun h => (h.id, h.refs)) (hn : m.nextId = n.nextId)
    (hr : ∀ id, m.refsTo id = n.refsTo id) : m.Exact us := by
  have hids : m.frames.map HeldFrame.id = n.frames.map HeldFrame.id := by
    have := congrArg (List.map Prod.fst) hf
    simpa [List.map_map, Function.comp_def] using this
  have hmem : ∀ g ∈ m.frames, ∃ g' ∈ n.frames, g'.id = g.id ∧ g'.refs = g.refs := fun g hg => by
    have : (g.id, g.refs) ∈ n.frames.map fun h => (h.id, h.refs) := hf ▸ List.mem_map.2 ⟨g, hg, rfl⟩
    obtain ⟨g', hg', he⟩ := List.mem_map.1 this
    exact ⟨g', hg', (Prod.mk.inj he).1, (Prod.mk.inj he).2⟩
  refine ⟨⟨fun g hg => ?_, fun g hg => ?_, hids ▸ h.nodup⟩, fun g hg => ?_, fun id hid => ?_⟩
  · obtain ⟨g', hg', -, e⟩ := hmem g hg
    exact e ▸ h.refs g' hg'
  · obtain ⟨g', hg', e, -⟩ := hmem g hg
    rw [hn, ← e]; exact h.ids g' hg'
  · obtain ⟨g', hg', e, e'⟩ := hmem g hg
    rw [hr, ← e, ← e']; exact h.count g' hg'
  · rw [hids]; exact h.named id (by rwa [hr] at hid)

theorem Keeps.retag (p k : Nat) (s : State) : Keeps tbl us s { s with net := s.net.retag p k } := by
  have h1 : Keeps tbl us s { s with net := { s.net with frames := (retagFrames p k s.net.frames).2 } } :=
    .net _ (fun hs => hs.ports) fun hs => hs.exact.of_frames (retagFrames_refs p k _) rfl fun _ => rfl
  unfold Net.retag
  dsimp only
  refine h1.trans (.modPort p (fun P => { P with burst := _, loop := _ }) _ (fun _ => rfl) fun h =>
    ⟨h.queue, h.role, fun hd => ?_⟩)
  obtain ⟨a, b, c, d⟩ := h.rest hd
  exact ⟨a, b, c, by simp [d]⟩

theorem Keeps.lowerReservation (p r : Nat) (s : State) : Keeps tbl us s { s with net := s.net.lowerReservation p r } := by
  unfold Net.lowerReservation
  split
  · exact .retag p _ s
  · exact .refl us s

theorem Port.refsTo_loaded (P : Port) (r : PortRecord) (id : Nat) : (P.loaded r).refsTo id = P.refsTo id := by
  unfold Port.loaded Port.changeRole Port.disable Port.enable
  dsimp only
  split_ifs <;> rfl

theorem Port.Sound.changeRole {P : Port} {old : Role} (ho : P.link = .disabled ↔ old = .disabled)
    (hq : P.queue.length ≤ Config.queueCapacity) : (P.changeRole old P.record.role).Sound .running := by
  have hlink : (P.changeRole old P.record.role).link = .disabled ↔ P.record.role = .disabled := by
    unfold Port.changeRole
    dsimp only
    split_ifs with h1 h2 h3 h4 h5 <;> simp_all [Port.disable, Port.enable, Port.toLink, Port.leaveTest] <;>
      split <;> simp
  have hrec : (P.changeRole old P.record.role).record = P.record := by
    unfold Port.changeRole Port.disable Port.enable; dsimp only; split_ifs <;> rfl
  refine ⟨?_, fun _ => by rw [hrec]; exact hlink, fun hd => ?_⟩
  · have : (P.changeRole old P.record.role).queue = P.queue := by
      unfold Port.changeRole Port.disable Port.enable; dsimp only; split_ifs <;> rfl
    rw [this]; exact hq
  · have h := hlink.1 hd
    unfold Port.changeRole Port.disable
    rw [if_pos h]
    exact ⟨rfl, rfl, rfl, rfl⟩

/-- A port under a new record (R18): a role kept keeps the link state, and a new one sets it. -/
theorem Port.Sound.loaded {P : Port} (h : P.Sound .running) (r : PortRecord) : (P.loaded r).Sound .running := by
  have hrole := h.role rfl
  unfold Port.loaded
  dsimp only
  split
  · rename_i hr
    refine ⟨?_, fun _ => ?_, fun hd => ?_⟩
    · split_ifs <;> exact h.queue
    · split_ifs <;> exact hr ▸ hrole
    · have hd' : P.link = .disabled := by split_ifs at hd <;> exact hd
      have := h.rest hd'
      have hold := hrole.1 hd'
      simp only [hold, or_true, if_true]
      split_ifs <;> exact this
  · rename_i hr
    generalize hQ : (if P.record.silenceTime = r.silenceTime ∨ P.record.role = .disabled then
      ({ P with record := r } : Port) else { P with record := r, silenceTimer := some r.silenceTime }) = Q
    have hQr : Q.record = r ∧ Q.link = P.link ∧ Q.queue = P.queue := by
      rw [← hQ]; split <;> exact ⟨rfl, rfl, rfl⟩
    obtain ⟨h1, h2, h3⟩ := hQr
    have key : ∀ R : Port, R.record = r → R.link = P.link → R.queue = P.queue →
        (R.changeRole P.record.role r.role).Sound .running := fun R a b c => by
      rw [← a]
      exact Port.Sound.changeRole (by rw [b]; exact hrole) (by rw [c]; exact h.queue)
    split_ifs
    · exact key Q h1 h2 h3
    · exact key _ h1 h2 h3

theorem reqLoadPort_keeps (a p : Nat) (r : PortRecord) (s : State) (hrun : s.phase = .running) :
    Keeps tbl us s (reqLoadPort a p r s).1 := by
  unfold reqLoadPort
  dsimp only
  split
  · exact .refl us s
  rename_i hp
  split
  · exact .refl us s
  split
  · exact .refl us s
  · have hp : p < 12 := by
      simp only [Bool.or_eq_true, decide_eq_true_eq, not_or, not_le] at hp
      exact hp.1.1.1
    have h1 : Keeps tbl us s { s with net := if r.role = .disabled ∧ (s.port p).record.role ≠ .disabled then s.net.emptyQueue p
        else s.net } := by
      split
      · exact .emptyQueue p hp s
      · exact .refl us s
    refine ((h1.trans (.lowerReservation p r.reservation _)).trans (.setPort p _ _ (Port.refsTo_loaded _ r) fun h => ?_)).trans
      (.setModified _ _)
    have hph := ((h1.trans (.lowerReservation p r.reservation _)).phase).trans hrun
    rw [hph] at h ⊢
    exact h.loaded r

/-! ### The node table (R51 to R56) -/

theorem State.movedNotice_keeps (n p : Nat) (b : Binding) (s : State) : Keeps tbl us s (s.movedNotice n p b) := by
  unfold State.movedNotice
  split
  · exact .ite (fun _ => .refl us s) fun _ => .notice _ _ _ s
  · exact .refl us s
  · exact .refl us s
  · exact .refl us s

theorem State.discard_keeps (p : Nat) (k : Count) (s : State) : Keeps tbl us s (s.discard p k) :=
  (Keeps.count p k s).trans (.dropBurst p _)

theorem State.drop_keeps (p : Nat) (s : State) : Keeps tbl us s (s.drop p) := .dropBurst p s

theorem State.conflict_keeps (n p m : Nat) (s : State) : Keeps false us s (s.conflict n p m) :=
  .ite (fun _ => State.discard_keeps p .conflict s) fun _ =>
    ((State.discard_keeps p .conflict s).trans (.notice _ _ _ _)).trans (.setNode _ _ _)

theorem State.learn_keeps (n p : Nat) (s : State) : Keeps false us s (s.learn n p).1 := by
  unfold State.learn
  dsimp only
  split
  · split
    · exact State.conflict_keeps _ _ _ s
    · exact (Keeps.setNode _ _ s).trans (State.movedNotice_keeps _ _ _ _)
  · exact (Keeps.setNode _ _ s).trans (State.movedNotice_keeps _ _ _ _)

theorem State.checkSource_keeps (n p : Nat) (s : State) : Keeps false us s (s.checkSource n p).1 := by
  unfold State.checkSource
  split
  · split
    · exact .refl us s
    · exact State.conflict_keeps _ _ _ s
  · split
    · exact .refl us s
    · exact State.conflict_keeps _ _ _ s
  · exact State.learn_keeps n p s
  · exact State.learn_keeps n p s

/-- The node table's judgement, and then what the frame does in a part in the same phase. -/
theorem State.sourced_keeps (p : Nat) (b : Byte) (f : State → State) (s : State)
    (h : ∀ t, t.phase = s.phase → Keeps false us t (f t)) : Keeps false us s (s.sourced p b f) := by
  have h1 := State.checkSource_keeps (us := us) b.toNat p s
  exact .ite (fun _ => h1.trans (h _ h1.phase)) fun _ => h1

theorem reqBindNode_keeps (n p : Nat) (s : State) : Keeps false us s (reqBindNode n p s).1 := by
  unfold reqBindNode
  split
  · exact .refl us s
  split
  · exact .refl us s
  · exact .setNode _ _ s

theorem reqUnbindNode_keeps (n : Nat) (s : State) : Keeps false us s (reqUnbindNode n s).1 := by
  unfold reqUnbindNode
  split
  · exact .refl us s
  split
  · exact .refl us s
  · exact .setNode _ _ s

theorem reqLoadPartWide_keeps (r : PartWide) (s : State) : Keeps false us s (reqLoadPartWide r s).1 := by
  unfold reqLoadPartWide
  split
  · exact .refl us s
  split
  · exact .refl us s
  · refine Keeps.trans (t := { s with
      nodes := Vector.ofFn fun n : Fin 256 => (s.node n).reload r s.part.own n, part := r }) ?_ (.setModified _ _)
    exact .of_eq rfl rfl rfl rfl rfl nofun

/-! ### Frames forwarded (R57 to R60) -/

theorem State.unicast_keeps (p id : Nat) (d : Byte) (s : State) (hid : id ∈ us) : Keeps tbl us s (s.unicast p id d) := by
  unfold State.unicast
  split
  · exact .count p _ s
  · split
    · exact .refl us s
    split
    · rename_i q _ _ hf
      by_cases hq : q < 12
      · exact .enqueue q id s hid hq
      · rw [s.port_outside hq] at hf; simp [Port.forwards, Port.cold] at hf
    · exact .count p _ s

theorem State.forwardLines_keeps (p : Nat) (f : Frame) (s : State) : Keeps tbl us s (s.forwardLines p f) :=
  .release_keep (.toLines p _ _ (by simp))

theorem State.forwardUnicast_keeps (p : Nat) (f : Frame) (s : State) : Keeps tbl us s (s.forwardUnicast p f) :=
  .release_keep (State.unicast_keeps p _ f.dest _ (by simp))

theorem State.sampleFrame_keeps (p : Nat) (f : Frame) (x : SampleFields) (s : State) : Keeps tbl us s (s.sampleFrame p f x) := by
  unfold State.sampleFrame
  split
  · exact (State.discard_keeps p _ s).trans (State.offer_keeps p _)
  · dsimp only
    refine (State.offer_keeps p s).trans ?_
    have h := State.takeSample_keeps (us := ((s.offer p).net.keep p f).2 :: us) (tbl := tbl) f.source x
      { s.offer p with net := ((s.offer p).net.keep p f).1 }
    generalize ({ s.offer p with net := ((s.offer p).net.keep p f).1 } : State).takeSample f.source x = r at h ⊢
    split
    · exact .release_keep h
    · exact .release_keep (h.trans (.toLines p _ _ (by simp)))
    · exact .release_keep ((h.trans (.rewrite _ _ _)).trans (.toLines p _ _ (by simp)))

theorem State.statusFrame_keeps (p n : Nat) (f : Frame) (x : StatusFields) (s : State) : Keeps tbl us s (s.statusFrame p n f x) :=
  .release_keep ((State.handleStatus_keeps n x _).trans (.toLines p _ _ (by simp)))

end Sys2Proof.Machine
end

section
/-! PROOFS. The store, the requests, the start-up and the RESTART along a step, and with them every command (chapters 10 and
11): no command stops the part, none touches the waiting commands, and each keeps the invariants. -/

namespace Sys2Proof.Machine

variable {s t u : State} {us : List Nat}

/-! ### The setting store (R179 to R182) -/

/-- A change of the store alone. -/
theorem Keeps.modStore (f : Store → Store) (s : State)
    (hl : (s.store.op.isSome → s.store.latch = false) → (f s.store).op.isSome → (f s.store).latch = false)
    (hs : s.Tracked → ∀ c, (f s.store).stands.read StandsSection.bytes = some c → c.SpansAdmitted)
    (hw : s.Tracked → ∀ c, (f s.store).op = some (.save (.stands c)) ∨ (f s.store).op = some (.protect (.stands c)) →
      c.SpansAdmitted) : Keeps false us s (s.modStore f) :=
  ⟨⟨rfl, rfl, fun h => ⟨h.records, h.queues, hs h, hw h⟩⟩, nofun, fun h => ⟨h.ports, h.exact, hl h.latch⟩⟩

/-- The latch is cleared, or set while no operation is in flight (R179). -/
theorem Keeps.setLatch (b : Bool) (s : State) (h : s.store.op.isSome → b = false) :
    Keeps false us s (s.modStore fun t => { t with latch := b }) :=
  .modStore (fun t => { t with latch := b }) s (fun _ => h) (fun h => h.stored) fun h => h.writing

theorem refuseStore_keeps (why : Reason) (s : State) : Keeps false us s (refuseStore why s).1 := .setLatch false s fun _ => rfl

theorem reqStoreEnable_keeps (s : State) : Keeps false us s (reqStoreEnable s).1 := by
  unfold reqStoreEnable
  split
  · exact .refl us s
  · rename_i ho
    exact .setLatch true s fun h => absurd h ho

theorem reqStoreDisable_keeps (s : State) : Keeps false us s (reqStoreDisable s).1 := by
  unfold reqStoreDisable
  split
  · exact .refl us s
  · exact .setLatch false s fun _ => rfl

/-- What the store holds as STANDS, it still holds, or it has become unreadable. -/
def Store.StandsKept (t u : Store) : Prop := u.stands = t.stands ∨ u.stands.read StandsSection.bytes = none

theorem Store.StandsKept.admitted {t u : Store} (h : t.StandsKept u)
    (ht : ∀ c, t.stands.read StandsSection.bytes = some c → c.SpansAdmitted) :
    ∀ c, u.stands.read StandsSection.bytes = some c → c.SpansAdmitted := fun c hc => by
  rcases h with h | h
  · exact ht c (h ▸ hc)
  · rw [h] at hc; cases hc

theorem Store.invalidate_standsKept (k : Nat) (t : Store) : t.StandsKept (t.invalidate k) := by
  unfold Store.invalidate
  split
  exacts [.inl rfl, .inl rfl, .inr rfl, .inl rfl]

theorem Store.wipe_standsKept (k : Nat) (t : Store) : t.StandsKept (t.wipe k) := by
  unfold Store.wipe
  split
  exacts [.inl rfl, .inl rfl, .inr rfl, .inl rfl]

theorem Store.StandsKept.trans {t u v : Store} (h : t.StandsKept u) (g : u.StandsKept v) : t.StandsKept v := by
  rcases g with g | g
  · rcases h with h | h
    · exact .inl (g.trans h)
    · exact .inr (by rw [g]; exact h)
  · exact .inr g

theorem Store.standsKept_foldl (f : Store → Nat → Store) (hf : ∀ (t : Store) k, t.StandsKept (f t k)) (l : List Nat) (t : Store) :
    t.StandsKept (l.foldl f t) := by
  induction l generalizing t with
  | nil => exact .inl rfl
  | cons k l ih => exact Store.StandsKept.trans (hf t k) (ih _)

theorem State.standsContent_admitted (h : s.Tracked) : s.standsContent.SpansAdmitted := fun i hi => by
  change SpanRecord.inRange (getAt (s.spans.map Span.record) builtInSpan i) = true
  rw [getAt_map Span.record s.spans (Span.start builtInSpan) builtInSpan hi]
  exact h.records i hi

theorem State.snapshot_admitted (h : s.Tracked) {k : Nat} {c : StandsSection} (hc : s.snapshot k = .stands c) :
    c.SpansAdmitted := by
  unfold State.snapshot at hc
  split at hc <;> cases hc
  exact State.standsContent_admitted h

/-- A write begins: a snapshot of the running content. -/
theorem Keeps.startSave (k k' : Nat) (op : Snapshot → StoreOp) (hop : op = .save ∨ op = .protect) (s : State) :
    Keeps false us s (s.modStore (Store.startSave k (op (s.snapshot k')))) := by
  refine .modStore _ s (fun _ _ => rfl) (fun h => ?_) fun h c hc => ?_
  · exact Store.StandsKept.admitted (t := s.store) ((Store.invalidate_standsKept k s.store).imp id id) h.stored
  · refine State.snapshot_admitted h (k := k') ?_
    change some (op (s.snapshot k')) = _ ∨ some (op (s.snapshot k')) = _ at hc
    rcases hop with rfl | rfl <;> simpa using hc

theorem reqStoreSave_keeps (k : Nat) (s : State) : Keeps false us s (reqStoreSave k s).1 := by
  unfold reqStoreSave
  split
  · exact refuseStore_keeps _ s
  split
  · exact .refl us s
  split
  · exact refuseStore_keeps _ s
  split
  · exact refuseStore_keeps _ s
  · exact .startSave _ _ .save (.inl rfl) s

theorem reqStoreErase_keeps (k : Nat) (s : State) : Keeps false us s (reqStoreErase k s).1 := by
  unfold reqStoreErase
  split
  · exact refuseStore_keeps _ s
  split
  · exact .refl us s
  split
  · exact refuseStore_keeps _ s
  split
  · exact refuseStore_keeps _ s
  · refine .modStore (fun t => { (eraseSections k).foldl (fun t k => (t.invalidate k).mark true k) t with
      op := some (.erase k), latch := false }) s (fun _ _ => rfl) (fun h => ?_)
      fun h c hc => by rcases hc with hc | hc <;> cases hc
    exact (Store.standsKept_foldl (fun t k => (t.invalidate k).mark true k)
      (fun t k => (Store.invalidate_standsKept k t).imp id id) _ s.store).admitted h.stored

theorem reqStoreProtect_keeps (v : Nat) (s : State) : Keeps false us s (reqStoreProtect v s).1 := by
  unfold reqStoreProtect
  split
  · exact refuseStore_keeps _ s
  split
  · exact .refl us s
  split
  · exact refuseStore_keeps _ s
  split
  · exact refuseStore_keeps _ s
  · exact (Keeps.trip _ s).trans (.startSave _ _ .protect (.inr rfl) _)

theorem Stored.read_written {α : Type} (bytes : α → List Byte) (c : α) : (Stored.written bytes c).read bytes = some c :=
  if_pos rfl

/-- A write ends: the section holds its snapshot, or stays unreadable. -/
theorem Keeps.endWrite (x : Snapshot) (v : Bool) (s : State) (hx : s.Tracked → ∀ c, x = .stands c → c.SpansAdmitted) :
    Keeps false us s (s.modStore (Store.endWrite x v)) := by
  have hop : (Store.endWrite x v s.store).op = none := by
    unfold Store.endWrite Store.write
    cases v
    · rfl
    · cases x <;> rfl
  refine .modStore _ s (fun _ h => by rw [hop] at h; cases h) (fun h c hc => ?_) fun h c hc => by
    rw [hop] at hc; rcases hc with hc | hc <;> cases hc
  cases v with
  | false => exact h.stored c hc
  | true =>
    cases x with
    | stands c' =>
      change (Stored.written StandsSection.bytes c').read StandsSection.bytes = some c at hc
      rw [Stored.read_written, Option.some.injEq] at hc
      exact hx h c (by rw [hc])
    | ports _ => exact h.stored c hc
    | channels _ => exact h.stored c hc
    | trip _ => exact h.stored c hc

theorem State.saveComplete_keeps (v : Bool) (s : State) : Keeps false us s (s.saveComplete v) := by
  unfold State.saveComplete
  split
  · rename_i x hx
    exact (Keeps.endWrite x v s fun h c hc => h.writing c (.inl (by rw [hx, hc]))).trans (.notice _ _ _ _)
  · exact .refl us s

theorem State.protectComplete_keeps (v : Bool) (s : State) : Keeps false us s (s.protectComplete v) := by
  unfold State.protectComplete
  split
  · rename_i x hx
    exact (Keeps.endWrite x v s fun h c hc => h.writing c (.inr (by rw [hx, hc]))).trans (.notice _ _ _ _)
  · exact .refl us s

theorem State.eraseComplete_keeps (s : State) : Keeps false us s s.eraseComplete := by
  unfold State.eraseComplete
  split
  · rename_i k _
    refine Keeps.trans (.modStore (fun t => { (eraseSections k).foldl (fun t k => t.wipe k) t with op := none }) s
      (fun _ h => by cases h) (fun h => ?_) fun h c hc => by rcases hc with hc | hc <;> cases hc) (.notice _ _ _ _)
    exact (Store.standsKept_foldl (fun t k => t.wipe k) (fun t k => Store.wipe_standsKept k t) _ s.store).admitted h.stored
  · exact .refl us s

/-! ### Reads (R38, R81, R104, R125, R154, R170, R174, R176) -/

theorem reqReadPort_keeps (c : Bool) (p : Nat) (s : State) : Keeps false us s (reqReadPort c p s).1 := by
  unfold reqReadPort
  split
  · exact .refl us s
  · exact .ite (fun _ => .modPort p _ s (fun _ => rfl) fun h => ⟨h.queue, h.role, h.rest⟩) fun _ => .refl us s

theorem reqReadChannel_keeps (c : Bool) (k : Nat) (s : State) : Keeps false us s (reqReadChannel c k s).1 := by
  unfold reqReadChannel
  split
  · exact .refl us s
  · exact .ite (fun _ => .modChannel _ _ s) fun _ => .refl us s

theorem State.clearStand_keeps (n : Nat) (s : State) : Keeps false us s (s.clearStand n) :=
  .ite (fun _ => (Keeps.modStand n _ s).trans (.group _ _)) fun _ => .modStand n _ s

theorem reqReadStand_keeps (c : Bool) (n : Nat) (s : State) : Keeps false us s (reqReadStand c n s).1 := by
  unfold reqReadStand
  split
  · exact .refl us s
  · exact .ite (fun _ => State.clearStand_keeps n s) fun _ => .refl us s

theorem reqReadSpan_keeps (c : Bool) (i k : Nat) (s : State) : Keeps false us s (reqReadSpan c i k s).1 := by
  unfold reqReadSpan
  split
  · exact .refl us s
  · exact .ite (fun _ => .modSpan_rest i _ s rfl rfl) fun _ => .refl us s

theorem reqReadTripLog_keeps (c : Bool) (k : Nat) (s : State) : Keeps false us s (reqReadTripLog c k s).1 :=
  .ite (fun _ => .trip _ s) fun _ => .refl us s

theorem reqReadNodeTable_keeps (k : Nat) (s : State) : Keeps false us s (reqReadNodeTable k s).1 := by
  unfold reqReadNodeTable
  split <;> exact .refl us s

/-- The dropped-notice counter is no part of the invariants. -/
theorem Keeps.dropped (k : Nat) (s : State) : Keeps false us s { s with net := { s.net with dropped := k } } :=
  .net _ (fun hs => hs.ports) fun hs => ⟨⟨hs.exact.refs, hs.exact.ids, hs.exact.nodup⟩, hs.exact.count, hs.exact.named⟩

theorem reqIdentify_keeps (c : Bool) (s : State) : Keeps false us s (reqIdentify c s).1 :=
  .ite (fun _ => .dropped 0 s) fun _ => .refl us s

/-! ### Sections loaded (R184) -/

theorem builtInStands_admitted : builtInStands.SpansAdmitted := fun i _ => by
  change SpanRecord.inRange (getAt (Vector.replicate 9 builtInSpan) builtInSpan i) = true
  rw [getAt_replicate_self]; decide

/-- The spans that a start-up loads have records that R82 admits. -/
theorem Store.standsIn_admitted (h : s.Tracked) : s.store.standsIn.SpansAdmitted := by
  unfold Store.standsIn
  cases hr : s.store.stands.read StandsSection.bytes with
  | none => exact builtInStands_admitted
  | some c => exact h.stored c hr

theorem State.loadUnits_span (s : State) (i : Nat) (hi : i < 9) :
    s.loadUnits.span i = Span.start (getAt s.store.standsIn.spans builtInSpan i) :=
  getAt_map Span.start _ _ _ hi

theorem State.loadUnits_keeps (s : State) : Keeps false us s s.loadUnits where
  phase := rfl
  pending := rfl
  nodes := nofun
  tracked h := by
    refine ⟨fun i hi => ?_, fun i hi => ?_, h.stored, h.writing⟩ <;> rw [State.loadUnits_span s i hi]
    · exact Store.standsIn_admitted h i hi
    · exact Nat.zero_le _
  inv h := ⟨h.ports, h.exact, h.latch⟩

theorem State.checkStands_keeps (s : State) : Keeps false us s s.checkStands :=
  .foldl _ _ (fun s n _ => .ite (fun _ => (Keeps.modStand n _ s).trans (.setModified _ _)) fun _ => .refl us s) s

theorem State.noteSources_keeps (s : State) : Keeps false us s s.noteSources :=
  ⟨⟨rfl, rfl, fun h => ⟨h.records, h.queues, h.stored, h.writing⟩⟩, nofun, fun h => ⟨h.ports, h.exact, h.latch⟩⟩

theorem State.loadTrip_keeps (s : State) : Keeps false us s s.loadTrip := .trip _ s

/-- The part-wide record and the node table of the PORTS section (R51, R184). -/
def State.loadPart (s : State) : State :=
  { s with part := s.store.portsIn.part, nodes := staticTable s.store.portsIn.part.bindings }

theorem State.loadSections_eq (s : State) : s.loadSections = s.loadPart.loadUnits.noteSources.checkStands.loadTrip := rfl

theorem State.loadPart_keeps (s : State) : Keeps false us s s.loadPart := .of_eq rfl rfl rfl rfl rfl nofun

theorem State.loadSections_keeps (s : State) : Keeps false us s s.loadSections := by
  rw [State.loadSections_eq]
  exact ((((State.loadPart_keeps s).trans (State.loadUnits_keeps _)).trans (State.noteSources_keeps _)).trans
    (State.checkStands_keeps _)).trans (State.loadTrip_keeps _)

/-! ### RESTART (R40, R62, R177) -/

theorem Net.port_zip_map {α : Type} (v : Vector α 12) (d : α) (n : Net) (f : α × Port → Port) (m : Net)
    (hm : m.ports = (v.zip n.ports).map f) {p : Nat} (hp : p < 12) : m.port p = f (getAt v d p, n.port p) := by
  unfold Net.port
  rw [hm, getAt_map f _ (d, Port.cold (builtInPort .disabled) false) _ hp,
    getAt_zip _ _ d (Port.cold (builtInPort .disabled) false) _ hp]

theorem Port.restarted_sound (r : PortRecord) (P : Port) : (P.restarted r).Sound .running := by
  unfold Port.restarted Port.enable
  dsimp only
  split_ifs with h1 h2 h3
  · exact ⟨Nat.zero_le _, fun _ => ⟨fun _ => h1, fun _ => rfl⟩, fun _ => ⟨rfl, rfl, rfl, rfl⟩⟩
  all_goals exact ⟨Nat.zero_le _, fun _ => ⟨fun h => by simp [Port.toLink] at h, fun h => absurd h h1⟩,
    fun h => by simp [Port.toLink] at h⟩

theorem Port.restarted_refsTo (r : PortRecord) (P : Port) (id : Nat) :
    (P.restarted r).refsTo id = if P.heldRef = some id then 1 else 0 := by
  have h : (P.restarted r).queue = [] ∧ (P.restarted r).sending = P.sending := by
    unfold Port.restarted Port.enable
    dsimp only
    split_ifs <;> exact ⟨rfl, rfl⟩
  simp only [Port.refsTo, h.1, h.2, List.count_nil, Nat.zero_add]
  rfl

theorem Net.port_outside (n : Net) {p : Nat} (h : ¬ p < 12) : n.port p = Port.cold (builtInPort .disabled) false :=
  getAt_outside _ _ h

/-- Over a RESTART the references left are those of the frames on the line and of the request (R62). -/
theorem Net.restarted_exact (records : Vector PortRecord 12) (keep : Nat) (n : Net) (h : n.Exact [keep]) :
    (n.restarted records keep).Exact [keep] := by
  have hports : ∀ p, p < 12 → (n.restarted records keep).port p =
      (n.port p).restarted (getAt records (builtInPort .disabled) p) := fun p hp =>
    Net.port_zip_map records (builtInPort .disabled) n (fun x => x.2.restarted x.1) _ rfl hp
  have hsum : ∀ (l : List Nat) (id : Nat), (∀ p ∈ l, p < 12) →
      (l.map fun p => ((n.restarted records keep).port p).refsTo id).sum =
        (l.filter fun p => ((n.port p).sending.bind Sending.held) == some id).length := fun l id hl => by
    induction l with
    | nil => rfl
    | cons p l ih =>
      have ih := ih fun q hq => hl q (List.mem_cons_of_mem p hq)
      have hc : ((n.port p).sending.bind Sending.held == some id) = decide ((n.port p).heldRef = some id) := by
        rw [Port.heldRef, beq_eq_decide]
      simp only [List.map_cons, List.sum_cons, ih, hports p (hl p (by simp)), Port.restarted_refsTo, List.filter_cons, hc,
        decide_eq_true_eq]
      split
      · rw [List.length_cons, Nat.add_comm]
      · rw [Nat.zero_add]
  have hrefs : ∀ id, (n.restarted records keep).refsTo id + [keep].count id = n.refsKept keep id := fun id => by
    rw [Net.refsTo, hsum _ _ fun p hp => (mem_portNumbers p).1 hp, Net.refsKept, List.count_singleton]
    by_cases hc : id = keep
    · rw [if_pos hc, if_pos (by simp [hc])]
    · rw [if_neg hc, if_neg (by simpa using Ne.symm hc)]
  have hkept : ∀ id, n.refsKept keep id ≠ 0 → id ∈ n.frames.map HeldFrame.id := fun id hid => by
    refine h.named id fun h0 => hid ?_
    have hport : ∀ p ∈ portNumbers, (n.port p).refsTo id = 0 := fun p hp => by
      have := n.refsTo_ge ((mem_portNumbers p).1 hp) id
      omega
    have h1 : (portNumbers.filter fun p => ((n.port p).sending.bind Sending.held) == some id) = [] :=
      List.filter_eq_nil_iff.2 fun p hp hc => by
        have := hport p hp
        rw [Port.refsTo, if_pos (by simpa using hc)] at this
        omega
    have h2 : [keep].count id = 0 := by omega
    rw [Net.refsKept, h1]
    rw [List.count_singleton] at h2
    have : id ≠ keep := fun he => by simp [he] at h2
    simp [this]
  have hmem : ∀ g, g ∈ (n.restarted records keep).frames ↔
      ∃ g' ∈ n.frames, g = { g' with refs := n.refsKept keep g'.id } ∧ n.refsKept keep g'.id ≠ 0 := fun g => by
    simp only [Net.restarted, List.mem_filter, List.mem_map, bne_iff_ne]
    constructor
    · rintro ⟨⟨g', hg', rfl⟩, h0⟩; exact ⟨g', hg', rfl, h0⟩
    · rintro ⟨g', hg', rfl, h0⟩; exact ⟨⟨g', hg', rfl⟩, h0⟩
  refine ⟨⟨fun g hg => ?_, fun g hg => ?_, ?_⟩, fun g hg => ?_, fun id hid => ?_⟩
  · obtain ⟨g', -, rfl, h0⟩ := (hmem g).1 hg; exact h0
  · obtain ⟨g', hg', rfl, -⟩ := (hmem g).1 hg; exact h.ids g' hg'
  · refine h.nodup.sublist ?_
    have : n.frames.map HeldFrame.id =
        (n.frames.map fun h => { h with refs := n.refsKept keep h.id }).map HeldFrame.id := by
      rw [List.map_map]; rfl
    rw [this]
    exact List.filter_sublist.map _
  · obtain ⟨g', -, rfl, -⟩ := (hmem g).1 hg; exact (hrefs g'.id).symm
  · rw [hrefs] at hid
    obtain ⟨g', hg', rfl⟩ := List.mem_map.1 (hkept id hid)
    exact List.mem_map.2 ⟨_, (hmem _).2 ⟨g', hg', rfl, hid⟩, rfl⟩

theorem Net.restarted_port (records : Vector PortRecord 12) (keep : Nat) (n : Net) {p : Nat} (hp : p < 12) :
    (n.restarted records keep).port p = (n.port p).restarted (getAt records (builtInPort .disabled) p) :=
  Net.port_zip_map records (builtInPort .disabled) n (fun x => x.2.restarted x.1) _ rfl hp

/-- The part as a RESTART begins to load: the latch clear, the ports and frames as R40 and R62 leave them. -/
def State.restarting (keep : Nat) (s : State) : State :=
  { s.modStore (fun t => { t with latch := false }) with net := s.net.restarted s.store.portsIn.ports keep }

theorem State.restart_eq (keep : Nat) (s : State) :
    s.restart keep = ((s.restarting keep).loadSections.restartEvents s).matrixInForce := rfl

theorem State.restarting_keeps (keep : Nat) (s : State) (hr : s.phase = .running) : Keeps false [keep] s (s.restarting keep) := by
  refine (Keeps.setLatch false s fun _ => rfl).trans (.net (s.net.restarted s.store.portsIn.ports keep) (fun _ p => ?_)
    fun h => Net.restarted_exact _ keep _ h.exact)
  change Port.Sound s.phase _
  rw [hr]
  by_cases hp : p < 12
  · rw [Net.restarted_port _ _ _ hp]; exact Port.restarted_sound _ _
  · rw [Net.port_outside _ hp]; exact Port.cold_sound _ _ _ fun _ => rfl

theorem State.restartEvents_keeps (b s : State) : Keeps false us s (s.restartEvents b) :=
  .foldl (fun s c => s.condNotice c) _ (fun s c _ => (State.condNotice_quiet c s).keeps) s

theorem State.restart_keeps (keep : Nat) (s : State) (hr : s.phase = .running) : Keeps false [keep] s (s.restart keep) := by
  rw [State.restart_eq]
  exact (((State.restarting_keeps keep s hr).trans (State.loadSections_keeps _)).trans (State.restartEvents_keeps s _)).trans
    (State.matrixInForce_event _).keeps

theorem reqRestart_keeps (keep : Nat) (s : State) (hr : s.phase = .running) : Keeps false [keep] s (reqRestart keep s).1 := by
  unfold reqRestart
  split
  · exact .refl _ s
  split
  · exact .refl _ s
  · dsimp only
    exact State.restart_keeps keep s hr

/-! ### A request served (R60, R171) -/

theorem State.carryOut_keeps (keep : Nat) (a : Arrival) (r : Request) (s : State) (hr : s.phase = .running) :
    Keeps false [keep] s (s.carryOut keep a r).1 := by
  cases r with
  | identify c => exact reqIdentify_keeps c s
  | readPort c p => exact reqReadPort_keeps c p s
  | readChannel c k => exact reqReadChannel_keeps c k s
  | readStand c n => exact reqReadStand_keeps c n s
  | readSpan c i k => exact reqReadSpan_keeps c i k s
  | readTripLog c k => exact reqReadTripLog_keeps c k s
  | readNodeTable k => exact reqReadNodeTable_keeps k s
  | loadPort p x => exact reqLoadPort_keeps a.port p x s hr
  | loadPartWide x => exact reqLoadPartWide_keeps x s
  | loadChannel c x => exact reqLoadChannel_keeps c x s
  | loadStand n x p => exact reqLoadStand_keeps n x p s
  | loadSpan i x => exact reqLoadSpan_keeps i x s
  | loadPassCurrent n p => exact reqLoadPassCurrent_keeps n p s
  | loadPassNext n p => exact reqLoadPassNext_keeps n p s
  | loadTripEntry e x => exact reqLoadTripEntry_keeps e x s
  | loadTripInterval k => exact reqLoadTripInterval_keeps k s
  | bindNode n p => exact reqBindNode_keeps n p s
  | unbindNode n => exact reqUnbindNode_keeps n s
  | admitStand n => exact reqAdmit_keeps n s
  | bypass n => exact reqBypass_keeps n s
  | switchPass n => exact reqSwitchPass_keeps n s
  | clearHold n => exact reqClearHold_keeps n s
  | stop c m => exact reqStop_keeps a.port c m s
  | resetTrip m => exact reqResetTrip_keeps m s
  | flushSpan i => exact reqFlushSpan_keeps i s
  | setPortTest p m => exact reqSetPortTest_keeps a.port p m s
  | injectError p => exact reqInjectError_keeps p s
  | storeEnable => exact reqStoreEnable_keeps s
  | storeDisable => exact reqStoreDisable_keeps s
  | storeSave n => exact reqStoreSave_keeps n s
  | storeErase n => exact reqStoreErase_keeps n s
  | storeProtect n => exact reqStoreProtect_keeps n s
  | restart => exact reqRestart_keeps keep s hr

theorem State.answer_keeps (keep : Nat) (a : Arrival) (code : Nat) (d : Decoded) (s : State) (hr : s.phase = .running) :
    Keeps false [keep] s (s.answer keep a code d).1 := by
  unfold State.answer
  split
  · exact .refl _ s
  · unfold refuseBody
    split
    · exact refuseStore_keeps _ s
    · exact .refl _ s
  · exact State.carryOut_keeps keep a _ s hr

theorem State.manage_keeps (f : Frame) (a : Arrival) (code : Nat) (d : Decoded) (s : State) (hr : s.phase = .running) :
    Keeps false [] s (s.manage f a code d) := by
  unfold State.manage State.serve
  exact .release_keep ((State.answer_keeps s.net.nextId a code d { s with net := (s.net.keep a.port f).1 } hr).trans
    (State.reply_quiet a code _ _).keeps)

/-- A row at step 2 of R57: what it does it does in a running part. -/
theorem State.arriving_keeps (p : Nat) (b : Byte) (f : State → State) (s : State)
    (h : ∀ t, t.phase = .running → Keeps false us t (f t)) : Keeps false us s (s.arriving p b f) :=
  .ite (fun hc => State.sourced_keeps p b f s fun t ht => h t (ht.trans (by
    simp only [Bool.and_eq_true, State.running, beq_iff_eq] at hc; exact hc.1))) fun _ => .refl us s

theorem State.atRole_keeps (p : Nat) (r : Role) (f : State → State) (s : State) (h : Keeps false us s (f s)) :
    Keeps false us s (s.atRole p r f) := .ite (fun _ => h) fun _ => State.discard_keeps p _ s

theorem State.request_keeps (a : Arrival) (code : Nat) (l : List Byte) (d : Decoded) (s : State) :
    Keeps false [] s (s.request a code l d) :=
  State.arriving_keeps _ _ _ s fun t ht => State.atRole_keeps _ _ _ t (State.manage_keeps _ a code d t ht)

theorem State.ask_keeps (a : Arrival) (r : Request) (s : State) : Keeps false [] s (s.ask a r) := State.request_keeps a _ _ _ s

theorem State.consume_keeps (p : Nat) (b : Byte) (r : Role) (f : State → State) (s : State) (h : ∀ t, Keeps false us t (f t)) :
    Keeps false us s (s.consume p b r f) :=
  State.arriving_keeps _ _ _ s fun t _ => State.atRole_keeps _ _ _ t ((h t).trans (State.drop_keeps p _))

/-! ### A frame received (R4, R57) -/

/-- Only a MANAGE frame is served as a request (R58). -/
theorem State.treatment_manage {p : Nat} {f : Frame} (h : s.treatment p f = .manage) : f.kind = .manage := by
  unfold State.treatment at h
  cases hk : f.kind with
  | manage => rfl
  | _ =>
    rw [hk] at h
    dsimp only at h
    repeat' (split at h)
    all_goals cases h

/-- Of the frames that go on from the node table, only a MANAGE frame changes the table. -/
theorem State.forward_keeps {tbl : Bool} (p : Fin 12) (f : Frame) (s : State) (hr : s.phase = .running)
    (hk : tbl = true → f.kind ≠ .manage) : Keeps tbl [] s (s.forward p f) := by
  unfold State.forward
  split
  · split
    · exact State.sampleFrame_keeps p f _ s
    · exact State.drop_keeps p s
  · split
    · exact State.statusFrame_keeps p _ f _ s
    · exact State.drop_keeps p s
  · exact State.forwardLines_keeps p f s
  · split
    · exact (State.takeSetpoint_keeps _ s).trans (State.drop_keeps p _)
    · exact State.drop_keeps p s
  · split
    · exact (State.takeGroup_keeps p _ s).trans (State.drop_keeps p _)
    · exact State.drop_keeps p s
  · split
    · exact (State.panelStop_keeps p _ s).trans (State.drop_keeps p _)
    · exact State.drop_keeps p s
  · rename_i ht
    cases tbl with
    | false => exact State.manage_keeps _ _ _ _ s hr
    | true => exact absurd (State.treatment_manage ht) (hk rfl)
  · exact State.discard_keeps p _ s
  · exact State.forwardUnicast_keeps p f s
  · exact State.discard_keeps p _ s

theorem Net.echo_keeps (p : Nat) (hp : p < 12) (f : Frame) (s : State) : Keeps false us s { s with net := s.net.echo p f } :=
  .release_keep (.enqueue p _ _ (by simp [Net.keep]) hp)

theorem State.dispose_keeps (p : Fin 12) (f : Frame) (s : State) (hr : s.phase = .running) : Keeps false [] s (s.dispose p f) := by
  unfold State.dispose
  split
  · exact .ite (fun _ => State.drop_keeps p s) fun _ =>
      State.sourced_keeps p _ _ s fun t ht => State.forward_keeps p f t (ht.trans hr) nofun
  · exact State.drop_keeps p s
  · exact Net.echo_keeps p p.isLt f s
  · split
    · exact (Keeps.setChecker p _ s).trans (.dropBurst p _)
    · exact State.drop_keeps p s

theorem State.validFrame_keeps (p : Fin 12) (f : Frame) (s : State) (hr : s.phase = .running)
    (hl : (s.port p).link ≠ .disabled) : Keeps false [] s (s.validFrame p f) := by
  have hl' : ((s.net.count p .received).port p).link ≠ .disabled := by
    have : ((s.net.count p .received).port p).link = (s.net.port p).link :=
      Net.port_modPort_keep Port.link s.net p p _ fun _ => rfl
    rw [this]; exact hl
  have h := (Keeps.count (us := []) (tbl := false) p .received s).trans (State.heard_keeps p _ hl')
  exact .ite (fun _ => h.trans (State.discard_keeps p _ _)) fun _ =>
    h.trans (State.dispose_keeps p f _ (h.phase.trans hr))

theorem State.checkDiscard_keeps (p : Nat) (s : State) : Keeps false us s (s.checkDiscard p) :=
  .ite (fun _ => (State.discard_keeps p _ s).trans (.setChecker p _ _)) fun _ => State.discard_keeps p _ s

theorem State.burstEnded_keeps (p : Fin 12) (l : List Symbol) (s : State) (hr : s.phase = .running)
    (hl : (s.port p).link ≠ .disabled) : Keeps false [] s (s.burstEnded p l) := by
  have h : Keeps false [] s { s with net := s.net.completeClaims .line p (claimsNeeded ((nibbles l).length / 2)) } :=
    .completeClaims _ _ _ s (.inl rfl)
  unfold State.burstEnded
  dsimp only
  split
  · exact h.trans (State.discard_keeps p _ _)
  · exact h.trans (State.checkDiscard_keeps p _)
  · exact h.trans (State.validFrame_keeps p _ _ hr (by
      change ((s.net.completeClaims .line p _).port p).link ≠ _
      rw [Net.completeClaims_link]; exact hl))

theorem Port.link_of_hearsLine {P : Port} (h : P.hearsLine = true) : P.link = .up := by
  simp only [Port.hearsLine, Bool.and_eq_true, beq_iff_eq] at h; exact h.1

theorem State.arrive_keeps (p : Nat) (b : Byte) (f : State → State) (s : State) (h : ∀ t, Keeps false us t (f t)) :
    Keeps false us s (s.arrive p b f) :=
  .ite (fun _ => (Keeps.completeClaims .line p 1 s (.inl rfl)).trans (.ite (fun _ => State.discard_keeps p _ _) fun _ =>
    State.sourced_keeps p b f _ fun t _ => h t)) fun _ => .refl us s

theorem State.sampleAtRole_keeps (p : Nat) (f : Frame) (x : SampleFields) (s : State) : Keeps false us s (s.sampleAtRole p f x) :=
  .ite (fun _ => State.sampleFrame_keeps p f x s) fun _ => State.discard_keeps p _ s

theorem State.statusAtRole_keeps (p : Nat) (f : Frame) (x : StatusFields) (s : State) : Keeps false us s (s.statusAtRole p f x) := by
  unfold State.statusAtRole
  split
  · split
    · exact State.statusFrame_keeps p _ f x s
    · exact State.forwardLines_keeps p f s
  · exact State.forwardLines_keeps p f s

/-! ### Power, reset, start-up and the time base (R183 to R186) -/

/-- What a command does to the invariants and to the waiting commands. -/
structure Carries (s t : State) : Prop where
  pending : t.pending = s.pending
  inv : s.Inv → t.Inv
  tracked : s.Tracked → t.Tracked

theorem Keeps.carries (h : Keeps false [] s t) : Carries s t :=
  ⟨h.pending, fun hs => State.invFor_nil_iff.1 (h.inv (State.invFor_nil_iff.2 hs)), h.tracked⟩

theorem Carries.refl (s : State) : Carries s s := ⟨rfl, id, id⟩

/-- Ports without a queue and without a frame on the line refer to no frame. -/
theorem Net.exact_nil {n : Net} (hf : n.frames = [])
    (hp : ∀ p, p < 12 → (n.port p).queue = [] ∧ (n.port p).sending = none) : n.Exact [] := by
  have hr : ∀ id, n.refsTo id = 0 := fun id => by
    rw [Net.refsTo, List.sum_eq_zero]
    intro x hx
    obtain ⟨p, hp', rfl⟩ := List.mem_map.1 hx
    obtain ⟨h1, h2⟩ := hp p ((mem_portNumbers p).1 hp')
    simp [Port.refsTo, h1, h2]
  exact ⟨⟨by simp [hf], by simp [hf], by simp [hf]⟩, by simp [hf], fun id hid => absurd (by simp [hr]) hid⟩

theorem Net.port_cold (records : Vector PortRecord 12) (energy : Vector Bool 12) (n : Net)
    (hn : n.ports = (records.zip energy).map fun x => Port.cold x.1 x.2) {p : Nat} (hp : p < 12) :
    n.port p = Port.cold (getAt records (builtInPort .disabled) p) (getAt energy false p) := by
  unfold Net.port
  rw [hn, getAt_map (fun x : PortRecord × Bool => Port.cold x.1 x.2) _ (builtInPort .disabled, false) _ hp,
    getAt_zip _ _ (builtInPort .disabled) false _ hp]

/-- Cold ports are DISABLED and refer to nothing. -/
theorem Net.cold_sound (records : Vector PortRecord 12) (energy : Vector Bool 12) (n : Net)
    (hn : n.ports = (records.zip energy).map fun x => Port.cold x.1 x.2) (hf : n.frames = []) {ph : Phase}
    (hph : ph ≠ .running) : (∀ p, (n.port p).Sound ph) ∧ n.Exact [] := by
  refine ⟨fun p => ?_, Net.exact_nil hf fun p hp => ?_⟩
  · by_cases hp : p < 12
    · rw [Net.port_cold records energy n hn hp]; exact Port.cold_sound _ _ _ fun h => absurd h hph
    · rw [Net.port_outside n hp]; exact Port.cold_sound _ _ _ fun h => absurd h hph
  · rw [Net.port_cold records energy n hn hp]; exact ⟨rfl, rfl⟩

theorem State.stepOne_invFor (ph : Phase) (hph : ph ≠ .running) (r l : Bool) (e : Vector Bool 12) (st : Store) (k : Nat)
    (q : List Instr) : (State.stepOne ph r l e st k q).InvFor [] := by
  obtain ⟨h1, h2⟩ := Net.cold_sound builtInPorts.ports e (State.stepOne ph r l e st k q).net rfl rfl hph
  exact ⟨h1, h2, fun h => by cases h⟩

theorem State.stepOne_tracked (ph : Phase) (r l : Bool) (e : Vector Bool 12) (st : Store) (k : Nat) (q : List Instr)
    (hst : ∀ c, st.stands.read StandsSection.bytes = some c → c.SpansAdmitted) :
    (State.stepOne ph r l e st k q).Tracked := by
  have hspan : ∀ i, (State.stepOne ph r l e st k q).span i = Span.start builtInSpan := fun i => getAt_replicate_self _ i
  refine ⟨fun i _ => ?_, fun i _ => ?_, hst, fun c hc => by rcases hc with hc | hc <;> cases hc⟩ <;> rw [hspan]
  · decide
  · exact Nat.zero_le _

theorem State.stepBack_carries (ph : Phase) (hph : ph ≠ .running) (s : State) : Carries s (s.stepBack ph) :=
  ⟨rfl, fun _ => State.invFor_nil_iff.1 (State.stepOne_invFor _ hph _ _ _ _ _ _),
    fun h => State.stepOne_tracked _ _ _ _ _ _ _ h.stored⟩

/-- The reset input and the low supply are no part of the invariants. -/
theorem Carries.inputs (r l : Bool) (h : Carries { s with resetInput := r, supplyLow := l } t) : Carries s t :=
  ⟨h.pending, fun hs => h.inv ⟨hs.queues, hs.exact, hs.latch, hs.roles, hs.disabled⟩,
    fun hs => h.tracked ⟨hs.records, hs.queues, hs.stored, hs.writing⟩⟩

theorem State.powerOn_carries (s : State) : Carries s s.powerOn :=
  .inputs s.resetInput false (State.stepBack_carries _ (by split <;> simp) _)

theorem State.powerLoss_carries (s : State) : Carries s s.powerLoss :=
  .inputs s.resetInput false (State.stepBack_carries _ (by simp) _)

theorem State.resetAssert_carries (s : State) : Carries s s.resetAssert := by
  refine .inputs true s.supplyLow ?_
  unfold State.resetAssert
  dsimp only
  split
  · exact .refl _
  · exact State.stepBack_carries _ (by simp) _

theorem State.resetRelease_carries (s : State) : Carries s s.resetRelease := by
  refine .inputs false s.supplyLow ?_
  unfold State.resetRelease
  dsimp only
  split
  · exact State.stepBack_carries _ (by simp) _
  · exact .refl _

theorem State.brownOut_carries (s : State) : Carries s s.brownOut := by
  unfold State.brownOut
  split
  · exact .refl _
  · exact .inputs s.resetInput true (State.stepBack_carries _ (by simp) _)

theorem Port.takeRole_sound {P : Port} (hl : P.link = .disabled) (h : P.Sound .reading) : P.takeRole.Sound .running := by
  unfold Port.takeRole Port.enable
  split
  · rename_i hr
    exact ⟨h.queue, fun _ => ⟨fun _ => hr, fun _ => hl⟩, h.rest⟩
  · rename_i hr
    refine ⟨h.queue, fun _ => ⟨fun hd => ?_, fun hd => absurd hd hr⟩, fun hd => ?_⟩ <;>
      · dsimp only [Port.toLink] at hd
        split at hd <;> cases hd

theorem Port.takeRole_refs (P : Port) : P.takeRole.queue = P.queue ∧ P.takeRole.sending = P.sending := by
  unfold Port.takeRole Port.enable
  split <;> exact ⟨rfl, rfl⟩

/-- Every port of the link side changed alike. -/
def Net.mapPorts (f : Port → Port) (n : Net) : Net := { n with ports := n.ports.map f }

theorem Net.mapPorts_port (f : Port → Port) (n : Net) {p : Nat} (hp : p < 12) : (n.mapPorts f).port p = f (n.port p) :=
  getAt_map f _ _ _ hp

theorem Net.mapPorts_exact (f : Port → Port) (n : Net) (hf : ∀ P, (f P).queue = P.queue ∧ (f P).sending = P.sending)
    (us : List Nat) (h : n.Exact us) : (n.mapPorts f).Exact us := by
  have hp : ∀ p, ((n.mapPorts f).port p).queue = (n.port p).queue ∧ ((n.mapPorts f).port p).sending = (n.port p).sending :=
    fun p => by
      by_cases hp : p < 12
      · rw [Net.mapPorts_port f n hp]; exact hf _
      · rw [Net.port_outside _ hp, Net.port_outside _ hp]; exact ⟨rfl, rfl⟩
  exact Net.KeepsExact.of_ports n (n.mapPorts f) (fun p => (hp p).1) (fun p => (hp p).2) rfl rfl us h

/-- The part begins to run: its ports take their roles (R39, step 4 of R184). -/
def State.takeRoles (s : State) : State := { s with phase := .running, net := s.net.mapPorts Port.takeRole }

theorem State.takeRoles_inv (s : State) (hl : ∀ p, (s.port p).link = .disabled) (hph : s.phase = .reading)
    (h : s.InvFor []) : s.takeRoles.Inv := by
  refine State.invFor_nil_iff.1 ⟨fun p => ?_, Net.mapPorts_exact _ _ Port.takeRole_refs [] h.exact, h.latch⟩
  change Port.Sound .running ((s.net.mapPorts Port.takeRole).port p)
  by_cases hp : p < 12
  · rw [Net.mapPorts_port _ _ hp]; exact Port.takeRole_sound (hl p) (hph ▸ h.ports p)
  · rw [Net.port_outside _ hp]; exact Port.cold_sound _ _ _ fun _ => rfl

/-- The link side as the sections are read: cold ports under their records, no frame held. -/
def Net.colded (records : Vector PortRecord 12) (n : Net) : Net :=
  { n with ports := (records.zip (n.ports.map Port.energy)).map (fun x => Port.cold x.1 x.2), frames := [] }

/-- The part as it reads its sections. -/
def State.coldPorts (s : State) : State := { s with net := s.net.colded s.store.portsIn.ports }

theorem State.startUp_eq (s : State) : s.startUp = s.coldPorts.loadSections.matrixInForce.takeRoles := rfl

theorem State.takeRoles_tracked (s : State) (h : s.Tracked) : s.takeRoles.Tracked :=
  ⟨h.records, h.queues, h.stored, h.writing⟩

theorem State.coldPorts_port (s : State) {p : Nat} (hp : p < 12) : s.coldPorts.net.port p =
    Port.cold (getAt s.store.portsIn.ports (builtInPort .disabled) p) (getAt (s.net.ports.map Port.energy) false p) :=
  Net.port_cold _ _ (s.net.colded s.store.portsIn.ports) rfl hp

theorem State.coldPorts_disabled (s : State) (p : Nat) : (s.coldPorts.net.port p).link = .disabled := by
  by_cases hp : p < 12
  · rw [s.coldPorts_port hp]; rfl
  · rw [Net.port_outside _ hp]; rfl

theorem State.checkStands_net (s : State) : s.checkStands.net = s.net := by
  unfold State.checkStands
  generalize standNumbers = l
  induction l generalizing s with
  | nil => rfl
  | cons n l ih =>
    rw [List.foldl_cons, ih]
    split
    · simp [State.setModified]
    · rfl

theorem State.loadSections_net (s : State) : s.loadSections.net = s.net := by
  have h : ∀ u : State, u.loadTrip.net = u.net := fun _ => rfl
  rw [State.loadSections_eq, h, State.checkStands_net]
  rfl

theorem State.coldPorts_keeps (s : State) (hph : s.phase ≠ .running) : Keeps false [] s s.coldPorts := by
  obtain ⟨h1, h2⟩ := Net.cold_sound s.store.portsIn.ports (s.net.ports.map Port.energy)
    (s.net.colded s.store.portsIn.ports) rfl rfl hph
  exact .net (s.net.colded s.store.portsIn.ports) (fun _ => h1) fun _ => h2

theorem State.startUp_carries (s : State) (hph : s.phase = .reading) : Carries s s.startUp := by
  have hcold := s.coldPorts_keeps (by simp [hph])
  rw [State.startUp_eq]
  generalize hu : s.coldPorts.loadSections = u
  have hlu : ∀ p, (u.port p).link = .disabled := fun p => by
    rw [← hu, State.port, State.loadSections_net]; exact s.coldPorts_disabled p
  have hev := State.matrixInForce_event u
  have h := (hcold.trans (hu ▸ State.loadSections_keeps s.coldPorts)).trans hev.keeps
  refine ⟨h.pending, fun hs => State.takeRoles_inv _ (fun p => ?_) (h.phase.trans hph)
    (h.inv (State.invFor_nil_iff.2 hs)), fun hs => State.takeRoles_tracked _ (h.tracked hs)⟩
  rw [hev.port_eq Port.link (fun _ => rfl) p]
  exact hlu p

theorem Port.tick_sound {ph : Phase} {P : Port} (h : P.Sound ph) : P.tick.Sound ph :=
  ⟨h.queue, h.role, fun hd => ⟨(h.rest hd).1, (h.rest hd).2.1, by
    change tickTimer P.silenceTimer = none
    rw [(h.rest hd).2.2.1]; rfl, (h.rest hd).2.2.2⟩⟩



theorem State.tick_carries (s : State) : Carries s s.tick := by
  unfold State.tick
  split
  · refine ⟨rfl, fun h => ?_, fun h => ⟨h.records, h.queues, h.stored, h.writing⟩⟩
    have hs := State.invFor_nil_iff.2 h
    refine State.invFor_nil_iff.1 ⟨fun p => ?_,
      Net.mapPorts_exact Port.tick _ (fun _ => ⟨rfl, rfl⟩) [] hs.exact, hs.latch⟩
    change Port.Sound s.phase ((s.net.mapPorts Port.tick).port p)
    by_cases hp : p < 12
    · rw [Net.mapPorts_port _ _ hp]; exact Port.tick_sound (hs.ports p)
    · rw [Net.port_outside _ hp]; exact Port.cold_sound _ _ _ fun _ => rfl
  · exact .refl s

/-! ### Every command -/

/-- A claim for the frame in the port's loop. -/
theorem Keeps.claimLoop (p k : Nat) (s : State) (h : (s.port p).loop.isSome) :
    Keeps false us s { s with net := s.net.completeClaims .loop p k } := by
  by_cases hd : (s.port p).link = .disabled
  · exact ⟨.of_eq rfl rfl rfl rfl rfl, nofun, fun hs => by rw [((hs.ports p).rest hd).2.2.2] at h; cases h⟩
  · exact .completeClaims .loop p k s (.inr hd)

theorem exec_carries (c : Instr) (s : State) : ∃ t, exec c s = .next t ∧ Carries s t := by
  cases c with
  | frameReceived p l =>
    refine ⟨_, rfl, (Keeps.ite (us := []) (fun h => ?_) fun _ => .refl _ s).carries⟩
    simp only [Bool.and_eq_true, State.running, beq_iff_eq] at h
    exact State.burstEnded_keeps p l s h.1 (by rw [Port.link_of_hearsLine h.2]; simp)
  | burstTruncated p => exact ⟨_, rfl, (Keeps.ite (us := []) (fun _ => State.discard_keeps p _ s) fun _ => .refl _ s).carries⟩
  | runawayBurst p => exact ⟨_, rfl, (State.runawayBurst_keeps p s).carries⟩
  | energyDetected p => exact ⟨_, rfl, (State.energyDetected_keeps p s).carries⟩
  | energyLost p => exact ⟨_, rfl, (State.energyLost_keeps p s).carries⟩
  | idleRunComplete p => exact ⟨_, rfl, (State.idleRunComplete_keeps p s).carries⟩
  | holdPeriodExpiry p => exact ⟨_, rfl, (State.holdPeriodExpiry_keeps p s).carries⟩
  | babbleQuietExpiry p => exact ⟨_, rfl, (State.babbleQuiet_keeps p s).carries⟩
  | silenceTimeout p => exact ⟨_, rfl, (State.silenceExpiry_keeps p s).carries⟩
  | rateWindowEnd p n => exact ⟨_, rfl, (State.rateWindowEnd_keeps p n s).carries⟩
  | stormWindowEnd p => exact ⟨_, rfl, (State.stormWindowEnd_keeps p s).carries⟩
  | transmitBegin p => exact ⟨_, rfl, (Net.transmitBegin_keeps _ p p.isLt s).carries⟩
  | transmitEnd p => exact ⟨_, rfl, (State.transmitEnd_keeps p p.isLt s).carries⟩
  | nodeTableAging => exact ⟨_, rfl, (Keeps.of_eq (us := []) (s := s) (tbl := false) (t := s.ageNodes) rfl rfl rfl rfl rfl nofun).carries⟩
  | sample p d b f => exact ⟨_, rfl, (State.arrive_keeps p b _ s (State.sampleAtRole_keeps p _ f)).carries⟩
  | status p d b f => exact ⟨_, rfl, (State.arrive_keeps p b _ s (State.statusAtRole_keeps p _ f)).carries⟩
  | setpoint o f => exact ⟨_, rfl, (State.consume_keeps _ _ _ _ s (State.takeSetpoint_keeps f)).carries⟩
  | group o f => exact ⟨_, rfl, (State.consume_keeps _ _ _ _ s (State.takeGroup_keeps o.port f)).carries⟩
  | panelStop o f => exact ⟨_, rfl, (State.consume_keeps _ _ _ _ s (State.panelStop_keeps o.port f.cls)).carries⟩
  | unknownRequest a k l => exact ⟨_, rfl, (State.request_keeps a _ l _ s).carries⟩
  | receiverBlockClaim p b =>
    refine ⟨_, rfl, Keeps.carries ?_⟩
    split
    · rename_i l hl
      refine .ite (fun _ => ?_) fun _ => .refl _ s
      unfold Port.hearing at hl
      split at hl
      · cases hl; exact .completeClaims .line p _ s (.inl rfl)
      split at hl
      · rename_i h
        cases hl; exact .claimLoop p _ s h.2
      · cases hl
    · exact .refl _ s
  | staleTimerExpiry c => exact ⟨_, rfl, (State.staleExpiry_keeps c s).carries⟩
  | moveTimeout n => exact ⟨_, rfl, (State.moveTimeout_keeps (n + 1) s).carries⟩
  | holdTimerExpiry n => exact ⟨_, rfl, (State.holdExpiry_keeps (n + 1) s).carries⟩
  | tripDelayExpiry e => exact ⟨_, rfl, (State.delayExpiry_keeps e s).carries⟩
  | repeatTimerExpiry n => exact ⟨_, rfl, (State.repeatExpiry_keeps (n + 1) s).carries⟩
  | storeSaveComplete v => exact ⟨_, rfl, (State.saveComplete_keeps v s).carries⟩
  | storeEraseComplete => exact ⟨_, rfl, (State.eraseComplete_keeps s).carries⟩
  | storeProtectComplete v => exact ⟨_, rfl, (State.protectComplete_keeps v s).carries⟩
  | powerOn => exact ⟨_, rfl, State.powerOn_carries s⟩
  | powerLoss => exact ⟨_, rfl, State.powerLoss_carries s⟩
  | resetInputAssert => exact ⟨_, rfl, State.resetAssert_carries s⟩
  | resetInputRelease => exact ⟨_, rfl, State.resetRelease_carries s⟩
  | brownOut => exact ⟨_, rfl, State.brownOut_carries s⟩
  | startUpReadComplete =>
    refine ⟨_, rfl, ?_⟩
    unfold State.readComplete
    split
    · exact State.startUp_carries s ‹_›
    · exact .refl s
  | timeBaseTick => exact ⟨_, rfl, State.tick_carries s⟩
  | _ => exact ⟨_, rfl, (State.ask_keeps _ _ s).carries⟩

end Sys2Proof.Machine
end

section
/-! PROOFS. The step (log 1), and the invariants that every step keeps. -/

namespace Sys2Proof.Machine

/-- Settles O1. -/
theorem stepTakesFront : Obligations.StepTakesFront := fun s => by
  constructor
  · intro c rest h; simp only [step, h]
  · intro h; simp only [step, h]

/-- Settles O2: each command's meaning is a total function of the state, and every part of it keeps the queue. -/
theorem everyCommandCompletes : Obligations.EveryCommandCompletes := fun c s =>
  let ⟨t, ht, h⟩ := exec_carries c s
  ⟨t, ht, h.pending⟩

/-- Settles O3: after reset every port is cold, the buffer is empty and the latch clear. -/
theorem resetMeetsInvariant : Obligations.ResetMeetsInvariant :=
  State.invFor_nil_iff.1 (State.stepOne_invFor .reading (by simp) false false _ Store.blank 0 [])

/-- A step carries the invariants over: it runs a command on the state without the front of the queue, or idles. -/
theorem step_carries {s t : State} (h : step s = .next t) : ∃ q, Carries { s with pending := q } t := by
  unfold step at h
  split at h
  · cases h; exact ⟨s.pending, .refl s⟩
  · rename_i c rest _
    obtain ⟨u, hu, hc⟩ := exec_carries c { s with pending := rest }
    rw [hu] at h; cases h
    exact ⟨rest, hc⟩

/-- Settles O4, by the lemma of each operation (`Keeps`) put together command by command. -/
theorem stepKeepsInvariant : Obligations.StepKeepsInvariant := fun s t hs h => by
  obtain ⟨q, hc⟩ := step_carries h
  exact hc.inv ⟨hs.queues, hs.exact, hs.latch, hs.roles, hs.disabled⟩

/-- Settles O27: reset loads the built-in records and erases the store, and `exec_carries` is the step. -/
theorem spanQueuesStayWithinCapacity : Obligations.SpanQueuesStayWithinCapacity := by
  refine ⟨State.stepOne_tracked .reading false false _ Store.blank 0 [] fun c hc => (by cases hc), fun s t hs h => ?_⟩
  obtain ⟨q, hc⟩ := step_carries h
  exact hc.tracked ⟨hs.records, hs.queues, hs.stored, hs.writing⟩

end Sys2Proof.Machine
end

section
/-! PROOFS. Power, reset and the time base (R39, R155, R183 to R186): step 1 of R184, and a millisecond. -/

namespace Sys2Proof.Machine

/-! ### Step 1 of R184 -/

/-- At step 1 every port is cold under some record, with its energy detector as it was. -/
theorem State.stepOne_port (ph : Phase) (r l : Bool) (e : Vector Bool 12) (st : Store) (k : Nat) (q : List Instr) (p : Nat) :
    ∃ x b, (State.stepOne ph r l e st k q).port p = Port.cold x b ∧ (p < 12 → b = getAt e false p) := by
  by_cases hp : p < 12
  · exact ⟨_, _, Net.port_cold builtInPorts.ports e _ rfl hp, fun _ => rfl⟩
  · exact ⟨_, _, Net.port_outside _ hp, fun h => absurd h hp⟩

section
variable (ph : Phase) (r l : Bool) (e : Vector Bool 12) (st : Store) (k : Nat) (q : List Instr)

theorem State.stepOne_channel (c : Nat) : (State.stepOne ph r l e st k q).channel c = Channel.start builtInChannel :=
  getAt_replicate_self _ c

theorem State.stepOne_span (i : Nat) : (State.stepOne ph r l e st k q).span i = Span.start builtInSpan :=
  getAt_replicate_self _ i

theorem State.stepOne_stand (n : Nat) : (State.stepOne ph r l e st k q).stand n = Stand.start builtInStand none := by
  unfold State.stand
  split
  · rfl
  · exact getAt_replicate_self _ _

theorem State.stepOne_node (n : Nat) : (State.stepOne ph r l e st k q).node n = NodeEntry.none := getAt_replicate_self _ n

theorem State.stepOne_entry (i : Nat) : (State.stepOne ph r l e st k q).entry i = ⟨builtInEntry, .idle⟩ :=
  getAt_map_of_default (fun r => (⟨r, .idle⟩ : TripEntry)) emptyTrip.entries builtInEntry _ rfl i |>.trans (by
    rw [show emptyTrip.entries = Vector.replicate 64 builtInEntry from rfl, getAt_replicate_self])

/-- Only LINK is active at step 1 (R155). -/
theorem State.stepOne_level (c : CondId) : (State.stepOne ph r l e st k q).level c = (c.kind == .link) := by
  obtain ⟨x, b, hp, -⟩ := State.stepOne_port ph r l e st k q c.source
  unfold State.level
  cases c.kind <;> simp only [hp, State.stepOne_channel, State.stepOne_stand, State.stepOne_span] <;> rfl

theorem State.stepOne_atStepOne (s : State) (hph : ph ≠ .running)
    (hst : st.ports = s.store.ports ∧ st.channels = s.store.channels ∧ st.stands = s.store.stands ∧ st.trip = s.store.trip) :
    s.AtStepOne (State.stepOne ph r l (s.net.ports.map Port.energy) st k s.pending) where
  time := rfl
  ports p := by
    obtain ⟨x, b, hp, -⟩ := State.stepOne_port ph r l (s.net.ports.map Port.energy) st k s.pending p
    rw [hp]
    exact ⟨rfl, rfl, rfl, rfl, rfl, rfl, rfl, rfl, rfl⟩
  energy p hp := by
    obtain ⟨x, b, hc, hb⟩ := State.stepOne_port ph r l (s.net.ports.map Port.energy) st k s.pending p
    rw [hc, show (Port.cold x b).energy = b from rfl, hb hp]
    exact getAt_map Port.energy s.net.ports _ _ hp
  conditions := State.stepOne_level ph r l _ st k s.pending
  frames := ⟨rfl, rfl⟩
  nodes n := by rw [State.stepOne_node]; exact ⟨rfl, rfl⟩
  channels c := by rw [State.stepOne_channel]; rfl
  spans i := by rw [State.stepOne_span]; exact ⟨rfl, rfl⟩
  stands n := by rw [State.stepOne_stand]; exact ⟨rfl, rfl, rfl, rfl⟩
  entries i := by rw [State.stepOne_entry]
  log := rfl
  sections := hst
  store := ⟨rfl, rfl⟩
  lines := by
    have h : ((State.stepOne ph r l (s.net.ports.map Port.energy) st k s.pending).phase == .running) = false :=
      beq_false_of_ne hph
    unfold State.stopLine State.alertLine
    rw [bne, h]
    exact ⟨rfl, rfl⟩
  pending := rfl

end

theorem State.stepBack_atStepOne (s : State) (r l : Bool) (ph : Phase) (hph : ph ≠ .running) :
    s.AtStepOne (({ s with resetInput := r, supplyLow := l } : State).stepBack ph) :=
  State.stepOne_atStepOne ph r l s.store _ s hph ⟨rfl, rfl, rfl, rfl⟩

/-- Settles O5: each of the commands is a step back (`State.stepBack`), with the inputs it notes and the phase it enters. -/
theorem powerAndResetReachStepOne : Obligations.PowerAndResetReachStepOne := by
  unfold Obligations.PowerAndResetReachStepOne
  intro s
  refine ⟨⟨_, rfl, s.stepBack_atStepOne s.resetInput false _ (by split <;> simp), rfl, rfl, rfl⟩,
    ⟨_, rfl, s.stepBack_atStepOne s.resetInput false .unpowered (by simp), rfl, rfl, rfl⟩,
    fun hp => ⟨⟨_, ?assert, s.stepBack_atStepOne true s.supplyLow .heldInReset (by simp), rfl, rfl, rfl⟩,
      ⟨_, ?brownOut, s.stepBack_atStepOne s.resetInput true .heldInReset (by simp), rfl, rfl, rfl⟩⟩,
    fun hp hl => ⟨_, ?release, s.stepBack_atStepOne false s.supplyLow .reading (by simp), rfl, hl, rfl⟩,
    fun h => ?noRelease, fun h => ⟨?noAssert, ?noBrownOut⟩⟩
  case assert => exact congrArg Host.Outcome.next (if_neg hp)
  case brownOut => exact congrArg Host.Outcome.next (if_neg hp)
  case release => exact congrArg Host.Outcome.next (if_pos ⟨hp, by rw [hl]; rfl⟩)
  case noRelease =>
    refine congrArg Host.Outcome.next (if_neg fun hc => ?_)
    rcases h with h | h
    · exact h hc.1
    · have := hc.2; simp [h] at this
  case noAssert => exact congrArg Host.Outcome.next (if_pos h)
  case noBrownOut => exact congrArg Host.Outcome.next (if_pos h)

/-! ### A millisecond (R185) -/

/-- Settles O8: the time base and each table of `State.tick`, read place by place. -/
theorem tickAdvancesTimers : Obligations.TickAdvancesTimers := by
  unfold Obligations.TickAdvancesTimers
  intro s h
  have htick : exec .timeBaseTick s = .next s.tick := rfl
  have ht : s.tick = { s with
      time := s.time + 1
      net := s.net.mapPorts Port.tick
      channels := s.channels.map fun C => { C with staleTimer := tickTimer C.staleTimer }
      stands := s.stands.map Stand.tick
      trip := { s.trip with entries := s.trip.entries.map TripEntry.tick } } := if_pos h
  rw [htick, ht]
  refine ⟨_, rfl, rfl, fun p => ?port, fun p hp => ?left, fun c => ?channel, fun n => ?stand, fun e => ?entry, rfl⟩
  case port =>
    change (s.net.mapPorts Port.tick).port p = { s.net.port p with
      silenceTimer := (s.net.port p).silenceTimer.map (· - 1)
      rateLeft := ((s.net.mapPorts Port.tick).port p).rateLeft
      stormLeft := ((s.net.mapPorts Port.tick).port p).stormLeft }
    by_cases hp : p < 12
    · rw [Net.mapPorts_port _ _ hp]; rfl
    · rw [Net.port_outside _ hp, Net.port_outside _ hp]; rfl
  case left =>
    change ((s.net.mapPorts Port.tick).port p).rateLeft = _ ∧ ((s.net.mapPorts Port.tick).port p).stormLeft = _
    rw [Net.mapPorts_port _ _ hp]
    exact ⟨rfl, rfl⟩
  case channel =>
    exact getAt_map_of_default (fun C : Channel => { C with staleTimer := tickTimer C.staleTimer }) s.channels
      (Channel.start builtInChannel) (Channel.start builtInChannel) rfl c
  case stand =>
    have hstart : Stand.tick (Stand.start builtInStand none) = Stand.start builtInStand none := rfl
    trans (s.stand n).tick
    · unfold State.stand
      split
      · exact hstart.symm
      · exact getAt_map_of_default Stand.tick s.stands _ _ hstart _
    · unfold Stand.tick
      cases (s.stand n).mode <;> rfl
  case entry =>
    trans (s.entry e).tick
    · exact getAt_map_of_default TripEntry.tick s.trip.entries ⟨builtInEntry, .idle⟩ ⟨builtInEntry, .idle⟩ rfl e
    · unfold TripEntry.tick
      cases (s.entry e).state <;> rfl

end Sys2Proof.Machine
end

section
/-! PROOFS. The trip unit where no stand is in service, the check of the stands, and with them the sections a start-up or a
RESTART loads (R159, R184, R187). -/

namespace Sys2Proof.Machine

variable {s t u : State}

/-! ### What the part's own frames leave of ports and levels -/

/-- What a port keeps beside its queue is unchanged by frames of the part's own making. -/
theorem Net.Quiet.port_eq {n m : Net} {α : Type} (π : Port → α) (hπ : ∀ P, π P.unqueued = π P) (h : n.Quiet m) (p : Nat) :
    π (m.port p) = π (n.port p) := by rw [← hπ (m.port p), h.ports p, hπ]

/-- Levels are read from the ports beside their queues, and from channels, spans and stands (R155). -/
theorem State.level_congr (hp : ∀ p, (t.port p).unqueued = (s.port p).unqueued) (hc : t.channels = s.channels)
    (hs : t.stands = s.stands) (hi : t.spans = s.spans) (c : CondId) : t.level c = s.level c := by
  have hport : ∀ {α : Type} (π : Port → α), (∀ P, π P.unqueued = π P) → ∀ p, π (t.port p) = π (s.port p) := fun π hπ p => by
    rw [← hπ (t.port p), hp p, hπ]
  unfold State.level
  cases c.kind <;> dsimp only
  case link => rw [hport Port.link (fun _ => rfl), hport Port.mode fun _ => rfl]
  case silent => rw [hport Port.silent fun _ => rfl]
  case babble => rw [hport Port.link fun _ => rfl]
  case rate => rw [hport Port.rate fun _ => rfl]
  case storm => rw [hport Port.limiting fun _ => rfl]
  case panel => rw [hport Port.panel fun _ => rfl]
  case trackLimit => simp only [State.span, hi]
  all_goals simp only [State.channel, State.stand, hc, hs]

/-! ### Entries that start (R159) -/

/-- Entries changed one by one, each once. -/
theorem State.foldl_modEntry (f : TripEntry → TripEntry) (l : List Nat) (s : State) (hl : l.Nodup) :
    ∃ v, l.foldl (fun s e => s.modEntry e f) s = { s with trip := { s.trip with entries := v } } ∧
      ∀ e, (l.foldl (fun s e => s.modEntry e f) s).entry e = if e ∈ l ∧ e < 64 then f (s.entry e) else s.entry e := by
  induction l generalizing s with
  | nil => exact ⟨s.trip.entries, rfl, fun e => by simp⟩
  | cons a l ih =>
    obtain ⟨ha, hl⟩ := List.nodup_cons.1 hl
    obtain ⟨v, hv, he⟩ := ih (s.modEntry a f) hl
    refine ⟨v, hv, fun e => ?_⟩
    rw [List.foldl_cons, he, State.entry_modEntry]
    by_cases hea : a = e
    · subst hea
      simp [ha]
    · simp [hea, Ne.symm hea]

/-- The IDLE entries of a list start (R159). -/
def State.startEntries (es : List Nat) (s : State) : State := es.foldl (fun s e => s.modEntry e TripEntry.start) s

/-- The entries of a list that are IDLE. -/
def State.idleOf (s : State) (es : List Nat) : List Nat := es.filter fun e => (s.entry e).state == .idle

/-- The entries of a list that fire at once (R159). -/
def State.firesOf (s : State) (es : List Nat) : List Nat := (s.idleOf es).filter fun e => (s.entry e).record.delay == 0

theorem State.proceed_eq (es : List Nat) (s : State) :
    s.proceed es = (s.firesOf es).foldl (fun s e => s.fireEntry e) (s.startEntries (s.idleOf es)) := rfl

/-! ### Firings while no stand is in service (R160, R163) -/

/-- Every stand is OUT. -/
def State.AllOut (s : State) : Prop := ∀ n, (s.stand n).mode = .out

theorem State.AllOut.of_stands (h : s.AllOut) (ht : t.stands = s.stands) : t.AllOut := fun n => by
  simpa only [State.stand, ht] using h n

theorem State.AllOut.actedBy (h : s.AllOut) (mask : Byte) (cls : Severity) :
    s.newlyBy mask = [] ∧ s.actedBy cls mask = [] := by
  have ht : s.targets mask = [] := List.filter_eq_nil_iff.2 fun n _ => by
    simp [Stand.inService, Stand.isOut, h n]
  simp [State.newlyBy, State.actedBy, ht]

theorem State.AllOut.fireStop (h : s.AllOut) (e : Nat) (cls : Severity) (mask : Byte) (cause : Cause) :
    s.fireStop e cls mask cause = s := by
  obtain ⟨hn, ha⟩ := h.actedBy mask cls
  simp [State.fireStop, State.stopStands, hn, ha, State.spansToFlush]

/-- Nothing of the part's own making stays while no LINE port takes a copy (R59, R61). -/
def Net.Unsent (n m : Net) : Prop := n.upLines none = [] → n.Sound → m.ports = n.ports ∧ m.frames = n.frames

theorem Net.Unsent.refl (n : Net) : n.Unsent n := fun _ _ => ⟨rfl, rfl⟩

theorem Net.upLines_congr {n m : Net} (h : m.ports = n.ports) (but : Option Nat) : m.upLines but = n.upLines but := by
  have hp : ∀ p, m.port p = n.port p := fun p => by simp only [Net.port, h]
  simp only [Net.upLines, hp]

theorem Net.Unsent.trans {n m k : Net} (h : n.Unsent m) (hq : n.Quiet m) (g : m.Unsent k) : n.Unsent k := fun hl hs => by
  obtain ⟨h1, h2⟩ := h hl hs
  obtain ⟨g1, g2⟩ := g ((Net.upLines_congr h1 none).trans hl) (hq.frames hs).1
  exact ⟨g1.trans h1, g2.trans h2⟩

theorem Net.originate_unsent (f : Frame) (n : Net) (hs : n.Sound) :
    (n.originate f []).ports = n.ports ∧ (n.originate f []).frames = n.frames := by
  have hports : (n.originate f []).ports = n.ports := by
    unfold Net.originate Net.build
    split
    · rfl
    · rename_i h
      split at h
      · cases h; rfl
      · cases h
  refine ⟨hports, ?_⟩
  unfold Net.originate Net.build
  by_cases hb : blocksOf f ≤ n.sharedFree
  · have h := (Net.copied_frames f (List.replicate (blocksOf f) .shared) [] n hs).1
    simp only [hb, if_true]
    exact h.trans (List.append_nil _)
  · simp only [hb, if_false]; rfl

theorem State.notice_unsent (k : NoticeKind) (x : Nat) (l : List Byte) (s : State) : s.net.Unsent (s.notice k x l).net :=
  fun hl hs => by
    unfold State.notice
    rw [hl]
    exact Net.originate_unsent _ _ hs

/-- `t` is `s` after log records and notices alone. -/
structure LogFrame (s t : State) : Prop where
  rest : t = { s with net := t.net, trip := { s.trip with
    log := t.trip.log, nextRecord := t.trip.nextRecord, firings := t.trip.firings, evicted := t.trip.evicted } }
  net : s.net.Quiet t.net
  unsent : s.net.Unsent t.net

theorem LogFrame.refl (s : State) : LogFrame s s := ⟨rfl, .refl _, .refl _⟩

theorem LogFrame.trans (h : LogFrame s t) (g : LogFrame t u) : LogFrame s u :=
  ⟨by rw [g.rest, h.rest], h.net.trans g.net, h.unsent.trans h.net g.unsent⟩

theorem LogFrame.entries (h : LogFrame s t) : t.trip.entries = s.trip.entries := by rw [h.rest]

theorem LogFrame.entry (h : LogFrame s t) (e : Nat) : t.entry e = s.entry e := by simp only [State.entry, h.entries]

theorem LogFrame.stands (h : LogFrame s t) : t.stands = s.stands := by rw [h.rest]

theorem State.notice_logFrame (k : NoticeKind) (x : Nat) (l : List Byte) (s : State) : LogFrame s (s.notice k x l) :=
  ⟨rfl, (State.notice_quiet k x l s).net, State.notice_unsent k x l s⟩

theorem State.recordFiring_logFrame (e : Nat) (cause : Cause) (cls : Option Severity) (m : Byte) (first : Bool) (s : State) :
    LogFrame s (s.recordFiring e cause cls m first) :=
  .trans (t := s.logRecord ⟨s.trip.nextRecord, e, cause, cls, m, first, s.time⟩) ⟨rfl, .refl _, .refl _⟩
    (State.notice_logFrame _ _ _ _)

/-- A firing that finds every stand OUT: it is counted, and class NOTE makes its record (R160, R163). -/
theorem State.AllOut.fire (h : s.AllOut) (e : Nat) (cls : Option Severity) (mask : Byte) (cause : Cause) :
    LogFrame s (s.fire e cls mask cause) ∧ (s.fire e cls mask cause).trip.firings = bump s.trip.firings ∧
      (cls ≠ none → (s.fire e cls mask cause).trip.log = s.trip.log ∧
        (s.fire e cls mask cause).trip.nextRecord = s.trip.nextRecord) := by
  have hf : LogFrame s { s with trip := { s.trip with firings := bump s.trip.firings } } := ⟨rfl, .refl _, .refl _⟩
  cases cls with
  | none => exact ⟨hf.trans (State.recordFiring_logFrame _ _ _ _ _ _), rfl, fun h => absurd rfl h⟩
  | some c =>
    have hs := (h.of_stands (t := { s with trip := { s.trip with firings := bump s.trip.firings } }) rfl).fireStop e c mask cause
    have hfire : s.fire e (some c) mask cause = { s with trip := { s.trip with firings := bump s.trip.firings } } := hs
    rw [hfire]
    exact ⟨hf, rfl, fun _ => ⟨rfl, rfl⟩⟩

theorem State.AllOut.fireEntries (h : s.AllOut) (l : List Nat) :
    LogFrame s (l.foldl (fun s e => s.fireEntry e) s) ∧
      (l.foldl (fun s e => s.fireEntry e) s).trip.firings = bump^[l.length] s.trip.firings ∧
      ((∀ e ∈ l, (s.entry e).record.cls ≠ none) → (l.foldl (fun s e => s.fireEntry e) s).trip.log = s.trip.log ∧
        (l.foldl (fun s e => s.fireEntry e) s).trip.nextRecord = s.trip.nextRecord) := by
  induction l generalizing s with
  | nil => exact ⟨.refl s, rfl, fun _ => ⟨rfl, rfl⟩⟩
  | cons a l ih =>
    obtain ⟨hf, hc, hl⟩ := h.fire a (s.entry a).record.cls (s.entry a).record.mask (.cond (s.entry a).record.cond)
    obtain ⟨if_, ic, il⟩ := ih (h.of_stands hf.stands)
    refine ⟨hf.trans if_, ?_, fun hcls => ?_⟩
    · rw [List.foldl_cons, List.length_cons, Function.iterate_succ_apply, ← hc]; exact ic
    · obtain ⟨h1, h2⟩ := hl (hcls a (by simp))
      obtain ⟨g1, g2⟩ := il fun e he => by
        have := hf.entry e
        change ((s.fireEntry a).entry e).record.cls ≠ none
        unfold State.fireEntry
        dsimp only
        rw [this]; exact hcls e (List.mem_cons_of_mem a he)
      exact ⟨g1.trans h1, g2.trans h2⟩

theorem bump_iterate {k n : Nat} (h : n + k ≤ 4294967295) : bump^[k] n = n + k := by
  induction k generalizing n with
  | zero => rfl
  | succ k ih =>
    have hb : bump n = n + 1 := if_pos (by omega)
    rw [Function.iterate_succ_apply, hb, ih (by omega)]
    omega

/-- `t` is `s` after the matrix has come into force over entries that were IDLE, with every stand OUT (R159, R163). -/
structure State.InForce (s t : State) : Prop where
  rest : t = { s with net := t.net, trip := t.trip }
  net : s.net.Quiet t.net
  unsent : s.net.Unsent t.net
  records : ∀ e, (t.entry e).record = (s.entry e).record
  states : ∀ e, e < 64 → (t.entry e).state = s.entryAtStart (s.entry e).record
  settings : t.trip.interval = s.trip.interval ∧ t.trip.protect = s.trip.protect ∧
    t.trip.ordersWritten = s.trip.ordersWritten ∧ t.trip.refusedResets = s.trip.refusedResets
  firings : s.trip.firings = 0 → t.trip.firings = ((List.range 64).filter fun e => (t.entry e).state == .fired).length
  log : (∀ e, e < 64 → (t.entry e).state = .fired → (t.entry e).record.cls ≠ none) →
    t.trip.log = s.trip.log ∧ t.trip.nextRecord = s.trip.nextRecord

theorem State.AllOut.matrixInForce (h : s.AllOut) (hidle : ∀ e, (s.entry e).state = .idle) :
    State.InForce s s.matrixInForce := by
  have hes : s.idleOf ((List.range 64).filter fun e => (s.entry e).record.enabled && s.level (s.entry e).record.cond) =
      (List.range 64).filter fun e => (s.entry e).record.enabled && s.level (s.entry e).record.cond :=
    List.filter_eq_self.2 fun e _ => by simp [hidle e]
  have hmem : ∀ e, e ∈ s.idleOf ((List.range 64).filter fun e =>
      (s.entry e).record.enabled && s.level (s.entry e).record.cond) ↔
      e < 64 ∧ (s.entry e).record.enabled = true ∧ s.level (s.entry e).record.cond = true := fun e => by
    rw [hes]; simp
  unfold State.matrixInForce
  rw [State.proceed_eq]
  obtain ⟨v, hv, he⟩ := State.foldl_modEntry TripEntry.start (s.idleOf ((List.range 64).filter fun e =>
    (s.entry e).record.enabled && s.level (s.entry e).record.cond)) s ((List.nodup_range.filter _).filter _)
  change State.startEntries _ s = _ at hv
  change ∀ e, (State.startEntries _ s).entry e = _ at he
  generalize hw : s.startEntries (s.idleOf _) = w at hv he ⊢
  obtain ⟨hf, hc, hl⟩ := (h.of_stands (t := w) (by rw [hv])).fireEntries (s.firesOf ((List.range 64).filter fun e =>
    (s.entry e).record.enabled && s.level (s.entry e).record.cond))
  generalize List.foldl (fun s e => s.fireEntry e) w _ = t at hf hc hl ⊢
  have hstate : ∀ e, e < 64 → (t.entry e).state = s.entryAtStart (s.entry e).record := fun e he64 => by
    rw [hf.entry, he]
    unfold State.entryAtStart
    by_cases hin : (s.entry e).record.enabled = true ∧ s.level (s.entry e).record.cond = true
    · rw [if_pos ⟨(hmem e).2 ⟨he64, hin⟩, he64⟩, if_pos hin]; rfl
    · rw [if_neg fun hc => hin ((hmem e).1 hc.1).2, if_neg hin]; exact hidle e
  have hfired : ∀ e, e ∈ s.firesOf ((List.range 64).filter fun e =>
      (s.entry e).record.enabled && s.level (s.entry e).record.cond) ↔ e < 64 ∧ (t.entry e).state = .fired := fun e => by
    rw [State.firesOf, List.mem_filter, hmem]
    refine ⟨fun ⟨⟨h64, hin⟩, h0⟩ => ⟨h64, ?_⟩, fun ⟨h64, hs⟩ => ?_⟩
    · rw [hstate e h64, State.entryAtStart, if_pos hin, if_pos (by simpa using h0)]
    · rw [hstate e h64, State.entryAtStart] at hs
      split at hs
      · rename_i hin
        split at hs
        · rename_i h0; exact ⟨⟨h64, hin⟩, by simp [h0]⟩
        · cases hs
      · cases hs
  have hlist : (s.firesOf ((List.range 64).filter fun e =>
      (s.entry e).record.enabled && s.level (s.entry e).record.cond)) =
      (List.range 64).filter fun e => (t.entry e).state == .fired := by
    have hsub : ∀ (p q : Nat → Bool) (l : List Nat), (l.filter p).filter q = l.filter fun e => p e && q e := fun p q l => by
      rw [List.filter_filter]; congr; funext e; exact Bool.and_comm _ _
    unfold State.firesOf State.idleOf
    rw [hsub, hsub]
    refine List.filter_congr fun e he => ?_
    have h1 := hfired e
    unfold State.firesOf State.idleOf at h1
    rw [hsub, hsub, List.mem_filter] at h1
    rw [Bool.eq_iff_iff, beq_iff_eq]
    have h64 := List.mem_range.1 he
    exact ⟨fun hx => (h1.1 ⟨he, hx⟩).2, fun hx => (h1.2 ⟨h64, hx⟩).2⟩
  have hnet : w.net = s.net := by rw [hv]
  refine ⟨?_, hnet ▸ hf.net, hnet ▸ hf.unsent, fun e => ?_, hstate, ?_, fun h0 => ?_, fun hcls => ?_⟩
  · rw [hf.rest, hv]
  · rw [hf.entry, he]; split <;> rfl
  · rw [hf.rest, hv]; exact ⟨rfl, rfl, rfl, rfl⟩
  · rw [hc, ← hlist, hv]
    change bump^[_] s.trip.firings = _
    rw [h0, bump_iterate, Nat.zero_add]
    have := (List.length_filter_le (fun e => (t.entry e).state == .fired) (List.range 64))
    rw [← hlist, List.length_range] at this
    omega
  · obtain ⟨h1, h2⟩ := hl fun e hm => by
      obtain ⟨h64, hs⟩ := (hfired e).1 hm
      have := hcls e h64 hs
      rwa [hf.entry] at this
    rw [h1, h2, hv]; exact ⟨rfl, rfl⟩

theorem State.InForce.level (h : State.InForce s t) (c : CondId) : t.level c = s.level c :=
  State.level_congr h.net.ports (by rw [h.rest]) (by rw [h.rest]) (by rw [h.rest]) c

end Sys2Proof.Machine
end

section
/-! PROOFS. The sections a start-up loads (R51, R64, R85, R108, R159, R175, R184, R187). -/

namespace Sys2Proof.Machine

variable {s t u : State}

/-! ### Outside the numbering -/

theorem State.stand_outside (s : State) {n : Nat} (h : ¬ (1 ≤ n ∧ n ≤ 8)) : s.stand n = Stand.start builtInStand none := by
  unfold State.stand
  split
  · rfl
  · exact getAt_outside _ _ (by omega)

theorem State.entry_outside (s : State) {e : Nat} (h : ¬ e < 64) : s.entry e = ⟨builtInEntry, .idle⟩ := getAt_outside _ _ h

theorem State.channel_outside (s : State) {c : Nat} (h : ¬ c < 32) : s.channel c = Channel.start builtInChannel :=
  getAt_outside _ _ h

theorem State.span_outside (s : State) {i : Nat} (h : ¬ i < 9) : s.span i = Span.start builtInSpan := getAt_outside _ _ h

theorem State.node_outside (s : State) {n : Nat} (h : ¬ n < 256) : s.node n = NodeEntry.none := getAt_outside _ _ h

/-! ### The check of the stands (R184, log 20) -/

/-- What the check of a stand reads. -/
theorem State.standFails_congr (hn : t.nodes = s.nodes) (hown : t.part.own = s.part.own)
    (hst : (getAt t.store.sections ⟨false, false⟩ secStands).stored = (getAt s.store.sections ⟨false, false⟩ secStands).stored)
    (hp : ∀ p, (t.port p).record = (s.port p).record) (hs : ∀ m, t.stand m = s.stand m) (n : Nat) :
    t.standFails n = s.standFails n := by
  have hnode : ∀ m, t.node m = s.node m := fun m => by simp only [State.node, hn]
  simp only [State.standFails, State.standSound, State.standFits, State.standPorts, Port.hasRole, hst, hown, hp, hs, hnode]

/-- One stand is checked. -/
def State.checkStand (s : State) (n : Nat) : State :=
  if s.standFails n then (s.modStand n Stand.unconfigured).setModified secStands else s

/-- The first `k` stands have been checked. -/
@[irreducible] def State.checkedTo (k : Nat) (s : State) : State := ((List.range k).map (· + 1)).foldl State.checkStand s

theorem State.checkStands_eq (s : State) : s.checkStands = s.checkedTo 8 := by unfold State.checkedTo; rfl

theorem State.checkedTo_zero (s : State) : s.checkedTo 0 = s := by unfold State.checkedTo; rfl

theorem State.checkedTo_succ (k : Nat) (s : State) : s.checkedTo (k + 1) = (s.checkedTo k).checkStand (k + 1) := by
  unfold State.checkedTo
  rw [List.range_succ, List.map_append, List.foldl_append]
  rfl

/-- A check changes the stands and the status of STANDS alone. -/
theorem State.checkStand_rest (s : State) (n : Nat) :
    s.checkStand n = { s with stands := (s.checkStand n).stands,
                              store := { s.store with sections := (s.checkStand n).store.sections } } := by
  unfold State.checkStand State.modStand
  split
  · split <;> rfl
  · rfl

theorem State.checkStand_stored (s : State) (n k : Nat) :
    (getAt (s.checkStand n).store.sections ⟨false, false⟩ k).stored = (getAt s.store.sections ⟨false, false⟩ k).stored := by
  unfold State.checkStand
  split
  · unfold State.setModified State.modStand
    split <;>
    · rw [getAt_setAt]
      split
      · rename_i h; rw [h.1]
      · rfl
  · rfl

theorem State.checkStand_modified (s : State) (n k : Nat) :
    (getAt (s.checkStand n).store.sections ⟨false, false⟩ k).modified = true ↔
      (getAt s.store.sections ⟨false, false⟩ k).modified = true ∨ (k = 2 ∧ s.standFails n = true) := by
  unfold State.checkStand
  split
  · rename_i hf
    have hstore : (s.modStand n Stand.unconfigured).store = s.store := by unfold State.modStand; split <;> rfl
    change (getAt (setAt (s.modStand n Stand.unconfigured).store.sections 2 _) _ k).modified = true ↔ _
    rw [getAt_setAt, hstore]
    by_cases h : 2 = k
    · rw [if_pos ⟨h, by decide⟩]; simp [hf, h.symm]
    · rw [if_neg fun hc => h hc.1]; simp [Ne.symm h]
  · rename_i hf
    simp [hf]

theorem State.checkStand_stand (s : State) (n m : Nat) : (s.checkStand n).stand m =
    if n = m ∧ 1 ≤ n ∧ n ≤ 8 ∧ s.standFails n = true then Stand.unconfigured (s.stand m) else s.stand m := by
  unfold State.checkStand
  split
  · rename_i hf
    rw [State.stand_setModified, State.stand_modStand]
    by_cases h : n = m ∧ 1 ≤ n ∧ n ≤ 8
    · rw [if_pos h, if_pos ⟨h.1, h.2.1, h.2.2, hf⟩, h.1]
    · rw [if_neg h, if_neg fun hc => h ⟨hc.1, hc.2.1, hc.2.2.1⟩]
  · rename_i hf
    rw [if_neg fun hc => hf hc.2.2.2]

theorem State.checkedTo_rest (k : Nat) (s : State) :
    s.checkedTo k = { s with stands := (s.checkedTo k).stands,
                             store := { s.store with sections := (s.checkedTo k).store.sections } } := by
  induction k with
  | zero => rw [State.checkedTo_zero]
  | succ k ih => rw [State.checkedTo_succ, State.checkStand_rest, ih]

theorem State.checkedTo_stored (k : Nat) (s : State) (j : Nat) :
    (getAt (s.checkedTo k).store.sections ⟨false, false⟩ j).stored = (getAt s.store.sections ⟨false, false⟩ j).stored := by
  induction k with
  | zero => rw [State.checkedTo_zero]
  | succ k ih => rw [State.checkedTo_succ, State.checkStand_stored, ih]

/-- A stand beyond those checked is as loaded, one of them as its own check left it. -/
theorem State.checkedTo_stand (k : Nat) (s : State) (m : Nat) : (s.checkedTo k).stand m =
    if 1 ≤ m ∧ m ≤ k ∧ m ≤ 8 ∧ (s.checkedTo (m - 1)).standFails m = true then Stand.unconfigured (s.stand m) else s.stand m := by
  induction k with
  | zero => rw [if_neg (by omega), State.checkedTo_zero]
  | succ k ih =>
    rw [State.checkedTo_succ, State.checkStand_stand, ih]
    by_cases hm : k + 1 = m
    · subst hm
      have hk : ¬ (1 ≤ k + 1 ∧ k + 1 ≤ k ∧ k + 1 ≤ 8 ∧ (s.checkedTo (k + 1 - 1)).standFails (k + 1) = true) := by omega
      rw [if_neg hk]
      simp
    · rw [if_neg fun hc => hm hc.1]
      have : m ≤ k ↔ m ≤ k + 1 := by omega
      simp only [this]

theorem State.checkedTo_modified (k : Nat) (s : State) (hk : k ≤ 8) (j : Nat) :
    (getAt (s.checkedTo k).store.sections ⟨false, false⟩ j).modified = true ↔
      (getAt s.store.sections ⟨false, false⟩ j).modified = true ∨
        (j = 2 ∧ ∃ n, 1 ≤ n ∧ n ≤ k ∧ (s.checkedTo (n - 1)).standFails n = true) := by
  induction k with
  | zero =>
    rw [State.checkedTo_zero]
    exact ⟨.inl, fun h => h.elim id fun ⟨_, n, h1, h2, _⟩ => by omega⟩
  | succ k ih =>
    rw [State.checkedTo_succ, State.checkStand_modified, ih (by omega)]
    constructor
    · rintro ((h | ⟨hj, n, h1, h2, h3⟩) | ⟨hj, hf⟩)
      · exact .inl h
      · exact .inr ⟨hj, n, h1, by omega, h3⟩
      · exact .inr ⟨hj, k + 1, by omega, le_refl _, hf⟩
    · rintro (h | ⟨hj, n, h1, h2, h3⟩)
      · exact .inl (.inl h)
      · rcases Nat.lt_or_ge k n with hn | hn
        · obtain rfl : n = k + 1 := by omega
          exact .inr ⟨hj, h3⟩
        · exact .inl (.inr ⟨hj, n, h1, hn, h3⟩)

/-! ### Every block loaded (R184) -/

/-- The blocks as they are before the check of the stands. -/
def State.loadedUnchecked (s : State) : State := s.loadPart.loadUnits.noteSources

theorem State.loadSections_eq_checked (s : State) : s.loadSections = (s.loadedUnchecked.checkedTo 8).loadTrip := by
  rw [State.loadSections_eq, State.checkStands_eq, State.loadedUnchecked]

theorem State.loadTrip_stand (s : State) (n : Nat) : s.loadTrip.stand n = s.stand n := rfl

theorem State.loadTrip_store (s : State) : s.loadTrip.store = s.store := rfl

theorem State.loadTrip_rest (s : State) : s.loadTrip = { s with trip := s.loadTrip.trip } := rfl

theorem State.loadedUnchecked_stand (s : State) (n : Nat) (h1 : 1 ≤ n) (h8 : n ≤ 8) : s.loadedUnchecked.stand n =
    Stand.start (getAt s.store.standsIn.stands builtInStand (n - 1)) (getAt s.store.standsIn.passes none (n - 1)) := by
  have hn : n - 1 < 8 := by omega
  change (if n = 0 then _ else getAt ((s.store.standsIn.stands.zip s.store.standsIn.passes).map fun x => Stand.start x.1 x.2)
    (Stand.start builtInStand none) (n - 1)) = _
  rw [if_neg (by omega), getAt_map (fun x : StandRecord × Option PassRecord => Stand.start x.1 x.2) _ (builtInStand, none) _ hn,
    getAt_zip _ _ builtInStand none _ hn]

/-- The blocks loaded, and afterwards log records, notices and the matrix coming into force alone. -/
theorem State.loadSections_allOut (s : State) : s.loadSections.AllOut := fun n => by
  have hout : ∀ m, (s.loadedUnchecked.stand m).mode = .out := fun m => by
    by_cases h : 1 ≤ m ∧ m ≤ 8
    · rw [State.loadedUnchecked_stand s m h.1 h.2]; rfl
    · rw [State.stand_outside _ h]; rfl
  rw [State.loadSections_eq_checked, State.loadTrip_stand, State.checkedTo_stand]
  split
  · rfl
  · exact hout n

theorem State.loadTrip_entry (s : State) (e : Nat) (he : e < 64) : s.loadTrip.entry e =
    ⟨getAt ((s.store.trip.read TripSection.bytes).getD s.minimalMatrix).entries builtInEntry e, .idle⟩ :=
  getAt_map (fun r => (⟨r, .idle⟩ : TripEntry)) _ builtInEntry _ he

theorem State.loadTrip_idle (s : State) (e : Nat) : (s.loadTrip.entry e).state = .idle := by
  by_cases he : e < 64
  · rw [State.loadTrip_entry s e he]
  · rw [State.entry_outside _ he]

theorem State.loadSections_rest (s : State) : s.loadSections = { s.loadedUnchecked with
    stands := s.loadSections.stands, trip := s.loadSections.trip,
    store := { s.loadedUnchecked.store with sections := s.loadSections.store.sections } } := by
  rw [State.loadSections_eq_checked, State.loadTrip_rest, State.checkedTo_rest]

/-- A later state that differs from the loaded one in its link side, trip unit and phase alone. -/
def State.SameUnits (s t : State) : Prop := t = { s with net := t.net, trip := t.trip, phase := t.phase }

theorem State.SameUnits.trans (h : s.SameUnits t) (g : t.SameUnits u) : s.SameUnits u := by
  unfold State.SameUnits at *
  rw [g, h]

theorem State.SameUnits.stand (h : s.SameUnits t) (n : Nat) : t.stand n = s.stand n := by rw [h]; rfl

theorem State.SameUnits.loaded_stand (h : s.loadSections.SameUnits t) (n : Nat) :
    t.stand n = (s.loadedUnchecked.checkedTo 8).stand n := by
  rw [h.stand, State.loadSections_eq_checked, State.loadTrip_stand]

theorem State.SameUnits.store (h : s.loadSections.SameUnits t) : t.store = (s.loadedUnchecked.checkedTo 8).store := by
  rw [← State.loadTrip_store (s.loadedUnchecked.checkedTo 8), ← State.loadSections_eq_checked, h]

/-- The check of stand `n` reads the same of the loaded part as it did at its turn. -/
theorem State.SameUnits.standFails (h : s.loadSections.SameUnits t) (hp : ∀ p, (t.port p).record = (s.port p).record)
    (n : Nat) (h1 : 1 ≤ n) (h8 : n ≤ 8) :
    (t.checking s.store.standsIn n).standFails n = (s.loadedUnchecked.checkedTo (n - 1)).standFails n := by
  have hrest := State.checkedTo_rest (n - 1) s.loadedUnchecked
  have hl : ∀ {α : Type} (π : State → α), (∀ (u : State) a b c d e, π { u with net := a, trip := b, phase := c, stands := d, store := e } = π u) →
      π t = π s.loadedUnchecked := fun π hπ => by
    rw [h, State.loadSections_rest]; exact hπ s.loadedUnchecked _ _ _ _ _
  refine State.standFails_congr ?_ ?_ ?_ (fun p => ?_) (fun m => ?_) n
  · rw [hrest]; exact hl State.nodes fun _ _ _ _ _ _ => rfl
  · rw [hrest]; exact hl (fun u => u.part.own) fun _ _ _ _ _ _ => rfl
  · rw [State.checkedTo_stored]
    change (getAt t.store.sections _ _).stored = _
    rw [h.store, State.checkedTo_stored]
  · rw [hrest]; exact hp p
  · by_cases hm : 1 ≤ m ∧ m ≤ 8
    · have hm' : m - 1 < 8 := by omega
      have hidx : m - 1 + 1 = m := by omega
      trans if m < n then t.stand m else
        Stand.start (getAt s.store.standsIn.stands builtInStand (m - 1)) (getAt s.store.standsIn.passes none (m - 1))
      · unfold State.stand State.checking
        rw [if_neg (by omega), getAt_ofFn _ _ hm']
        dsimp only
        rw [hidx]
        split
        · rw [State.stand, if_neg (by omega)]
        · rfl
      · rw [State.checkedTo_stand, h.loaded_stand, State.checkedTo_stand, State.loadedUnchecked_stand s m hm.1 hm.2]
        by_cases hmn : m < n
        · have h1 : m ≤ n - 1 := by omega
          simp only [hmn, if_true, hm.1, hm.2, h1, true_and]
        · have h1 : ¬ m ≤ n - 1 := by omega
          simp only [hmn, if_false, h1, false_and, and_false]
    · rw [State.stand_outside _ hm, State.stand_outside _ hm]

theorem State.SameUnits.standLoaded (h : s.loadSections.SameUnits t) (hp : ∀ p, (t.port p).record = (s.port p).record)
    (n : Nat) (h1 : 1 ≤ n) (h8 : n ≤ 8) : t.StandLoaded s.store.standsIn n := by
  refine ⟨_, _, rfl, rfl, ?_⟩
  rw [h.standFails hp n h1 h8, h.loaded_stand, State.checkedTo_stand, State.loadedUnchecked_stand s n h1 h8]
  by_cases hf : (s.loadedUnchecked.checkedTo (n - 1)).standFails n = true
  · rw [if_pos ⟨h1, h8, h8, hf⟩, if_pos hf]; rfl
  · rw [if_neg fun hc => hf hc.2.2.2, if_neg hf]

theorem State.loadedUnchecked_trip (s : State) :
    s.loadSections.store.trip = s.store.trip ∧ s.loadSections.store.ports = s.store.ports ∧
      s.loadSections.store.channels = s.store.channels ∧ s.loadSections.store.stands = s.store.stands := by
  rw [State.loadSections_rest]
  exact ⟨rfl, rfl, rfl, rfl⟩

/-- The trip unit as its section, or the minimal matrix, starts it. -/
theorem State.loadSections_trip (s : State) : ∃ c, s.loadSections.trip = TripUnit.start c ∧
    ∀ d, s.store.trip.read TripSection.bytes = some d → c = d := by
  rw [State.loadSections_eq_checked]
  refine ⟨_, rfl, fun d hd => ?_⟩
  have hstore : (s.loadedUnchecked.checkedTo 8).store.trip = s.store.trip := by rw [State.checkedTo_rest]; rfl
  rw [hstore, hd]
  rfl

/-- Loaded sections, notices, and the matrix coming into force: every block is as its section has it. -/
theorem State.loadedFrom {w x : State} (hq : QuietFrame s.loadSections w) (hx : State.InForce w x)
    (ht : t = { x with phase := t.phase, net := t.net }) (hrec : ∀ p, (t.port p).record = (s.port p).record)
    (hlevel : ∀ c, t.level c = x.level c)
    (hports : ∀ p, p < 12 → (s.port p).record = getAt s.store.portsIn.ports (builtInPort .disabled) p) : s.LoadedFrom t := by
  have hsame : s.loadSections.SameUnits t := by
    have h1 : s.loadSections.SameUnits w := by have := hq.rest; rw [State.SameUnits, this]
    have h2 : w.SameUnits x := by have := hx.rest; rw [State.SameUnits, this]
    have h3 : x.SameUnits t := by rw [State.SameUnits, ht]
    exact (h1.trans h2).trans h3
  have hunit : ∀ {α : Type} (π : State → α), (∀ (u : State) a b c d e, π { u with net := a, trip := b, phase := c, stands := d, store := e } = π u) →
      π t = π s.loadedUnchecked := fun π hπ => by
    rw [hsame, State.loadSections_rest]; exact hπ s.loadedUnchecked _ _ _ _ _
  have hpart : t.part = s.store.portsIn.part := hunit State.part fun _ _ _ _ _ _ => rfl
  have hnodes : ∀ n, n < 256 → t.node n = match staticPort s.store.portsIn.part.bindings n with
      | some p => ⟨.static p, none⟩
      | none => ⟨.empty, none⟩ := fun n hn => by
    rw [hunit (fun u => u.node n) fun _ _ _ _ _ _ => rfl]
    exact getAt_ofFn _ _ hn
  have htrip : t.trip = x.trip := by rw [ht]
  have hwtrip : w.trip = s.loadSections.trip := by rw [hq.rest]
  have hwentry : ∀ e, w.entry e = s.loadSections.entry e := fun e => by simp only [State.entry, hwtrip]
  have htentry : ∀ e, t.entry e = x.entry e := fun e => by simp only [State.entry, htrip]
  have hstore : t.store = s.loadSections.store := by rw [hsame]
  obtain ⟨s1, s2, s3, s4⟩ := s.loadedUnchecked_trip
  obtain ⟨c, hc, hread⟩ := s.loadSections_trip
  obtain ⟨i1, i2, i3, i4⟩ := hx.settings
  have hsections : ∀ k, getAt t.store.sections ⟨false, false⟩ k =
      getAt (s.loadedUnchecked.checkedTo 8).store.sections ⟨false, false⟩ k := fun k => by rw [hsame.store]
  refine
    { part := hpart
      ports := fun p hp => (hrec p).trans (hports p hp)
      listed := fun n p hn hs => ?_
      unlisted := fun n hs => ?_
      channels := fun c hc => ?_
      spans := fun i hi => ?_
      stands := fun n h1 h8 => hsame.standLoaded hrec n h1 h8
      group := hunit State.group fun _ _ _ _ _ _ => rfl
      matrix := fun d hd => ?_
      entries := fun e he => ?_
      log := fun h => ?_
      firings := ?_
      counts := ?_
      sections := by rw [hstore]; exact ⟨s2, s3, s4, s1⟩
      sources := fun k hk => ?_
      modified := fun k hk => ?_ }
  · rw [hpart] at hs
    rw [hnodes n hn, hs]
  · rw [hpart] at hs
    by_cases hn : n < 256
    · rw [hnodes n hn, hs]
    · exact State.node_outside _ hn
  · rw [hunit (fun u => u.channel c) fun _ _ _ _ _ _ => rfl]
    exact getAt_map Channel.start _ _ _ hc
  · rw [hunit (fun u => u.span i) fun _ _ _ _ _ _ => rfl]
    exact getAt_map Span.start _ _ _ hi
  · rw [htrip, i1, i2, hwtrip, hc, ← hread d hd]
    refine ⟨rfl, rfl, fun e he => ?_⟩
    rw [htentry, hx.records, hwentry, State.entry, hc]
    change TripEntry.record (getAt (c.entries.map fun r => ⟨r, .idle⟩) _ e) = _
    rw [getAt_map (fun r => (⟨r, .idle⟩ : TripEntry)) _ builtInEntry _ he]
  · rw [htentry, hx.states e he, hx.records]
    simp only [State.entryAtStart, hlevel, hx.level]
  · have := hx.log fun e he hs => by
      rw [← htentry]; exact h e he (by rw [htentry]; exact hs)
    rw [htrip, this.1, this.2, hwtrip, hc]
    exact ⟨rfl, rfl⟩
  · rw [htrip, hx.firings (by rw [hwtrip, hc]; rfl)]
    simp only [htentry]
  · rw [htrip, i3, i4, hwtrip, hc]; exact ⟨rfl, rfl⟩
  · rw [hsections, State.checkedTo_stored]
    obtain _ | _ | _ | _ | k := k
    · rfl
    · rfl
    · rfl
    · rfl
    · omega
  · rw [hsections, State.checkedTo_modified 8 _ (le_refl 8)]
    have hclear : (getAt s.loadedUnchecked.store.sections ⟨false, false⟩ k).modified = false := by
      obtain _ | _ | _ | _ | k := k
      · rfl
      · rfl
      · rfl
      · rfl
      · omega
    rw [hclear]
    constructor
    · rintro (h | ⟨hj, n, h1, h8, hf⟩)
      · cases h
      · exact ⟨hj, n, h1, h8, by rw [hsame.standFails hrec n h1 h8]; exact hf⟩
    · rintro ⟨hj, n, h1, h8, hf⟩
      exact .inr ⟨hj, n, h1, h8, by rw [← hsame.standFails hrec n h1 h8]; exact hf⟩

end Sys2Proof.Machine
end

section
/-! PROOFS. Start-up (R39, R51, R64, R85, R108, R159, R168, R175, R184, R187). -/

namespace Sys2Proof.Machine

variable {s t u : State}

/-- A cold port that has taken its role (R39). -/
theorem Port.takeRole_cold (r : PortRecord) (e : Bool) : (Port.cold r e).takeRole =
    { Port.cold r e with
      link := if r.role = .disabled then .disabled else if e then .sync else .down
      silenceTimer := if r.role = .disabled then none else some r.silenceTime } := by
  unfold Port.takeRole
  by_cases h : r.role = .disabled
  · rw [if_pos (show (Port.cold r e).record.role = .disabled from h), if_pos h, if_pos h]; rfl
  · rw [if_neg (show ¬ (Port.cold r e).record.role = .disabled from h), if_neg h, if_neg h]
    cases e <;> rfl

theorem State.coldPorts_unsent (s : State) : s.coldPorts.net.upLines none = [] :=
  List.filter_eq_nil_iff.2 fun p _ => by simp [Port.forwards, s.coldPorts_disabled p]

theorem Net.sound_of_no_frames {n : Net} (h : n.frames = []) : n.Sound := ⟨by simp [h], by simp [h], by simp [h]⟩

/-- The part before its ports take their roles. -/
theorem State.startUp_inForce (s : State) : State.InForce s.coldPorts.loadSections s.coldPorts.loadSections.matrixInForce ∧
    s.coldPorts.loadSections.matrixInForce.net.ports = s.coldPorts.net.ports ∧
    s.coldPorts.loadSections.matrixInForce.net.frames = [] := by
  have hx := (State.loadSections_allOut s.coldPorts).matrixInForce fun e => by
    rw [State.loadSections_eq_checked]; exact State.loadTrip_idle _ e
  have hnet := State.loadSections_net s.coldPorts
  have h := hx.unsent
  rw [hnet] at h
  obtain ⟨h1, h2⟩ := h s.coldPorts_unsent (Net.sound_of_no_frames rfl)
  exact ⟨hx, h1, h2⟩

theorem State.startUp_port (s : State) (p : Nat) (hp : p < 12) : s.startUp.port p =
    (Port.cold (getAt s.store.portsIn.ports (builtInPort .disabled) p) (s.port p).energy).takeRole := by
  obtain ⟨-, hports, -⟩ := s.startUp_inForce
  rw [State.startUp_eq]
  change (Net.mapPorts Port.takeRole s.coldPorts.loadSections.matrixInForce.net).port p = _
  rw [Net.mapPorts_port _ _ hp, Net.port, hports]
  have := s.coldPorts_port hp
  rw [Net.port] at this
  rw [this, getAt_map Port.energy s.net.ports (Port.cold (builtInPort .disabled) false) false hp]
  rfl

/-- Of a port that only took its role, no condition has changed its level. -/
theorem State.startUp_level (s : State) (c : CondId) : s.startUp.level c = s.coldPorts.loadSections.matrixInForce.level c := by
  obtain ⟨-, hports, -⟩ := s.startUp_inForce
  rw [State.startUp_eq]
  generalize s.coldPorts.loadSections.matrixInForce = x at hports ⊢
  have hport : ∀ p, ∃ r e, x.port p = Port.cold r e ∧
      (x.takeRoles.port p = Port.cold r e ∨ x.takeRoles.port p = (Port.cold r e).takeRole) := fun p => by
    by_cases hp : p < 12
    · have hx : x.port p = s.coldPorts.net.port p := by rw [State.port, Net.port, hports]; rfl
      rw [s.coldPorts_port hp] at hx
      refine ⟨_, _, hx, .inr ?_⟩
      change (x.net.mapPorts Port.takeRole).port p = _
      rw [Net.mapPorts_port _ _ hp, ← hx]
      rfl
    · exact ⟨_, _, x.port_outside hp, .inl (State.port_outside _ hp)⟩
  obtain ⟨r, e, h1, h2⟩ := hport c.source
  have hlink : (if r.role = .disabled then LinkState.disabled else if e then .sync else .down) ≠ .up ∧
      (if r.role = .disabled then LinkState.disabled else if e then .sync else .down) ≠ .babble := by
    split
    · simp
    · split <;> simp
  rw [Port.takeRole_cold] at h2
  generalize (if r.role = .disabled then LinkState.disabled else if e then .sync else .down) = l at hlink h2
  have hup : (l != .up) = true := bne_iff_ne.2 hlink.1
  have hbabble : (l == .babble) = false := beq_false_of_ne hlink.2
  unfold State.level
  cases c.kind
  case link =>
    rcases h2 with h2 | h2
    · rw [h1, h2]
    · simp only [h1, h2, hup]; rfl
  case babble =>
    rcases h2 with h2 | h2
    · rw [h1, h2]
    · simp only [h1, h2, hbabble]; rfl
  case silent | rate | storm | panel => all_goals (rcases h2 with h2 | h2 <;> simp only [h1, h2])
  all_goals rfl

theorem State.startUp_record (s : State) (p : Nat) : (s.startUp.port p).record = (s.coldPorts.port p).record := by
  by_cases hp : p < 12
  · have hc : s.coldPorts.port p = _ := s.coldPorts_port hp
    rw [State.startUp_port s p hp, Port.takeRole_cold, hc]
    rfl
  · rw [State.port_outside _ hp, State.port_outside _ hp]

theorem State.startUp_loadedFrom (s : State) : s.LoadedFrom s.startUp := by
  obtain ⟨hx, hports, -⟩ := s.startUp_inForce
  have h := State.loadedFrom (s := s.coldPorts) (t := s.startUp) (.refl _) hx (by rw [State.startUp_eq]; rfl)
    s.startUp_record s.startUp_level fun p hp => by rw [State.port, s.coldPorts_port hp]; rfl
  exact ⟨h.part, h.ports, h.listed, h.unlisted, h.channels, h.spans, h.stands, h.group, h.matrix, h.entries, h.log, h.firings,
    h.counts, h.sections, h.sources, h.modified⟩

theorem State.startUp_next (s : State) (h : s.phase = .reading) : exec .startUpReadComplete s = .next s.startUp :=
  congrArg Host.Outcome.next (if_pos h)

/-- What a start-up leaves as it was. -/
theorem State.startUp_kept (s : State) : s.startUp.phase = .running ∧ s.startUp.time = s.time ∧
    s.startUp.pending = s.pending ∧ s.startUp.resetInput = s.resetInput ∧ s.startUp.supplyLow = s.supplyLow ∧
    s.startUp.store.op = s.store.op ∧ s.startUp.store.latch = s.store.latch := by
  obtain ⟨hx, -⟩ := s.startUp_inForce
  rw [State.startUp_eq]
  have hl := State.loadSections_rest s.coldPorts
  generalize s.coldPorts.loadSections = v at hx hl
  rw [hx.rest, hl]
  exact ⟨rfl, rfl, rfl, rfl, rfl, rfl, rfl⟩

/-- Settles O6: the link side is cold until the roles are taken, and `State.loadedFrom` gives the other blocks. -/
theorem startUpLoadsSections : Obligations.StartUpLoadsSections := by
  unfold Obligations.StartUpLoadsSections
  intro s hs
  obtain ⟨h1, h2, h3, h4, h5, h6, h7⟩ := s.startUp_kept
  obtain ⟨-, -, hframes⟩ := s.startUp_inForce
  refine ⟨s.startUp, s.startUp_next hs, h1, h2, h3, h4, h5, h6, h7, s.startUp_loadedFrom, ?_, fun p hp => ⟨_, rfl, ?_⟩⟩
  · rw [State.startUp_eq]; exact hframes
  · rw [State.startUp_port s p hp, Port.takeRole_cold]
    exact ⟨rfl, rfl, rfl, rfl, rfl, rfl, rfl, rfl, rfl, rfl, rfl, rfl, rfl, rfl, rfl, rfl, rfl, rfl, rfl, rfl⟩

end Sys2Proof.Machine
end

section
/-! PROOFS. The built-in content and the minimal matrix (R179, R187). -/

namespace Sys2Proof.Machine

variable {s t u : State}

/-! ### Masks of stands (R13) -/

theorem inMask_maskOf (k n : Nat) (h1 : 1 ≤ n) (h8 : n ≤ 8) : inMask (maskOf k) n = decide (k = n) := by
  unfold inMask maskOf
  have hn : (n != 0) = true := bne_iff_ne.2 (by omega)
  rw [hn, Bool.true_and]
  by_cases hk : k = 0
  · rw [if_pos hk]
    simp [hk, show ¬ 0 = n by omega]
  · rw [if_neg hk, BitVec.getLsbD_ofNat, Nat.testBit_two_pow]
    have : (k - 1 = n - 1) ↔ k = n := by omega
    simp [this, show n - 1 < 8 by omega]

theorem inMask_or (a b : Byte) (n : Nat) : inMask (a ||| b) n = (inMask a n || inMask b n) := by
  unfold inMask
  rw [BitVec.getLsbD_or, Bool.and_or_distrib_left]

/-- The mask of a list of stands names its stands (R13). -/
theorem inMask_maskOfList (l : List Nat) (n : Nat) (h1 : 1 ≤ n) (h8 : n ≤ 8) : inMask (maskOfList l) n = true ↔ n ∈ l := by
  have h : ∀ (l : List Nat) (m : Byte), inMask (l.foldl (fun m n => m ||| maskOf n) m) n = true ↔ inMask m n = true ∨ n ∈ l :=
    fun l => by
      induction l with
      | nil => intro m; simp
      | cons k l ih =>
        intro m
        rw [List.foldl_cons, ih, inMask_or, inMask_maskOf k n h1 h8, Bool.or_eq_true, decide_eq_true_eq, List.mem_cons,
          or_assoc, eq_comm (a := k)]
  refine (h l 0#8).trans (or_iff_right ?_)
  simp [inMask]

/-! ### The minimal matrix (R187) -/

theorem State.minimalEntry_congr (hp : ∀ p, (t.port p).record = (s.port p).record) (hs : ∀ n, t.stand n = s.stand n) (e : Nat) :
    t.minimalEntry e = s.minimalEntry e := by
  have hrole : (t.port e).hasRole .panel = (s.port e).hasRole .panel := by simp only [Port.hasRole, hp]
  have hstands : t.standsOn (e - 12) = s.standsOn (e - 12) := by simp only [State.standsOn, hs]
  unfold State.minimalEntry
  rw [hrole, hstands]

theorem State.mem_standsOn (s : State) (p n : Nat) :
    n ∈ s.standsOn p ↔ 1 ≤ n ∧ n ≤ 8 ∧ (s.stand n).record.configured = true ∧ (s.stand n).record.port = p := by
  simp [State.standsOn, List.mem_filter, standNumbers_valid, and_assoc]

theorem State.minimalEntry_panel (s : State) {e : Nat} (he : e < 12) (hr : (s.port e).record.role = .panel) :
    s.minimalEntry e = ⟨true, ⟨.panel, e⟩, 0, some .fast, 0xFF#8⟩ := if_pos ⟨he, beq_iff_eq.2 hr⟩

theorem State.minimalEntry_link (s : State) {p : Nat} (hp : p < 12) (h : s.standsOn p ≠ []) :
    s.minimalEntry (12 + p) = ⟨true, ⟨.link, p⟩, 0, some .fast, maskOfList (s.standsOn p)⟩ := by
  have hsub : 12 + p - 12 = p := by omega
  unfold State.minimalEntry
  rw [if_neg fun h => absurd h.1 (by omega), hsub, if_pos ⟨by omega, by omega, h⟩]

theorem State.minimalEntry_other (s : State) {e : Nat} (h1 : e < 12 → (s.port e).record.role ≠ .panel)
    (h2 : ∀ p, e = 12 + p → p < 12 → s.standsOn p = []) : s.minimalEntry e = builtInEntry := by
  unfold State.minimalEntry
  rw [if_neg fun h => h1 h.1 (beq_iff_eq.1 h.2), if_neg fun h => h.2.2 (h2 (e - 12) (by omega) (by omega))]

/-- Without a valid TRIP section the minimal matrix of the loaded part starts. -/
theorem State.loadSections_minimal (s : State) (h : s.store.trip.read TripSection.bytes = none) :
    s.loadSections.trip = TripUnit.start (s.loadedUnchecked.checkedTo 8).minimalMatrix := by
  rw [State.loadSections_eq_checked]
  have hstore : (s.loadedUnchecked.checkedTo 8).store.trip = s.store.trip := by rw [State.checkedTo_rest]; rfl
  change TripUnit.start (((s.loadedUnchecked.checkedTo 8).store.trip.read TripSection.bytes).getD _) = _
  rw [hstore, h]
  rfl

theorem State.startUp_minimal (s : State) (h : s.store.trip.read TripSection.bytes = none) :
    s.startUp.trip.interval = 10 ∧ s.startUp.trip.protect = false ∧
      ∀ e, e < 64 → (s.startUp.entry e).record = s.startUp.minimalEntry e := by
  obtain ⟨hx, hports, -⟩ := s.startUp_inForce
  have htrip : s.startUp.trip = s.coldPorts.loadSections.matrixInForce.trip := by rw [State.startUp_eq]; rfl
  have hmin := State.loadSections_minimal s.coldPorts h
  obtain ⟨i1, i2, -⟩ := hx.settings
  refine ⟨by rw [htrip, i1, hmin]; rfl, by rw [htrip, i2, hmin]; rfl, fun e he => ?_⟩
  have hstand : ∀ n, s.startUp.stand n = (s.coldPorts.loadedUnchecked.checkedTo 8).stand n := fun n => by
    have h1 : s.startUp.stand n = s.coldPorts.loadSections.matrixInForce.stand n := by rw [State.startUp_eq]; rfl
    have h2 : s.coldPorts.loadSections.matrixInForce.stand n = s.coldPorts.loadSections.stand n := by
      simp only [State.stand]; rw [hx.rest]
    rw [h1, h2, State.loadSections_eq_checked, State.loadTrip_stand]
  have hport : ∀ p, (s.startUp.port p).record = ((s.coldPorts.loadedUnchecked.checkedTo 8).port p).record := fun p => by
    rw [State.startUp_record, State.checkedTo_rest]
    rfl
  rw [State.minimalEntry_congr hport hstand]
  have hentry : s.startUp.entry e = s.coldPorts.loadSections.matrixInForce.entry e := by rw [State.entry, htrip]; rfl
  rw [hentry, hx.records, State.entry, hmin]
  change TripEntry.record (getAt (Vector.map (fun r => (⟨r, .idle⟩ : TripEntry)) (Vector.ofFn fun e : Fin 64 => _)) _ e) = _
  rw [getAt_map (fun r => (⟨r, .idle⟩ : TripEntry)) _ builtInEntry _ he, getAt_ofFn _ _ he]

/-- Settles O7: what each section loads when it is not valid; a matrix entry by the case it falls under. -/
theorem builtInContentGuardsPanelsAndCables : Obligations.BuiltInContentGuardsPanelsAndCables := by
  unfold Obligations.BuiltInContentGuardsPanelsAndCables
  refine ⟨fun c code => ?valid, fun s hs => ⟨s.startUp, s.startUp_next hs, fun h => ?ports, fun h c => ?channels, fun h => ?stands,
    fun h => ?trip⟩⟩
  case valid =>
    change (if checkCode c.bytes = code then some c else none) = none ↔ _
    simp
  all_goals have hl := s.startUp_loadedFrom
  case ports =>
    have hin : s.store.portsIn = builtInPorts := by rw [Store.portsIn, h]; rfl
    have hpart : s.startUp.part = ⟨254, 60, []⟩ := by rw [hl.part, hin]; rfl
    refine ⟨hpart, fun n => hl.unlisted n (by rw [hpart]; rfl), fun p hp => ?_⟩
    rw [hl.ports p hp, hin]
    interval_cases p <;> rfl
  case channels =>
    by_cases hc : c < 32
    · rw [hl.channels c hc, Store.channelsIn, h]
      change (getAt (Vector.replicate 32 builtInChannel) builtInChannel c).enabled = false
      rw [getAt_replicate_self]; rfl
    · rw [State.channel_outside _ hc]; rfl
  case stands =>
    have hin : s.store.standsIn = builtInStands := by rw [Store.standsIn, h]; rfl
    refine ⟨fun n => ?_, fun i => ?_⟩
    · by_cases hn : 1 ≤ n ∧ n ≤ 8
      · obtain ⟨r, x, hr, hx, hst⟩ := hl.stands n hn.1 hn.2
        have hr : r = builtInStand := by rw [hr, hin]; exact getAt_replicate_self _ _
        have hx : x = none := by rw [hx, hin]; exact getAt_replicate_self _ _
        rw [hst, hr, hx]
        split <;> exact ⟨rfl, rfl, rfl⟩
      · rw [State.stand_outside _ hn]; exact ⟨rfl, rfl, rfl⟩
    · by_cases hi : i < 9
      · rw [hl.spans i hi, hin]
        change (getAt (Vector.replicate 9 builtInSpan) builtInSpan i).enabled = false
        rw [getAt_replicate_self]; rfl
      · rw [State.span_outside _ hi]; rfl
  case trip =>
    obtain ⟨h1, h2, h3⟩ := s.startUp_minimal h
    refine ⟨h1, h2, fun e he => ⟨fun he12 hr => ?_, fun p hep hp hex => ?_, fun hr hst => ?_⟩⟩
    · rw [h3 e he, State.minimalEntry_panel _ he12 hr]
    · obtain ⟨n, hn⟩ := hex
      refine ⟨maskOfList (s.startUp.standsOn p), ?_, fun m hm1 hm8 => ?_⟩
      · rw [h3 e he, hep]
        exact State.minimalEntry_link _ hp (List.ne_nil_of_mem ((State.mem_standsOn _ p n).2 hn))
      · rw [inMask_maskOfList _ m hm1 hm8, State.mem_standsOn]
        exact ⟨fun h => h.2.2, fun h => ⟨hm1, hm8, h⟩⟩
    · rw [h3 e he, State.minimalEntry_other _ hr fun p hep hp => List.eq_nil_iff_forall_not_mem.2 fun n hn => ?_]
      · rfl
      · obtain ⟨n1, n8, hc, hport⟩ := (State.mem_standsOn _ p n).1 hn
        exact hst p n hep hp n1 n8 hc hport

end Sys2Proof.Machine
end

section
/-! PROOFS. Link state, monitors and transmitter (R20 to R29, R32, R34, R38, R43, R46 to R50). -/

namespace Sys2Proof.Machine

variable {s t u : State}

/-! ### One port changed -/

theorem Net.modPort_congr {n : Net} {p : Nat} {f g : Port → Port} (h : f (n.port p) = g (n.port p)) :
    n.modPort p f = n.modPort p g := by
  unfold Net.modPort
  rw [h]

theorem State.modPort_congr {p : Nat} {f g : Port → Port} (h : f (s.port p) = g (s.port p)) : s.modPort p f = s.modPort p g := by
  unfold State.modPort
  rw [Net.modPort_congr h]

theorem Net.modPort_self {n : Net} {p : Nat} {f : Port → Port} (h : f (n.port p) = n.port p) : n.modPort p f = n := by
  unfold Net.modPort
  rw [h, Net.port, setAt_getAt]

theorem State.modPort_self {p : Nat} {f : Port → Port} (h : f (s.port p) = s.port p) : s.modPort p f = s := by
  unfold State.modPort
  rw [Net.modPort_self h]

theorem setAt_setAt {α : Type} {n : Nat} (v : Vector α n) (i : Nat) (x y : α) : setAt (setAt v i x) i y = setAt v i y := by
  unfold setAt
  ext j hj
  by_cases h : i = j <;> simp [h]

theorem Net.modPort_modPort (n : Net) (p : Nat) (f g : Port → Port) :
    (n.modPort p f).modPort p g = n.modPort p fun P => g (f P) := by
  by_cases hp : p < 12
  · have h : (n.modPort p f).port p = f (n.port p) := by rw [Net.port_modPort, if_pos ⟨rfl, hp⟩]
    unfold Net.modPort at h ⊢
    rw [h]
    exact congrArg (fun v => { n with ports := v }) (setAt_setAt _ _ _ _)
  · rw [Net.modPort_outside _ _ _ hp, Net.modPort_outside _ _ _ hp, Net.modPort_outside _ _ _ hp]

theorem State.modPort_modPort (s : State) (p : Nat) (f g : Port → Port) :
    (s.modPort p f).modPort p g = s.modPort p fun P => g (f P) := by
  unfold State.modPort
  rw [Net.modPort_modPort]

theorem State.changed_same {c : CondId} {b : Bool} (h : s.level c = b) : s.changed c b = s := if_pos h

/-- A port written as it was changes nothing. -/
theorem State.setPort_self {p : Nat} {f : Port → Port} (h : f (s.port p) = s.port p) : s.setPort p f = s := by
  unfold State.setPort
  dsimp only
  rw [State.modPort_self h]
  simp only [State.changed_same]

/-- A port written: the change, and its conditions taken as events (R155). -/
theorem State.setPort_frame {p : Nat} {f g : Port → Port} (h : f (s.port p) = g (s.port p)) :
    EventFrame (s.modPort p g) (s.setPort p f) := by
  rw [← State.modPort_congr h]
  exact State.setPort_event p f s

/-! ### The link state and the monitors (R21 to R29) -/

/-- Settles O9: each event writes its port, and the link state decides what it writes. -/
theorem linkStateFollowsTheLine : Obligations.LinkStateFollowsTheLine := by
  unfold Obligations.LinkStateFollowsTheLine
  intro s p
  refine ⟨⟨_, rfl, State.setPort_frame ?energy⟩, ⟨_, rfl, State.setPort_frame ?lost⟩, fun h => ⟨_, rfl, State.setPort_frame ?idle⟩,
    fun h => ⟨⟨_, rfl, State.setPort_frame ?hold⟩, ⟨_, rfl, State.setPort_frame ?runaway⟩⟩,
    fun h => ⟨_, rfl, State.setPort_frame ?quiet⟩, fun h => ?noIdle, fun h => ⟨?noHold, ?noRunaway⟩, fun h => ?noQuiet⟩
  case energy =>
    by_cases h : (s.port p).link = .down
    · simp [h, Port.toLink]
    · simp [h]
  case lost => cases (s.port p).link <;> simp [Port.toLink]
  case idle => simp [h, Port.toLink]
  case hold => simp [h, Port.toLink]
  case runaway => simp [h, Port.toLink]
  case quiet => simp [h, Port.toLink]
  all_goals exact congrArg Host.Outcome.next (State.setPort_self (if_neg h))

/-- Settles O10: each expiry writes its port; the verdict of a rate window by the two bounds of R27. -/
theorem monitorsJudgeTheirWindows : Obligations.MonitorsJudgeTheirWindows := by
  unfold Obligations.MonitorsJudgeTheirWindows
  intro s p
  refine ⟨fun h => ⟨_, rfl, State.setPort_frame (if_pos h)⟩, fun n => ⟨_, _, rfl, State.setPort_frame rfl, ?spoiled, ?high, ?low,
    ?between⟩, ⟨_, rfl, State.setPort_frame rfl⟩⟩
  case spoiled => intro h; rw [if_pos h]
  all_goals
    intro h hn
    have h : ¬ (s.port p).rateSpoiled = true := by simp [h]
    rw [if_neg h, rateVerdict]
    simp only [lt_abs, abs_lt]
  case high => rw [if_pos (by omega)]
  case low => rw [if_neg (by omega), if_pos (by omega)]
  case between => rw [if_neg (by omega), if_neg (by omega)]

/-! ### The transmitter (R20, R32, R34, R46 to R50) -/

theorem patternDraw_length (k : Nat) (r : BitVec 15) : (patternDraw k r).1.length = k := by
  induction k generalizing r with
  | zero => rfl
  | succ k ih => rw [patternDraw, List.length_cons, ih]

theorem packBits_length (k : Nat) (l : List Bool) (h : l.length = 8 * k) : (packBits l).length = k := by
  induction k generalizing l with
  | zero => rw [List.length_eq_zero_iff.1 (by omega : l.length = 0)]; rfl
  | succ k ih =>
    match l, h with
    | a :: b :: c :: d :: e :: f :: g :: h' :: r, h =>
      rw [packBits, List.length_cons, ih r (by simp only [List.length_cons] at h; omega)]
    | [], h | [_], h | [_, _], h | [_, _, _], h | [_, _, _, _], h | [_, _, _, _, _], h | [_, _, _, _, _, _], h |
      [_, _, _, _, _, _, _], h => simp only [List.length_cons, List.length_nil] at h; omega

theorem invertFirst_length (l : List Byte) : (invertFirst l).length = l.length := by cases l <;> rfl

section
variable {n : Net} {own p : Nat}

theorem Net.sendQueued_nil (h : (n.port p).queue = []) : n.sendQueued p = n := by
  unfold Net.sendQueued
  rw [h]

theorem Net.sendQueued_cons {id : Nat} {l : List Nat} {f : Frame} (h : (n.port p).queue = id :: l) (hf : n.frame id = some f) :
    n.sendQueued p = n.modPort p fun P => { P with queue := l, sending := some ⟨f, some id⟩, loop := P.nextLoop } := by
  unfold Net.sendQueued
  rw [h]
  dsimp only
  rw [hf]

theorem Net.sendCommand_none (h : (n.port p).commandSlot = none) : n.sendCommand own p = n.sendQueued p := by
  unfold Net.sendCommand
  rw [h]

theorem Net.sendCommand_some {g : GapCommand} (h : (n.port p).commandSlot = some g) : n.sendCommand own p =
    n.modPort p fun P => { P with commandSlot := none, sending := some ⟨gapFrame own g, none⟩, loop := P.nextLoop } := by
  unfold Net.sendCommand
  rw [h]

theorem Net.sendFirst_none (h : (n.port p).stopSlot = none) : n.sendFirst own p = n.sendCommand own p := by
  unfold Net.sendFirst
  rw [h]

theorem Net.sendFirst_some {o : StopOrder} (h : (n.port p).stopSlot = some o) : n.sendFirst own p =
    n.modPort p fun P => { P with stopSlot := none, sending := some ⟨stopFrame own o, none⟩, loop := none } := by
  unfold Net.sendFirst
  rw [h]

/-- A transmitter that is busy, or whose port is DISABLED, begins nothing. -/
theorem Net.transmitBegin_busy (h : (n.port p).sending.isSome ∨ (n.port p).link = .disabled) : n.transmitBegin own p = n :=
  if_pos (by rcases h with h | h <;> simp [h])

/-- A free transmitter serves its test mode. -/
theorem Net.transmitBegin_free (h : (n.port p).sending = none) (hl : (n.port p).link ≠ .disabled) :
    n.transmitBegin own p = match (n.port p).mode with
      | .none => n.sendFirst own p
      | .localLoop => n.sendCommand own p
      | .remoteLoop => n.sendQueued p
      | .pattern => n.modPort p fun P =>
        { P.nextPattern.2 with sending := some ⟨P.nextPattern.1, none⟩, loop := none } := by
  unfold Net.transmitBegin
  exact if_neg (by simp [h, hl])

end

/-- The sources that a free transmitter in a mode other than PATTERN finds empty. -/
theorem Net.transmitBegin_idle {n : Net} {own p : Nat} (h : (n.port p).sending = none) (hl : (n.port p).link ≠ .disabled)
    (hm : (n.port p).mode ≠ .pattern) (h1 : (n.port p).stopSlot = none) (h2 : (n.port p).commandSlot = none)
    (h3 : (n.port p).queue = []) : n.transmitBegin own p = n := by
  rw [Net.transmitBegin_free h hl]
  cases hmode : (n.port p).mode
  · exact (Net.sendFirst_none h1).trans ((Net.sendCommand_none h2).trans (Net.sendQueued_nil h3))
  · exact (Net.sendCommand_none h2).trans (Net.sendQueued_nil h3)
  · exact Net.sendQueued_nil h3
  · exact absurd hmode hm

/-- Settles O11: the cases of `Net.transmitBegin`, by the test mode and the sources it serves. -/
theorem transmitterChoosesItsSource : Obligations.TransmitterChoosesItsSource := by
  unfold Obligations.TransmitterChoosesItsSource
  intro s p
  have hexec : ∀ n, s.net.transmitBegin s.part.own p = n →
      exec (.transmitBegin p) s = .next { s with net := n } := fun n h => by rw [← h]; rfl
  refine ⟨fun h => hexec _ (Net.transmitBegin_busy h), fun hfree hon => ⟨fun o hm ho => ?stop, fun g hm hg => ?command,
    fun id l f hm hq hf => ?queue, fun hm h1 h2 h3 => hexec _ (Net.transmitBegin_idle hfree hon hm h1 h2 h3),
    fun hm => ?pattern⟩⟩
  case stop =>
    have hm : (s.net.port p).mode = .none := hm
    refine hexec _ ((Net.transmitBegin_free hfree hon).trans ?_)
    rw [hm]
    exact Net.sendFirst_some ho
  case command =>
    refine hexec _ ((Net.transmitBegin_free hfree hon).trans ?_)
    rcases hm with ⟨hm, hs⟩ | hm
    all_goals
      have hm : (s.net.port p).mode = _ := hm
      rw [hm]
    · exact (Net.sendFirst_none hs).trans (Net.sendCommand_some hg)
    · exact Net.sendCommand_some hg
  case queue =>
    refine hexec _ ((Net.transmitBegin_free hfree hon).trans ?_)
    rcases hm with ⟨hm, hs, hc⟩ | ⟨hm, hc⟩ | hm
    all_goals
      have hm : (s.net.port p).mode = _ := hm
      rw [hm]
    · exact (Net.sendFirst_none hs).trans ((Net.sendCommand_none hc).trans (Net.sendQueued_cons hq hf))
    · exact (Net.sendCommand_none hc).trans (Net.sendQueued_cons hq hf)
    · exact Net.sendQueued_cons hq hf
  case pattern =>
    have hm : (s.net.port p).mode = .pattern := hm
    have hdata : (packBits (patternDraw 512 (s.port p).patternRegister).1).length = 64 :=
      packBits_length 64 _ (patternDraw_length 512 _)
    have hframe : ∀ P : Port, P.nextPattern.1 = ⟨0#8, 0#8, .pattern, put16 P.patternIndex.toNat ++
        (if P.injection then invertFirst (packBits (patternDraw 512 P.patternRegister).1)
          else packBits (patternDraw 512 P.patternRegister).1)⟩ := fun P => rfl
    have hport : ∀ P : Port, P.nextPattern.2 = { P with
        patternRegister := (patternDraw 512 P.patternRegister).2, patternIndex := P.patternIndex + 1, injection := false } :=
      fun P => rfl
    refine ⟨(s.port p).nextPattern.1, ?_⟩
    rw [hframe]
    refine ⟨rfl, rfl, rfl, ?_, List.take_left' rfl, List.drop_left' rfl,
      hexec _ ((Net.transmitBegin_free hfree hon).trans ?_)⟩
    · dsimp only
      rw [List.length_append]
      split
      · rw [invertFirst_length, hdata]; rfl
      · rw [hdata]; rfl
    · rw [hm, ← hframe]
      refine Net.modPort_congr ?_
      simp only [State.port, hport]

/-! ### The end of a transmission (R38, R43, R47, R49) -/

/-- With one reference less, a frame without references is gone (R43). -/
theorem Net.mem_release {n : Net} (hs : n.Sound) (id : Nat) (h : HeldFrame) : h ∈ (n.release id).frames ↔
    (h ∈ n.frames ∧ h.id ≠ id) ∨ (h.id = id ∧ h.refs ≠ 0 ∧ { h with refs := h.refs + 1 } ∈ n.frames) := by
  unfold Net.release
  simp only [List.mem_filter, List.mem_map, bne_iff_ne]
  constructor
  · rintro ⟨⟨g, hg, rfl⟩, h0⟩
    split at h0
    · rename_i hid
      rw [if_pos hid]
      refine .inr ⟨hid, h0, ?_⟩
      have : g.refs - 1 + 1 = g.refs := by have : g.refs - 1 ≠ 0 := h0; omega
      dsimp only
      rw [this]; exact hg
    · rename_i hid
      rw [if_neg hid]
      exact .inl ⟨hg, hid⟩
  · rintro (⟨hm, hid⟩ | ⟨hid, h0, hm⟩)
    · exact ⟨⟨h, hm, if_neg hid⟩, hs.refs h hm⟩
    · exact ⟨⟨_, hm, if_pos hid⟩, h0⟩

theorem Net.transmitEnd_none {n : Net} {p : Nat} (h : (n.port p).sending = none) : n.transmitEnd p = n := by
  unfold Net.transmitEnd
  rw [h]

/-- A port as the end delimiter of its frame leaves it (R38). -/
def Port.sent (x : Sending) (P : Port) : Port :=
  { P with
    sending := none
    counters := { P.counters with
      sent := bump P.counters.sent
      stopSent := if x.frame.kind = .stop then bump P.counters.stopSent else P.counters.stopSent } }

theorem Net.transmitEnd_some {n : Net} {p : Nat} {x : Sending} (h : (n.port p).sending = some x) :
    n.transmitEnd p = (n.modPort p (Port.sent x)).releaseHeld x.held := by
  have hrelease : ∀ (m : Net) (f : Port → Port), (m.releaseHeld x.held).modPort p f = (m.modPort p f).releaseHeld x.held :=
    fun m f => by unfold Net.releaseHeld; cases x.held <;> rfl
  unfold Net.transmitEnd
  rw [h]
  dsimp only
  rw [hrelease]
  congr 1
  by_cases hk : x.frame.kind = .stop
  · have hs : x.stopOrder = true := beq_iff_eq.2 hk
    rw [if_pos hs, Net.count, Net.count, Net.modPort_modPort, Net.modPort_modPort]
    refine Net.modPort_congr ?_
    unfold Port.sent
    rw [if_pos hk]
    rfl
  · have hs : ¬ x.stopOrder = true := fun hc => hk (beq_iff_eq.1 hc)
    rw [if_neg hs, Net.count, Net.modPort_modPort]
    refine Net.modPort_congr ?_
    unfold Port.sent
    rw [if_neg hk]
    rfl

theorem Net.releaseHeld_ports (n : Net) (k : Option Nat) : (n.releaseHeld k).ports = n.ports ∧
    (n.releaseHeld k).nextId = n.nextId ∧ (n.releaseHeld k).dropped = n.dropped := by
  cases k <;> exact ⟨rfl, rfl, rfl⟩

theorem Net.mem_releaseHeld {n : Net} (hs : n.Sound) (k : Option Nat) (h : HeldFrame) : h ∈ (n.releaseHeld k).frames ↔
    (h ∈ n.frames ∧ k ≠ some h.id) ∨ (k = some h.id ∧ h.refs ≠ 0 ∧ { h with refs := h.refs + 1 } ∈ n.frames) := by
  cases k with
  | none => simp [Net.releaseHeld]
  | some id =>
    rw [Net.releaseHeld, Net.mem_release hs]
    simp only [Option.some.injEq, ne_eq, eq_comm (a := id)]

/-- Without a frame in the loop the end of a transmission is that of the line (R20, R38). -/
theorem State.transmitEnd_line {p : Nat} (h : (s.port p).loop = none ∨ (s.port p).sending = none) :
    s.transmitEnd p = { s with net := s.net.transmitEnd p } := by
  have hl : (s.port p).looped = none := by
    unfold Port.looped
    rcases h with h | h
    · rw [h]
    · rw [h]; split <;> simp_all
  unfold State.transmitEnd
  rw [hl]

/-- Settles O12: the counts and the release of `Net.transmitEnd`. -/
theorem transmissionEndCountsAndReleases : Obligations.TransmissionEndCountsAndReleases := by
  unfold Obligations.TransmissionEndCountsAndReleases
  intro s p
  have hexec : ∀ t, s.transmitEnd p = t → exec (.transmitEnd p) s = .next t := fun t h => by rw [← h]; rfl
  refine ⟨fun h => ?_, fun x hx hloop hs => ?_⟩
  · refine hexec _ ((State.transmitEnd_line (.inr h)).trans ?_)
    rw [Net.transmitEnd_none h]
  · refine ⟨_, hexec _ ((State.transmitEnd_line (.inl hloop)).trans (by rw [Net.transmitEnd_some hx])), rfl, ?_⟩
    obtain ⟨hports, hnext, hdropped⟩ := (s.net.modPort p (Port.sent x)).releaseHeld_ports x.held
    have hport : ∀ q, ((s.net.modPort p (Port.sent x)).releaseHeld x.held).port q = (s.net.modPort p (Port.sent x)).port q :=
      fun q => by simp only [Net.port, hports]
    refine ⟨?_, fun q hq => ?_, hnext, hdropped, Net.mem_releaseHeld (hs.modPort p _) x.held⟩
    · exact (hport p).trans (Net.port_modPort_self s.net p _)
    · refine (hport q).trans ?_
      rw [Net.port_modPort, if_neg fun h => hq h.1.symm]
      rfl

end Sys2Proof.Machine
end

section
/-! PROOFS. The receiver: claims, discards and the judgement of a burst (R4, R8, R19, R42). -/

namespace Sys2Proof.Machine

variable {s t u : State}

/-! ### Blocks held (R41) -/

/-- A change of one port moves the tags held by what its receiver holds more or less. -/
theorem Net.count_tags_modPort (n : Net) (p : Nat) (f : Port → Port) (t : BlockTag) (hp : p < 12) :
    (n.modPort p f).tags.count t + (n.port p).heldTags.count t = n.tags.count t + (f (n.port p)).heldTags.count t := by
  rw [Net.count_tags, Net.count_tags, Net.frames_modPort]
  unfold portNumbers
  simp only [Net.port_modPort, List.map_cons, List.map_nil, List.sum_cons, List.sum_nil]
  interval_cases p <;> simp <;> omega

theorem Net.reservation_modPort (n : Net) (p q : Nat) (f : Port → Port) (h : ∀ P, (f P).record = P.record) :
    (n.modPort p f).reservation q = n.reservation q :=
  Net.port_modPort_keep (fun P => P.record.reservation) n p q f fun P => by rw [h]

/-! ### Claims (R42) -/

/-- The burst after one more claim. -/
def Net.claimBurst (n : Net) (p : Nat) (b : Burst) : Burst :=
  if b.short then { b with claims := b.claims + 1 }
  else match n.grant p with
    | some t => { b with tags := b.tags ++ [t], claims := b.claims + 1 }
    | none => { b with claims := b.claims + 1, short := true }

theorem Net.claim_eq (l : Lane) (p : Nat) (n : Net) :
    n.claim l p = n.modPort p (Port.setLane l (some (n.claimBurst p (((n.port p).lane l).getD .start)))) := rfl

section
variable {n : Net} {p : Nat} {b : Burst}

theorem Net.claimBurst_claims : (n.claimBurst p b).claims = b.claims + 1 := by
  unfold Net.claimBurst
  split
  · rfl
  · split <;> rfl

theorem Net.claimBurst_short (h : b.short = true) : (n.claimBurst p b).short = true := by
  unfold Net.claimBurst
  rw [if_pos h]
  exact h

theorem Net.claimBurst_of_grant {t : BlockTag} (h : b.short = false) (hg : n.grant p = some t) :
    n.claimBurst p b = { b with tags := b.tags ++ [t], claims := b.claims + 1 } := by
  unfold Net.claimBurst
  rw [if_neg (by simp [h]), hg]

theorem Net.claimBurst_of_no_grant (h : b.short = false) (hg : n.grant p = none) :
    n.claimBurst p b = { b with claims := b.claims + 1, short := true } := by
  unfold Net.claimBurst
  rw [if_neg (by simp [h]), hg]

theorem Net.grant_reserved (h : n.used p < n.reservation p) : n.grant p = some (.reserved p) :=
  if_pos (Nat.sub_pos_of_lt h)

theorem Net.grant_shared (h : n.reservation p ≤ n.used p) (hf : 0 < n.sharedFree) : n.grant p = some .shared := by
  unfold Net.grant Net.reservedFree
  rw [if_neg (by omega), if_pos hf]

theorem Net.grant_none (h : n.reservation p ≤ n.used p) (hf : n.sharedFree = 0) : n.grant p = none := by
  unfold Net.grant Net.reservedFree
  rw [if_neg (by omega), if_neg (by omega)]

end

@[simp] theorem Port.lane_setLane (l : Lane) (o : Option Burst) (P : Port) : (P.setLane l o).lane l = o := by cases l <;> rfl

theorem Port.setLane_setLane (l : Lane) (o o' : Option Burst) (P : Port) : (P.setLane l o).setLane l o' = P.setLane l o' := by
  cases l <;> rfl

theorem Port.setLane_lane (l : Lane) (P : Port) : P.setLane l (P.lane l) = P := by cases l <;> rfl

theorem Port.setLane_record (l : Lane) (o : Option Burst) (P : Port) : (P.setLane l o).record = P.record := by cases l <;> rfl

theorem Port.heldTags_setLane (l : Lane) (o : Option Burst) (P : Port) (t : BlockTag) :
    (P.setLane l o).heldTags.count t + (burstTags (P.lane l)).count t = P.heldTags.count t + (burstTags o).count t := by
  cases l <;> simp only [Port.heldTags, Port.setLane, Port.lane, List.count_append] <;> omega

/-- The blocks held once a lane's burst is another. -/
theorem Net.used_setLane (n : Net) (l : Lane) (p : Nat) (o : Option Burst) (hp : p < 12) :
    (n.modPort p (Port.setLane l o)).used p + (burstTags ((n.port p).lane l)).count (.reserved p) =
      n.used p + (burstTags o).count (.reserved p) := by
  have h1 := n.count_tags_modPort p (Port.setLane l o) (.reserved p) hp
  have h2 := Port.heldTags_setLane l o (n.port p) (.reserved p)
  unfold Net.used
  omega

/-- A burst that has its blocks so far, the tags being `k` reserved blocks more than those of `o` (R42). -/
structure Burst.Grown (p : Nat) (o : Option Burst) (k : Nat) (b : Burst) : Prop where
  short : b.short = false
  tags : b.tags = burstTags o ++ List.replicate k (.reserved p)

/-- A claim that the reservation covers. -/
theorem Burst.Grown.claim {n : Net} {p j : Nat} {o : Option Burst} {b : Burst} (h : Burst.Grown p o j b)
    (hu : n.used p < n.reservation p) : Burst.Grown p o (j + 1) (n.claimBurst p b) := by
  rw [Net.claimBurst_of_grant h.short (Net.grant_reserved hu)]
  refine ⟨h.short, ?_⟩
  dsimp only
  rw [h.tags, List.append_assoc, List.replicate_succ']

theorem Burst.Grown.start {p : Nat} {P : Port} {l : Lane} (h : P.isShort l = false) :
    Burst.Grown p (P.lane l) 0 ((P.lane l).getD .start) := by
  unfold Port.isShort at h
  cases hl : P.lane l with
  | none => exact ⟨rfl, rfl⟩
  | some b => rw [hl] at h; exact ⟨h, (List.append_nil _).symm⟩

theorem Port.claims_eq (l : Lane) (P : Port) : P.claims l = ((P.lane l).getD .start).claims := by
  unfold Port.claims
  cases P.lane l <;> rfl

theorem Port.isShort_eq (l : Lane) (P : Port) : P.isShort l = ((P.lane l).getD .start).short := by
  unfold Port.isShort
  cases P.lane l <;> rfl

/-- One claim, or none, as the first of a burst. -/
theorem Net.completeClaims_eq (l : Lane) (p k : Nat) (n : Net) : n.completeClaims l p k =
    if ((if (n.port p).claims l < 1 && 1 ≤ k then n.claim l p else n).port p).claims l < 2 && 2 ≤ k then
      (if (n.port p).claims l < 1 && 1 ≤ k then n.claim l p else n).claim l p
    else if (n.port p).claims l < 1 && 1 ≤ k then n.claim l p else n := rfl

/-- What the claims not made yet leave of a lane's burst (R42, log 4). -/
theorem Net.completeClaims_spec (l : Lane) (p k : Nat) (n : Net) (hp : p < 12) : ∃ o,
    n.completeClaims l p k = n.modPort p (Port.setLane l o) ∧
    ((n.port p).isShort l = true → ∃ b, o = some b ∧ b.short = true) ∧
    ((n.port p).isShort l = false → n.used p + 2 ≤ n.reservation p → 1 ≤ k → ∃ b j, o = some b ∧ 1 ≤ b.claims ∧
      Burst.Grown p ((n.port p).lane l) j b ∧ ((n.port p).claims l = 0 → j = min k 2)) := by
  have hclaims := Port.claims_eq l (n.port p)
  have hshort := Port.isShort_eq l (n.port p)
  rw [Net.completeClaims_eq]
  by_cases h1 : (n.port p).claims l < 1 ∧ 1 ≤ k
  · have h1' : (decide ((n.port p).claims l < 1) && decide (1 ≤ k)) = true := by simpa using h1
    rw [if_pos h1', Net.claim_eq]
    generalize hb : n.claimBurst p (((n.port p).lane l).getD .start) = b
    have hport : (n.modPort p (Port.setLane l (some b))).port p = (n.port p).setLane l (some b) := by
      rw [Net.port_modPort, if_pos ⟨rfl, hp⟩]
    have hone : b.claims = 1 := by rw [← hb, Net.claimBurst_claims]; omega
    have hs : (n.port p).isShort l = true → b.short = true := fun h => by
      rw [← hb]; exact Net.claimBurst_short (by rw [← hshort, h])
    have hg : (n.port p).isShort l = false → n.used p + 2 ≤ n.reservation p →
        Burst.Grown p ((n.port p).lane l) 1 b := fun h hu => by
      rw [← hb]; exact (Burst.Grown.start h).claim (by omega)
    have hc : ((n.port p).setLane l (some b)).claims l = 1 := by rw [Port.claims_eq, Port.lane_setLane]; exact hone
    rw [hport, hc]
    by_cases h2 : 2 ≤ k
    · rw [if_pos (by simpa using h2), Net.claim_eq, hport, Port.lane_setLane, Net.modPort_modPort]
      refine ⟨_, Net.modPort_congr (Port.setLane_setLane _ _ _ _), fun h => ⟨_, rfl, Net.claimBurst_short (hs h)⟩,
        fun h hu _ => ⟨_, 2, rfl, by rw [Net.claimBurst_claims]; omega, (hg h hu).claim ?_, fun _ => by omega⟩⟩
      have hused := n.used_setLane l p (some b) hp
      have htags := (hg h hu).tags
      rw [Net.reservation_modPort _ _ _ _ (Port.setLane_record l _)]
      rw [show burstTags (some b) = b.tags from rfl, htags, List.count_append, List.count_replicate_self] at hused
      omega
    · rw [if_neg (by simpa using h2)]
      exact ⟨_, rfl, fun h => ⟨_, rfl, hs h⟩, fun h hu _ => ⟨_, 1, rfl, by omega, hg h hu, fun _ => by omega⟩⟩
  · have h1' : ¬ (decide ((n.port p).claims l < 1) && decide (1 ≤ k)) = true := by simpa using h1
    rw [if_neg h1']
    by_cases h2 : (n.port p).claims l < 2 ∧ 2 ≤ k
    · rw [if_pos (by simpa using h2), Net.claim_eq]
      exact ⟨_, rfl, fun h => ⟨_, rfl, Net.claimBurst_short (by rw [← hshort, h])⟩,
        fun h hu _ => ⟨_, 1, rfl, by rw [Net.claimBurst_claims]; omega, (Burst.Grown.start h).claim (by omega),
          fun h0 => absurd h0 (by omega)⟩⟩
    · rw [if_neg (by simpa using h2)]
      refine ⟨(n.port p).lane l, (Net.modPort_self (Port.setLane_lane l _)).symm, fun h => ?_, fun h hu hk => ?_⟩
      · unfold Port.isShort at h
        cases hl : (n.port p).lane l with
        | none => rw [hl] at h; cases h
        | some b => rw [hl] at h; exact ⟨b, rfl, h⟩
      · have hstart := Burst.Grown.start (p := p) h
        cases hl : (n.port p).lane l with
        | none => rw [hl] at hclaims; exact absurd hclaims (by change ¬ _ = 0; omega)
        | some b =>
          rw [hl] at hstart hclaims
          have hclaims : (n.port p).claims l = b.claims := hclaims
          exact ⟨b, 0, rfl, by omega, hstart, fun h0 => by omega⟩

/-- The claims change the burst of their lane alone. -/
theorem Net.completeClaims_lane (l : Lane) (p k : Nat) (n : Net) (hp : p < 12) :
    ∃ o, n.completeClaims l p k = n.modPort p (Port.setLane l o) := by
  obtain ⟨o, h, -⟩ := n.completeClaims_spec l p k hp
  exact ⟨o, h⟩

/-- The claim of a burst's first byte. -/
theorem Net.completeClaims_first {l : Lane} {p : Nat} {n : Net} (h : (n.port p).claims l = 0) :
    n.completeClaims l p 1 = n.claim l p := by
  simp [Net.completeClaims_eq, h]

/-- The claim of a burst's 129th byte. -/
theorem Net.completeClaims_second {l : Lane} {p : Nat} {n : Net} (h : (n.port p).claims l = 1) :
    n.completeClaims l p 2 = n.claim l p := by
  simp [Net.completeClaims_eq, h]

/-! ### Discards (R8, R19, R38) -/

theorem State.discard_eq (p : Nat) (k : Count) (s : State) :
    s.discard p k = s.modPort p fun P => { P with burst := none, counters := P.counters.count k } := by
  unfold State.discard State.modPort
  rw [Net.dropBurst, Net.count, Net.modPort_modPort]

theorem State.drop_eq (p : Nat) (s : State) : s.drop p = s.modPort p fun P => { P with burst := none } := rfl

/-- What the burst of a discarded frame had claimed does not matter. -/
theorem State.discard_claimed (p : Nat) (hp : p < 12) (j : Nat) (k : Count) (s : State) :
    ({ s with net := s.net.completeClaims .line p j } : State).discard p k = s.discard p k := by
  obtain ⟨o, ho⟩ := s.net.completeClaims_lane .line p j hp
  rw [State.discard_eq, State.discard_eq, ho]
  change (s.modPort p (Port.setLane .line o)).modPort p _ = _
  rw [State.modPort_modPort]
  exact State.modPort_congr rfl

/-- A burst from the line is judged where the port takes bursts from the line (R19, R32). -/
theorem State.frameReceived_eq {p : Fin 12} {l : List Symbol} (hr : s.phase = .running) (hu : (s.port p).link = .up)
    (hm : (s.port p).mode ≠ .localLoop) : exec (.frameReceived p l) s = .next (s.burstEnded p l) :=
  congrArg Host.Outcome.next (if_pos (by simp [State.running, Port.hearsLine, hr, hu, hm]))

theorem State.hearsNothing {p : Nat} (h : s.phase ≠ .running ∨ (s.port p).link ≠ .up ∨ (s.port p).mode = .localLoop) :
    (s.running && (s.port p).hearsLine) = false := by
  rcases h with h | h | h <;> simp [State.running, Port.hearsLine, h]

/-! ### Claims and discards at the receiver (R4, R8, R19, R32, R42) -/

theorem State.receiverClaim_eq {p : Fin 12} {k : ClaimByte} {l : Lane} (hr : s.phase = .running) (hl : (s.port p).hearing = some l) :
    exec (.receiverBlockClaim p k) s =
      .next { s with net := s.net.completeClaims l p (match k with | .first => 1 | .byte129 => 2) } := by
  change Host.Outcome.next (match (s.port p).hearing with
    | some l => if s.running then { s with net := s.net.completeClaims l p _ } else s
    | none => s) = _
  rw [hl]
  exact congrArg Host.Outcome.next (if_pos (by simp [State.running, hr]))

theorem ClaimByte.not_short {k : ClaimByte} {b : Burst}
    (hb : (k = .first ∧ b = ⟨[], 0, false⟩) ∨ (k = .byte129 ∧ b.claims = 1 ∧ b.short = false)) : b.short = false := by
  rcases hb with ⟨-, rfl⟩ | ⟨-, -, h⟩
  · rfl
  · exact h

/-- The claim of a byte that a burst has not claimed for. -/
theorem State.receiverClaim_claim {p : Fin 12} {k : ClaimByte} {l : Lane} {b : Burst} (hr : s.phase = .running)
    (hl : (s.port p).hearing = some l)
    (hb : (k = .first ∧ b = ⟨[], 0, false⟩) ∨ (k = .byte129 ∧ b.claims = 1 ∧ b.short = false))
    (hlane : (s.port p).lane l = some b ∨ (k = .first ∧ (s.port p).lane l = none)) :
    exec (.receiverBlockClaim p k) s = .next (s.modPort p (Port.setLane l (some (s.net.claimBurst p b)))) := by
  have hstart : ((s.port p).lane l).getD .start = b := by
    rcases hlane with h | ⟨hk, h⟩
    · rw [h]; rfl
    · rw [h]
      rcases hb with ⟨-, hb⟩ | ⟨hk', -⟩
      · exact hb.symm
      · rw [hk] at hk'; cases hk'
  have hclaims : (s.net.port p).claims l = b.claims := (Port.claims_eq l (s.port p)).trans (by rw [hstart])
  have hclaim : s.net.claim l p = s.net.modPort p (Port.setLane l (some (s.net.claimBurst p b))) := by
    rw [Net.claim_eq]
    change s.net.modPort p (Port.setLane l (some (s.net.claimBurst p (((s.port p).lane l).getD .start)))) = _
    rw [hstart]
  rw [State.receiverClaim_eq hr hl]
  rcases hb with ⟨rfl, rfl⟩ | ⟨rfl, h1, -⟩
  · rw [Net.completeClaims_first hclaims, hclaim]; rfl
  · rw [Net.completeClaims_second (hclaims.trans h1), hclaim]; rfl

/-- A row that carries a SAMPLE or a STATUS whose burst is short of buffer (R42). -/
theorem State.arrive_short {p : Nat} (hp : p < 12) (source : Byte) (f : State → State) (hr : s.phase = .running)
    (hu : (s.port p).link = .up) (hm : (s.port p).mode = .none) (hs : (s.port p).isShort .line = true) :
    s.arrive p source f = s.discard p .noBuffer := by
  obtain ⟨o, ho, hshort, -⟩ := s.net.completeClaims_spec .line p 1 hp
  obtain ⟨b, rfl, hb⟩ := hshort hs
  unfold State.arrive
  rw [if_pos (by simp [State.running, Port.passesInward, hr, hu, hm])]
  dsimp only
  rw [if_pos, State.discard_claimed p hp]
  change ((s.net.completeClaims .line p 1).port p).isShort .line = true
  rw [ho, Net.port_modPort, if_pos ⟨rfl, hp⟩]
  exact hb

/-- Settles O16: each claim by where the block comes from, each discard by the verdict on its burst. -/
theorem receiverClaimsAndDiscards : Obligations.ReceiverClaimsAndDiscards := by
  unfold Obligations.ReceiverClaimsAndDiscards
  refine ⟨fun s p b k hr hb => ⟨s.net.claimBurst p b, Net.claimBurst_claims, ?reserved, ?shared, ?none, ?line, ?loop⟩,
    fun s p l hr hu hm => ⟨fun hj => ?malformed, fun hj hp => ?check, ?truncated⟩, fun s p c source hr hu hm hs hc => ?short,
    fun s p l b h => ?deaf⟩
  case reserved =>
    intro h
    have hs := ClaimByte.not_short hb
    rw [Net.claimBurst_of_grant hs (Net.grant_reserved h)]
    exact ⟨rfl, hs⟩
  case shared =>
    intro h h'
    have hs := ClaimByte.not_short hb
    rw [Net.claimBurst_of_grant hs (Net.grant_shared h h')]
    exact ⟨rfl, hs⟩
  case none =>
    intro h h'
    rw [Net.claimBurst_of_no_grant (ClaimByte.not_short hb) (Net.grant_none h h')]
    exact ⟨rfl, rfl⟩
  case line =>
    intro hu hm hlane
    exact State.receiverClaim_claim hr (l := .line) (if_pos (by simp [Port.hearsLine, hu, hm])) hb hlane
  case loop =>
    intro hm hlane
    refine State.receiverClaim_claim hr (l := .loop) ?_ hb (.inl hlane)
    unfold Port.hearing
    rw [if_neg (by simp [Port.hearsLine, hm]), if_pos ⟨hm, by rw [hlane]; rfl⟩]
  case malformed =>
    rw [State.frameReceived_eq hr hu hm, State.burstEnded]
    dsimp only
    rw [hj]
    dsimp only
    rw [State.discard_claimed p p.isLt, State.discard_eq]
    rfl
  case check =>
    rw [State.frameReceived_eq hr hu hm, State.burstEnded]
    dsimp only
    rw [hj]
    dsimp only
    rw [State.checkDiscard, State.discard_claimed p p.isLt, State.discard_eq, if_neg]
    · rfl
    · rw [State.port_modPort_self]; exact hp
  case truncated =>
    have h : exec (.burstTruncated p) s = .next (s.discard p .malformed) :=
      congrArg Host.Outcome.next (if_pos (by simp [State.running, Port.hearsLine, hr, hu, hm]))
    rw [h, State.discard_eq]
    rfl
  case short =>
    have h : ∀ f, (.next (s.arrive p source f) : Host.Outcome State Fault Refusal) =
        .next (s.modPort p fun P => { P with burst := none, counters := { P.counters with noBuffer := bump P.counters.noBuffer } }) :=
      fun f => by rw [State.arrive_short p.isLt source f hr hu hm hs, State.discard_eq]; rfl
    rcases hc with ⟨dest, f, rfl⟩ | ⟨dest, f, rfl⟩
    · exact h _
    · exact h _
  case deaf =>
    have hh := State.hearsNothing h
    have hneg : ¬ (s.running && (s.port p).hearsLine) = true := by simp [hh]
    refine ⟨congrArg Host.Outcome.next (if_neg hneg), congrArg Host.Outcome.next (if_neg hneg), fun hloop => ?_⟩
    refine congrArg Host.Outcome.next ?_
    by_cases hr : s.running = true
    · have hl : ¬ (s.port p).hearsLine = true := fun hc => hneg (by rw [hr, hc]; rfl)
      have hnone : (s.port p).hearing = none := by
        unfold Port.hearing
        rw [if_neg hl, if_neg]
        rintro ⟨h1, h2⟩
        rcases hloop with h | h
        · exact h h1
        · rw [h] at h2; cases h2
      rw [hnone]
    · cases (s.port p).hearing with
      | none => rfl
      | some l => exact if_neg hr

end Sys2Proof.Machine
end

section
/-! PROOFS. The pattern sequence and its checker (R16, R35). -/

namespace Sys2Proof.Machine

/-! ### The register steps back (R16) -/

/-- The register before a step. -/
def patternUnstep (r : BitVec 15) : BitVec 15 := BitVec.ofFnLE fun i : Fin 15 =>
  if i.val = 14 then r.getLsbD 0 != r.getLsbD 14 else r.getLsbD (i.val + 1)

theorem patternUnstep_bit (r : BitVec 15) {i : Nat} (hi : i < 15) :
    (patternUnstep r).getLsbD i = if i = 14 then r.getLsbD 0 != r.getLsbD 14 else r.getLsbD (i + 1) := by
  unfold patternUnstep
  rw [BitVec.getLsbD_ofFnLE]
  simp [hi]



/-- One bit shifted in at the low end. -/
def pushBit (r : BitVec 15) (b : Bool) : BitVec 15 := (r <<< 1) ||| (BitVec.ofBool b).setWidth 15

theorem pushBit_low (r : BitVec 15) (b : Bool) : (pushBit r b).getLsbD 0 = b := by simp [pushBit]

theorem pushBit_high (r : BitVec 15) (b : Bool) (i : Nat) (h : i < 14) : (pushBit r b).getLsbD (i + 1) = r.getLsbD i := by
  simp [pushBit, show i + 1 < 15 by omega, BitVec.getLsbD_eq_getElem (show i < 15 by omega)]

theorem patternStep_low (r : BitVec 15) : (patternStep r).getLsbD 0 = patternBit r := pushBit_low r _

theorem patternStep_high (r : BitVec 15) (i : Nat) (h : i < 14) : (patternStep r).getLsbD (i + 1) = r.getLsbD i :=
  pushBit_high r _ i h

theorem patternBit_unstep (r : BitVec 15) : patternBit (patternUnstep r) = r.getLsbD 0 := by
  unfold patternBit
  rw [patternUnstep_bit r (by decide), patternUnstep_bit r (by decide), if_pos rfl, if_neg (by decide)]
  cases r.getLsbD 0 <;> cases r.getLsbD 14 <;> rfl

theorem patternStep_unstep (r : BitVec 15) : patternStep (patternUnstep r) = r := by
  apply BitVec.eq_of_getLsbD_eq
  intro i hi
  cases i with
  | zero => rw [patternStep_low, patternBit_unstep]
  | succ i => rw [patternStep_high _ i (by omega), patternUnstep_bit r (by omega), if_neg (by omega)]

theorem patternUnstep_step (r : BitVec 15) : patternUnstep (patternStep r) = r := by
  apply BitVec.eq_of_getLsbD_eq
  intro i hi
  rw [patternUnstep_bit _ hi]
  by_cases h : i = 14
  · subst h
    rw [if_pos rfl, patternStep_low, patternStep_high r 13 (by decide), patternBit]
    cases r.getLsbD 14 <;> cases r.getLsbD 13 <;> rfl
  · rw [if_neg h, patternStep_high r i (by omega)]

theorem patternDraw_add (j k : Nat) (r : BitVec 15) : patternDraw (j + k) r =
    ((patternDraw j r).1 ++ (patternDraw k (patternDraw j r).2).1, (patternDraw k (patternDraw j r).2).2) := by
  induction j generalizing r with
  | zero => rw [Nat.zero_add]; rfl
  | succ j ih =>
    rw [Nat.succ_add, patternDraw, patternDraw, ih]
    rfl

theorem foldl_pushBit_bit (l : List Bool) (r : BitVec 15) (i : Nat) (hi : i < 15) (hl : i < l.length) :
    (l.foldl pushBit r).getLsbD i = l.reverse.getD i false := by
  induction l using List.reverseRecOn generalizing i with
  | nil => simp at hl
  | append_singleton l b ih =>
    rw [List.foldl_append, List.reverse_append]
    cases i with
    | zero => exact pushBit_low _ b
    | succ i =>
      rw [List.length_append, List.length_singleton] at hl
      exact (pushBit_high _ b i (by omega)).trans (ih i (by omega) (by omega))

/-- Fifteen bits loaded are known from the register. -/
theorem patternLoad_injective {a b : List Bool} (ha : a.length = 15) (hb : b.length = 15) (h : patternLoad a = patternLoad b) :
    a = b := by
  refine List.reverse_injective (List.ext_getElem (by simp [ha, hb]) fun i h1 h2 => ?_)
  have hi : i < 15 := by simpa [ha] using h1
  have h1' := foldl_pushBit_bit a 0#15 i hi (by omega)
  have h2' := foldl_pushBit_bit b 0#15 i hi (by omega)
  rw [show a.foldl pushBit 0#15 = b.foldl pushBit 0#15 from h, h2'] at h1'
  rw [List.getD_eq_getElem _ _ h1, List.getD_eq_getElem _ _ h2] at h1'
  exact h1'.symm

/-- A register and one that agrees with it in its low bits take the same bits in. -/
theorem foldl_pushBit_draw (k j : Nat) (x r : BitVec 15) (h : ∀ i, i < j → i < 15 → x.getLsbD i = r.getLsbD i) (i : Nat)
    (hi : i < j + k) (h15 : i < 15) : ((patternDraw k r).1.foldl pushBit x).getLsbD i = (patternDraw k r).2.getLsbD i := by
  induction k generalizing j x r with
  | zero => exact h i hi h15
  | succ k ih =>
    refine ih (j + 1) (pushBit x (patternBit r)) (patternStep r) (fun i hi h15 => ?_) (by omega)
    cases i with
    | zero => rw [pushBit_low, patternStep_low]
    | succ i => rw [pushBit_high _ _ i (by omega), patternStep_high r i (by omega), h i (by omega) (by omega)]

/-- The last bits drawn stand in the register, the newest lowest (R16, R35). -/
theorem patternLoad_draw (r : BitVec 15) : patternLoad (patternDraw 15 r).1 = (patternDraw 15 r).2 :=
  BitVec.eq_of_getLsbD_eq fun i hi => foldl_pushBit_draw 15 0 0#15 r (fun _ h => absurd h (Nat.not_lt_zero _)) i (by omega) hi

/-- Every register is reached by 15 steps. -/
theorem exists_patternDraw (q : BitVec 15) : ∃ r, (patternDraw 15 r).2 = q := by
  have hback : ∀ k q, ∃ r, (patternDraw k r).2 = q := fun k => by
    induction k with
    | zero => exact fun q => ⟨q, rfl⟩
    | succ k ih =>
      intro q
      obtain ⟨r, hr⟩ := ih q
      refine ⟨patternUnstep r, ?_⟩
      rw [patternDraw, patternStep_unstep]
      exact hr
  exact hback 15 q

theorem patternDraw_injective (k : Nat) : Function.Injective fun r => (patternDraw k r).2 := by
  induction k with
  | zero => exact fun a b h => h
  | succ k ih =>
    intro a b h
    have := ih h
    rw [← patternUnstep_step a, ← patternUnstep_step b, this]

/-- Any fifteen bits are drawn from some register, which then holds them. -/
theorem patternDraw_of_bits {l : List Bool} (h : l.length = 15) : ∃ r, patternDraw 15 r = (l, patternLoad l) := by
  obtain ⟨r, hr⟩ := exists_patternDraw (patternLoad l)
  refine ⟨r, Prod.ext (patternLoad_injective (patternDraw_length 15 r) h ?_) hr⟩
  rw [patternLoad_draw, hr]

theorem patternDraw_zero (k : Nat) : patternDraw k 0#15 = (List.replicate k false, 0#15) := by
  induction k with
  | zero => rfl
  | succ k ih => rw [patternDraw, show patternStep 0#15 = 0#15 from rfl, ih]; rfl

/-- Fifteen bits are all 0 only from the register 0. -/
theorem patternDraw_any (r : BitVec 15) : (patternDraw 15 r).1.any id = true ↔ r ≠ 0#15 := by
  constructor
  · rintro h rfl
    rw [patternDraw_zero] at h
    simp at h
  · intro h
    by_contra hc
    have hall : (patternDraw 15 r).1 = List.replicate 15 false :=
      List.eq_replicate_iff.2 ⟨patternDraw_length 15 r, fun b hb => by
        by_contra hb'
        exact hc (List.any_eq_true.2 ⟨b, hb, by simpa using hb'⟩)⟩
    have h2 : (patternDraw 15 r).2 = 0#15 := by rw [← patternLoad_draw, hall]; rfl
    exact h (patternDraw_injective 15 (by simp only [h2, patternDraw_zero]))

/-- What 512 bits say of a register: its first fifteen give the register after them, which draws the rest. -/
theorem patternDraw_frame (j k n : Nat) (h : j + k = n) (r : BitVec 15) : (patternDraw n r).1.take j = (patternDraw j r).1 ∧
    (patternDraw n r).1.drop j = (patternDraw k (patternDraw j r).2).1 ∧
    (patternDraw n r).2 = (patternDraw k (patternDraw j r).2).2 := by
  rw [← h, patternDraw_add]
  exact ⟨List.take_left' (patternDraw_length j r), List.drop_left' (patternDraw_length j r), rfl⟩

theorem patternDraw_frame_injective {a b : BitVec 15} (h : (patternDraw 512 a).1 = (patternDraw 512 b).1) : a = b := by
  have h1 := (patternDraw_frame 15 497 512 rfl a).1
  rw [h, (patternDraw_frame 15 497 512 rfl b).1] at h1
  exact patternDraw_injective 15 (by
    change (patternDraw 15 a).2 = (patternDraw 15 b).2
    rw [← patternLoad_draw, ← patternLoad_draw, h1])

/-! ### The checker (R35) -/

theorem Checker.acquire_of_frame (K : Checker) (r : BitVec 15) (h : r ≠ 0#15) (bits : List Bool)
    (hb : (patternDraw 512 r).1 = bits) : (K.acquire bits).register = (patternDraw 512 r).2 ∧
      ((K.acquire bits).inSync = true ↔ K.inSync = true ∨ (K.goodRun = 1 ∧ K.register = r)) ∧
      (K.goodRun = 1 ∧ K.register = r → (K.acquire bits).goodRun = 2) ∧
      (¬ (K.goodRun = 1 ∧ K.register = r) → (K.acquire bits).goodRun = 1) := by
  obtain ⟨h1, h2, h3⟩ := patternDraw_frame 15 497 512 rfl r
  have hexp : bits = (patternDraw 512 K.register).1 ↔ K.register = r := by
    rw [← hb]
    exact ⟨fun h => (patternDraw_frame_injective h).symm, fun h => by rw [h]⟩
  unfold Checker.acquire
  dsimp only
  rw [← hb, h1, h2, h3, patternLoad_draw, if_pos ⟨rfl, (patternDraw_any r).2 h⟩, hb]
  generalize (patternDraw 497 (patternDraw 15 r).2).2 = q
  by_cases hk : K.goodRun = 1 ∧ K.register = r
  · rw [if_pos ⟨hk.1, hexp.2 hk.2⟩]
    exact ⟨rfl, by simp [hk], fun _ => rfl, fun hc => absurd hk hc⟩
  · rw [if_neg fun hc => hk ⟨hc.1, hexp.1 hc.2⟩]
    exact ⟨rfl, by simp [hk], fun hc => absurd hc hk, fun _ => rfl⟩

theorem Checker.acquire_of_no_frame (K : Checker) (bits : List Bool) (hlen : bits.length = 512)
    (h : ¬ ∃ r : BitVec 15, r ≠ 0#15 ∧ (patternDraw 512 r).1 = bits) :
    (K.acquire bits).inSync = K.inSync ∧ (K.acquire bits).goodRun = 0 := by
  unfold Checker.acquire
  dsimp only
  rw [if_neg]
  · exact ⟨rfl, rfl⟩
  · rintro ⟨h1, h2⟩
    obtain ⟨r, hr⟩ := patternDraw_of_bits (l := bits.take 15) (by rw [List.length_take, hlen]; rfl)
    refine h ⟨r, (patternDraw_any r).1 (by rw [hr]; exact h2), ?_⟩
    obtain ⟨f1, f2, -⟩ := patternDraw_frame 15 497 512 rfl r
    rw [← List.take_append_drop 15 (patternDraw 512 r).1, f1, f2, hr, h1, List.take_append_drop]

/-- The checker, as R35 has it: IN SYNC it compares; OUT OF SYNC it loads the register from the frame. -/
theorem Checker.check_spec (K : Checker) (bits : List Bool) (hlen : bits.length = 512) :
    (K.inSync = true → (patternDraw 512 K.register).1 = bits →
      K.check bits = ({ K with badRun := 0, register := (patternDraw 512 K.register).2 }, false)) ∧
    (K.inSync = true → (patternDraw 512 K.register).1 ≠ bits → ∃ K', K.check bits = (K', true) ∧
      K'.register = (patternDraw 512 K.register).2 ∧ K'.badRun = K.badRun + 1 ∧ (K'.inSync = true ↔ K.badRun < 3) ∧
      (3 ≤ K.badRun → K'.goodRun = 0)) ∧
    (K.inSync = false → ∃ K', K.check bits = (K', false) ∧
      (¬ (∃ r : BitVec 15, r ≠ 0#15 ∧ (patternDraw 512 r).1 = bits) → K'.inSync = false ∧ K'.goodRun = 0) ∧
      (∀ r : BitVec 15, r ≠ 0#15 → (patternDraw 512 r).1 = bits → K'.register = (patternDraw 512 r).2 ∧
        (K'.inSync = true ↔ K.goodRun = 1 ∧ K.register = r) ∧ K'.goodRun = if K'.inSync then 2 else 1)) := by
  unfold Checker.check
  refine ⟨fun hs hb => ?_, fun hs hb => ⟨K.bad, ?_, ?_⟩, fun hs => ⟨K.acquire bits, ?_, fun h => ?_, fun r hr hb => ?_⟩⟩
  · rw [if_pos hs]; exact if_pos hb
  · rw [if_pos hs]; exact if_neg hb
  · unfold Checker.bad
    dsimp only
    generalize (patternDraw 512 K.register).2 = q
    by_cases h : 4 ≤ K.badRun + 1
    · rw [if_pos h]; exact ⟨rfl, rfl, by simp; omega, fun _ => rfl⟩
    · rw [if_neg h]; exact ⟨rfl, rfl, by simp [hs]; omega, fun h3 => absurd h3 (by omega)⟩
  · rw [if_neg (by simp [hs])]
  · obtain ⟨h1, h2⟩ := K.acquire_of_no_frame bits hlen h
    exact ⟨h1.trans hs, h2⟩
  · obtain ⟨h1, h2, h3, h4⟩ := K.acquire_of_frame r hr bits hb
    rw [hs] at h2
    have h2 : (K.acquire bits).inSync = true ↔ K.goodRun = 1 ∧ K.register = r := by simpa using h2
    refine ⟨h1, h2, ?_⟩
    by_cases hk : K.goodRun = 1 ∧ K.register = r
    · rw [h3 hk, if_pos (h2.2 hk)]
    · rw [h4 hk, if_neg fun hc => hk (h2.1 hc)]

end Sys2Proof.Machine
end

section
/-! PROOFS. Frames received in the test modes (R32, R33, R35). -/

namespace Sys2Proof.Machine

variable {s t u : State}

/-! ### What a valid burst is (R4) -/

theorem pairUp_length (l : List (BitVec 4)) : (pairUp l).length = l.length / 2 := by
  induction l using pairUp.induct with
  | case1 h l r ih => rw [pairUp, List.length_cons, ih, List.length_cons, List.length_cons]; omega
  | case2 l h =>
    match l, h with
    | [], _ => rfl
    | [_], _ => simp [pairUp]
    | a :: b :: r, h => exact absurd rfl (h a b r)

/-- A frame judged valid is the burst's own bytes, with suitable length, addresses and codes. -/
structure Frame.Judged (own : Nat) (l : List Symbol) (f : Frame) : Prop where
  size : (nibbles l).length / 2 = f.size
  suits : lengthSuits f.kind f.payload.length = true
  addresses : addressesAllowed own f.kind f.dest f.source = true
  codes : codesDefined f.kind f.payload = true

theorem Frame.judged {own : Nat} {l : List Symbol} {f : Frame} (h : judge own l = .valid f) : f.Judged own l := by
  unfold judge at h
  dsimp only at h
  split at h
  · cases h
  split at h
  · cases h
  split at h
  · cases h
  rename_i hshort _
  have hlen : (pairUp (nibbles l)).length = (nibbles l).length / 2 := pairUp_length _
  have hmin : 6 ≤ (pairUp (nibbles l)).length := by
    simp only [Bool.or_eq_true, decide_eq_true_eq, not_or] at hshort
    omega
  unfold judgeFields at h
  split at h
  · rename_i dest source kind len rest hl
    rw [hl] at hlen hmin
    simp only [List.length_cons] at hlen hmin
    dsimp only at h
    split at h
    · cases h
    split at h
    · cases h
    split at h
    · rename_i k _ hpass
      cases h
      simp only [Bool.and_eq_true] at hpass
      obtain ⟨⟨h1, h2⟩, h3⟩ := hpass
      refine ⟨?_, h1, h2, h3⟩
      rw [← hlen, Frame.size, List.length_take]
      omega
    · cases h
  · cases h

theorem Frame.Judged.claims {own : Nat} {l : List Symbol} {f : Frame} (h : f.Judged own l) :
    claimsNeeded ((nibbles l).length / 2) = if f.size ≤ 128 then 1 else 2 := by
  rw [h.size]
  unfold claimsNeeded
  rw [if_neg (by unfold Frame.size; omega)]

/-! ### Conditions no entry refers to (R157, R159) -/

theorem State.condNotice_unreferenced {c : CondId} (h : s.refs c = []) : s.condNotice c = s := by
  unfold State.condNotice
  rw [h]

theorem State.cleared_unreferenced {c : CondId} (h : s.refs c = []) : s.cleared c = s := by
  unfold State.cleared
  rw [h, State.condNotice_unreferenced h]
  rfl

theorem State.raised_unreferenced {c : CondId} (h : s.refs c = []) (hk : c.kind ≠ .panel) : s.raised c = s := by
  unfold State.raised
  dsimp only
  rw [State.condNotice_unreferenced h, h, if_neg fun hc => hk hc.1]
  rfl

/-- A level that no entry refers to changes as no event, unless it is a PANEL's (R165). -/
theorem State.changed_unreferenced {c : CondId} (h : s.refs c = []) (hk : c.kind ≠ .panel) (b : Bool) : s.changed c b = s := by
  unfold State.changed
  split
  · rfl
  · split
    · exact State.raised_unreferenced h hk
    · exact State.cleared_unreferenced h

theorem State.refs_modPort (c : CondId) (p : Nat) (f : Port → Port) : (s.modPort p f).refs c = s.refs c := rfl

/-- The link, rate and storm side of a port is as it was. -/
structure Port.SameLevels (P Q : Port) : Prop where
  link : Q.link = P.link
  mode : Q.mode = P.mode
  rate : Q.rate = P.rate
  limiting : Q.limiting = P.limiting

/-- A port written without a change of level beside SILENT, which no entry refers to. -/
theorem State.setPort_unheard {p : Nat} {f : Port → Port} (hr : s.refs ⟨.silent, p⟩ = [])
    (h : Port.SameLevels (s.port p) (f (s.port p))) : s.setPort p f = s.modPort p f := by
  by_cases hp : p < 12
  · have hport : (s.modPort p f).port p = f (s.port p) := by rw [State.port_modPort, if_pos ⟨rfl, hp⟩]
    unfold State.setPort
    dsimp only
    rw [State.changed_same (c := ⟨.link, p⟩),
      State.changed_unreferenced (s := s.modPort p f) (c := ⟨.silent, p⟩) hr (by simp),
      State.changed_same (c := ⟨.babble, p⟩), State.changed_same (c := ⟨.rate, p⟩), State.changed_same (c := ⟨.storm, p⟩)]
    all_goals simp only [State.level, hport, h.link, h.mode, h.rate, h.limiting]
  · have hid : ∀ g, s.modPort p g = s := fun g => by rw [State.modPort, Net.modPort_outside _ _ _ hp]
    unfold State.setPort
    dsimp only
    rw [hid]
    simp only [State.changed_same]

/-- A frame judged valid, no entry referring to the SILENT condition of its port (R26). -/
theorem State.heard_unreferenced {p : Nat} (hr : s.refs ⟨.silent, p⟩ = []) :
    s.heard p = s.modPort p fun P => { P with silenceTimer := some P.record.silenceTime, silent := false } :=
  State.setPort_unheard hr ⟨rfl, rfl, rfl, rfl⟩

/-! ### LOCAL LOOP (R32) -/

theorem State.loopEnd_eq (p : Nat) (k : Count) (s : State) :
    s.loopEnd p k = s.modPort p fun P => { P with loop := none, counters := P.counters.count k } := by
  unfold State.loopEnd State.modPort
  rw [Net.count, Net.modPort_modPort]

/-- The end of the transmission of a frame in the loop (R20, R32). -/
theorem State.transmitEnd_loop {p : Nat} {x : Sending} {b : Burst} (hx : (s.port p).sending = some x)
    (hb : (s.port p).loop = some b) :
    s.transmitEnd p = { s.loopReceive p x.frame with net := (s.loopReceive p x.frame).net.transmitEnd p } := by
  have hl : (s.port p).looped = some x.frame := by
    unfold Port.looped
    rw [hb, hx]
  unfold State.transmitEnd
  rw [hl]

/-- A looped frame that leaves the loop empty ends its transmission as one on the line. -/
theorem State.exec_transmitEnd_loop {p : Fin 12} {x : Sending} {b : Burst} {f : Port → Port}
    (hx : (s.port p).sending = some x) (hb : (s.port p).loop = some b)
    (h : s.loopReceive p x.frame = s.modPort p f) (hf : ∀ P, (f P).loop = none) :
    exec (.transmitEnd p) s = exec (.transmitEnd p) (s.modPort p f) := by
  refine congrArg Host.Outcome.next ?_
  rw [State.transmitEnd_loop hx hb, h, State.transmitEnd_line (.inl (by rw [State.port_modPort_self, hf]))]

theorem claimsNeeded_pos {k : Nat} (h : 0 < k) : 1 ≤ claimsNeeded k := by
  unfold claimsNeeded
  rw [if_neg (by omega)]
  split <;> omega

theorem Frame.size_pos (f : Frame) : 0 < f.size := by unfold Frame.size; omega

/-- The mark short of buffer of a looped frame, its claims complete (R32, R42). -/
theorem State.loop_short {p : Fin 12} {b : Burst} (hb : (s.port p).loop = some b) (k : Nat) (hk : 1 ≤ k)
    (hshort : b.short = true ∨ (b.short = false ∧ s.net.used p + 2 ≤ s.net.reservation p)) :
    ∃ o, s.net.completeClaims .loop p k = s.net.modPort p (Port.setLane .loop o) ∧
      ((s.net.modPort p (Port.setLane .loop o)).port p).isShort .loop = b.short := by
  have hs : (s.net.port p).isShort .loop = b.short := by
    unfold Port.isShort
    change (match (s.port p).loop with | some b => b.short | none => false) = _
    rw [hb]
  obtain ⟨o, ho, h1, h2⟩ := s.net.completeClaims_spec .loop p k p.isLt
  refine ⟨o, ho, ?_⟩
  have hlane : ∀ c : Burst, o = some c → ((s.net.modPort p (Port.setLane .loop o)).port p).isShort .loop = c.short :=
    fun c hc => by rw [Net.port_modPort_self, Port.isShort_eq, Port.lane_setLane, hc]; rfl
  rcases hshort with h | ⟨h, hu⟩
  · obtain ⟨c, hc, hcs⟩ := h1 (hs.trans h)
    rw [hlane c hc, hcs, h]
  · obtain ⟨c, j, hc, -, hg, -⟩ := h2 (hs.trans h) hu hk
    rw [hlane c hc, hg.short, h]

theorem State.loopReceive_malformed {p : Fin 12} {f : Frame} (hj : judge s.part.own (symbolsOf f.bytes) = .malformed) :
    s.loopReceive p f = s.modPort p fun P =>
      { P with loop := none, counters := { P.counters with malformed := bump P.counters.malformed } } := by
  obtain ⟨o, ho⟩ := s.net.completeClaims_lane .loop p (claimsNeeded f.size) p.isLt
  unfold State.loopReceive
  dsimp only
  rw [hj, ho]
  dsimp only
  rw [State.loopEnd_eq]
  exact (State.modPort_modPort s p _ _).trans (State.modPort_congr rfl)

/-- A looped frame judged valid, no entry referring to the SILENT condition of its port (R26, R32, R42). -/
theorem State.loopValid_eq {p : Nat} (hr : s.refs ⟨.silent, p⟩ = []) : s.loopValid p = s.modPort p fun P =>
    { P with
      loop := none, silent := false, silenceTimer := some P.record.silenceTime
      counters := { P.counters with
        received := bump P.counters.received
        noBuffer := if (s.port p).isShort .loop then bump P.counters.noBuffer else P.counters.noBuffer } } := by
  have hheard : (s.loopEnd p .received).heard p = (s.modPort p fun P =>
      { P with loop := none, counters := P.counters.count .received }).modPort p fun P =>
        { P with silenceTimer := some P.record.silenceTime, silent := false } := by
    rw [State.loopEnd_eq, State.heard_unreferenced (by rw [State.refs_modPort]; exact hr)]
  unfold State.loopValid
  dsimp only
  rw [hheard, State.modPort_modPort]
  split
  · exact (State.modPort_modPort s p _ _).trans (State.modPort_congr rfl)
  · exact State.modPort_congr rfl

theorem State.loopReceive_valid {p : Fin 12} {f g : Frame} {b : Burst} (hb : (s.port p).loop = some b)
    (hj : judge s.part.own (symbolsOf f.bytes) = .valid g) (hr : s.refs ⟨.silent, p⟩ = [])
    (hshort : b.short = true ∨ (b.short = false ∧ s.net.used p + 2 ≤ s.net.reservation p)) :
    s.loopReceive p f = s.modPort p fun P =>
      { P with
        loop := none, silent := false, silenceTimer := some P.record.silenceTime
        counters := { P.counters with
          received := bump P.counters.received
          noBuffer := if b.short then bump P.counters.noBuffer else P.counters.noBuffer } } := by
  obtain ⟨o, ho, hs⟩ := State.loop_short hb (claimsNeeded f.size) (claimsNeeded_pos f.size_pos) hshort
  unfold State.loopReceive
  dsimp only
  rw [hj, ho]
  have hshort : ((s.modPort p (Port.setLane .loop o)).port p).isShort .loop = b.short := hs
  change (s.modPort p (Port.setLane .loop o)).loopValid p = _
  rw [State.loopValid_eq (by rw [State.refs_modPort]; exact hr), hshort]
  exact (State.modPort_modPort s p _ _).trans (State.modPort_congr rfl)

/-! ### A valid frame on the line (R26, R38, R42) -/

/-- A port as a frame judged valid leaves it, its burst still held. -/
def Port.holding (b : Burst) (P : Port) : Port := { P.afterValid with burst := some b }

theorem State.HasBlocks.not_short {p : Nat} (h : s.HasBlocks p) : (s.port p).isShort .line = false := by
  unfold Port.isShort
  cases hb : (s.port p).burst with
  | none => change (match (s.port p).burst with | some b => b.short | none => false) = _; rw [hb]
  | some b => change (match (s.port p).burst with | some b => b.short | none => false) = _; rw [hb]; exact h.2 b hb

theorem State.port_received {p : Fin 12} (f : Port → Port) :
    ({ s.modPort p f with net := (s.modPort p f).net.count p .received } : State) =
      s.modPort p fun P => { f P with counters := (f P).counters.count .received } := by
  change (s.modPort p f).modPort p _ = _
  rw [State.modPort_modPort]

/-- A burst with its blocks, judged valid: the port holds it as it is received, and the test mode disposes of it. -/
theorem State.frameReceived_valid {p : Fin 12} {l : List Symbol} {f : Frame} (hr : s.phase = .running)
    (hu : (s.port p).link = .up) (hm : (s.port p).mode ≠ .localLoop) (hb : s.HasBlocks p)
    (hj : judge s.part.own l = .valid f) : ∃ b : Burst, b.short = false ∧ 1 ≤ b.claims ∧
      ((s.port p).burst = none → b.tags = List.replicate (if f.size ≤ 128 then 1 else 2) (.reserved p)) ∧
      ∃ u, EventFrame (s.modPort p (Port.holding b)) u ∧
        (s.refs ⟨.silent, p⟩ = [] → u = s.modPort p (Port.holding b)) ∧
        exec (.frameReceived p l) s = .next (u.dispose p f) := by
  have hclaims := (Frame.judged hj).claims
  have hpos : 1 ≤ claimsNeeded ((nibbles l).length / 2) := by rw [hclaims]; split <;> omega
  obtain ⟨o, ho, -, hspec⟩ := s.net.completeClaims_spec .line p (claimsNeeded ((nibbles l).length / 2)) p.isLt
  obtain ⟨b, j, rfl, hone, hg, hj'⟩ := hspec hb.not_short hb.1 hpos
  generalize hv : (s.modPort p fun P =>
    { P.setLane .line (some b) with counters := (P.setLane .line (some b)).counters.count .received }) = v
  have hvu : v.modPort p (fun P => { P with silenceTimer := some P.record.silenceTime, silent := false }) =
      s.modPort p (Port.holding b) := by
    rw [← hv, State.modPort_modPort]
    exact State.modPort_congr rfl
  have hevent : EventFrame (s.modPort p (Port.holding b)) (v.heard p) := by
    rw [← hvu]
    exact State.setPort_event p _ v
  refine ⟨b, hg.short, hone, fun hnone => ?_, v.heard p, hevent, fun href => ?_, ?_⟩
  · have htags := hg.tags
    rw [show ((s.net.port p).lane .line) = none from hnone] at htags
    have hc : (s.net.port p).claims .line = 0 := by
      rw [Port.claims_eq, show ((s.net.port p).lane .line) = none from hnone]; rfl
    rw [htags, hj' hc, hclaims]
    change List.replicate _ _ = _
    split <;> rfl
  · rw [State.heard_unreferenced (by rw [← hv, State.refs_modPort]; exact href), hvu]
  · rw [State.frameReceived_eq hr hu hm]
    refine congrArg Host.Outcome.next ?_
    have hnot : ((v.heard p).port p).isShort .line = false := by
      have hport : (s.modPort p (Port.holding b)).port p = Port.holding b (s.port p) := State.port_modPort_self s p _
      unfold Port.isShort
      change (match ((v.heard p).port p).burst with | some b => b.short | none => false) = _
      rcases hevent.tests p with ⟨-, h, -⟩ | ⟨-, -, h, -⟩
      · rw [h, hport]; exact hg.short
      · rw [h]
    unfold State.burstEnded
    dsimp only
    rw [hj, ho]
    dsimp only
    change (s.modPort p (Port.setLane .line (some b))).validFrame p f = _
    unfold State.validFrame
    dsimp only
    rw [State.port_received, hv, if_neg (by rw [hnot]; simp)]

/-- A frame queued back on its own port (R33): with room it is its tail, with a single reference. -/
theorem Net.echo_room {n : Net} (hs : n.Sound) (p : Nat) (f : Frame) (tags : List BlockTag)
    (h : (n.port p).queue.length < Config.queueCapacity) :
    ((n.hold f tags).enqueue p n.nextId).1.release n.nextId =
      { (n.modPort p fun P => { P with queue := P.queue ++ [n.nextId] }) with
        frames := n.frames ++ [⟨n.nextId, f, tags, 1⟩], nextId := n.nextId + 1 } := by
  have hnot : ∀ y ∈ n.frames, y.id ≠ n.nextId := fun y hy => Nat.ne_of_lt (hs.ids y hy)
  have henq : (n.hold f tags).enqueue p n.nextId =
      (((n.hold f tags).modPort p fun P => { P with queue := P.queue ++ [n.nextId] }).addRef n.nextId, true) := if_pos h
  have hframes : addRefs n.nextId 1 (n.frames ++ [⟨n.nextId, f, tags, 1⟩]) = n.frames ++ [⟨n.nextId, f, tags, 2⟩] := by
    rw [addRefs, List.map_append]
    congr 1
    · exact addRefs_of_not_mem _ _ _ hnot
    · simp
  have hrel := release_append n.frames ⟨n.nextId, f, tags, 2⟩ hs.refs hnot
  rw [henq]
  change ({ (n.modPort p fun P => { P with queue := P.queue ++ [n.nextId] }) with
    frames := ((addRefs n.nextId 1 (n.frames ++ [⟨n.nextId, f, tags, 1⟩])).map _).filter _, nextId := n.nextId + 1 } : Net) = _
  rw [hframes]
  exact congrArg (fun l => ({ (n.modPort p fun P => { P with queue := P.queue ++ [n.nextId] }) with
    frames := l, nextId := n.nextId + 1 } : Net)) hrel

/-- Without room it is dropped as QUEUE_FULL. -/
theorem Net.echo_full {n : Net} (hs : n.Sound) (p : Nat) (f : Frame) (tags : List BlockTag)
    (h : ¬ (n.port p).queue.length < Config.queueCapacity) :
    ((n.hold f tags).enqueue p n.nextId).1.release n.nextId = { n.count p .queueFull with nextId := n.nextId + 1 } := by
  have hnot : ∀ y ∈ n.frames, y.id ≠ n.nextId := fun y hy => Nat.ne_of_lt (hs.ids y hy)
  have henq : (n.hold f tags).enqueue p n.nextId = ((n.hold f tags).count p .queueFull, false) := if_neg h
  have hrel := release_append n.frames ⟨n.nextId, f, tags, 1⟩ hs.refs hnot
  rw [henq]
  exact congrArg (fun l => ({ n.count p .queueFull with frames := l, nextId := n.nextId + 1 } : Net))
    (hrel.trans (List.append_nil _))

theorem State.holding_mode {p : Fin 12} (b : Burst) (m : TestMode) (h : (s.port p).mode = m) :
    ((s.modPort p (Port.holding b)).port p).mode = m := by rw [State.port_modPort_self]; exact h

theorem State.drop_holding (p : Nat) (b : Burst) : (s.modPort p (Port.holding b)).drop p = s.modPort p Port.afterValid := by
  rw [State.drop_eq, State.modPort_modPort]
  exact State.modPort_congr rfl

/-- What REMOTE LOOP makes of a valid frame (R33). -/
theorem State.dispose_remote {p : Fin 12} {b : Burst} {f : Frame} (hm : (s.port p).mode = .remoteLoop) :
    (s.modPort p (Port.holding b)).dispose p f = { s.modPort p Port.afterValid with
      net := (((s.net.modPort p Port.afterValid).hold f b.tags).enqueue p s.net.nextId).1.release s.net.nextId } := by
  have hnet : (s.net.modPort p (Port.holding b)).dropBurst p = s.net.modPort p Port.afterValid := by
    rw [Net.dropBurst, Net.modPort_modPort]
    exact Net.modPort_congr rfl
  have htags : burstTags ((s.net.modPort p (Port.holding b)).port p).burst = b.tags := by rw [Net.port_modPort_self]; rfl
  unfold State.dispose
  rw [State.holding_mode b _ hm]
  change ({ s.modPort p (Port.holding b) with net := (((((s.net.modPort p (Port.holding b)).dropBurst p).hold f
    (burstTags ((s.net.modPort p (Port.holding b)).port p).burst)).enqueue p s.net.nextId).1.release s.net.nextId) } : State) = _
  rw [hnet, htags]
  rfl

/-- What PATTERN makes of a valid frame (R35). -/
theorem State.dispose_pattern {p : Fin 12} {b : Burst} {f : Frame} (hm : (s.port p).mode = .pattern) (hk : f.kind = .pattern)
    {K : Checker} {bad : Bool} (hK : (s.port p).checker.check (unpackBits (f.payload.drop 2)) = (K, bad)) :
    (s.modPort p (Port.holding b)).dispose p f = s.modPort p fun P =>
      { P.afterValid with checker := K, counters := { P.afterValid.counters with
        patternErrors := if bad = true then bump P.counters.patternErrors else P.counters.patternErrors } } := by
  have hcheck : ((s.net.modPort p (Port.holding b)).port p).checker.check (unpackBits (f.payload.drop 2)) = (K, bad) := by
    rw [Net.port_modPort_self]; exact hK
  unfold State.dispose
  rw [State.holding_mode b _ hm]
  dsimp only
  rw [if_pos hk]
  change ({ s.modPort p (Port.holding b) with net := ((s.net.modPort p (Port.holding b)).setChecker p
    (((s.net.modPort p (Port.holding b)).port p).checker.check (unpackBits (f.payload.drop 2)))).dropBurst p } : State) = _
  rw [hcheck]
  unfold Net.setChecker
  dsimp only
  cases bad
  · rw [if_neg (by simp), Net.dropBurst, Net.modPort_modPort, Net.modPort_modPort]
    exact congrArg (fun n => ({ s with net := n } : State)) (Net.modPort_congr rfl)
  · rw [if_pos rfl, Net.count, Net.dropBurst, Net.modPort_modPort, Net.modPort_modPort, Net.modPort_modPort]
    exact congrArg (fun n => ({ s with net := n } : State)) (Net.modPort_congr rfl)

/-- A frame discarded as CHECK is bad IN SYNC, and breaks the run of good ones OUT OF SYNC (R35). -/
theorem Checker.checkDiscard_eq (K : Checker) : K.checkDiscard =
    (if K.inSync then
      (if 3 ≤ K.badRun then ⟨false, 0, K.badRun + 1, (patternDraw 512 K.register).2⟩
        else { K with badRun := K.badRun + 1, register := (patternDraw 512 K.register).2 })
     else { K with goodRun := 0 }, K.inSync) := by
  unfold Checker.checkDiscard Checker.bad
  dsimp only
  generalize (patternDraw 512 K.register).2 = q
  cases hs : K.inSync
  · rfl
  · have h4 : 4 ≤ K.badRun + 1 ↔ 3 ≤ K.badRun := by omega
    simp only [if_true, h4]

/-- A CHECK discard in PATTERN counts for the checker (R8, R35). -/
theorem State.checkDiscard_pattern {p : Fin 12} (hm : (s.port p).mode = .pattern) : s.checkDiscard p = s.modPort p fun P =>
    { P with
      burst := none
      checker := P.checker.checkDiscard.1
      counters := { P.counters with
        check := bump P.counters.check
        patternErrors := if P.checker.checkDiscard.2 then bump P.counters.patternErrors else P.counters.patternErrors } } := by
  have hport : (s.discard p .check).port p =
      { s.port p with burst := none, counters := (s.port p).counters.count .check } := by
    rw [State.discard_eq, State.port_modPort_self]
  unfold State.checkDiscard
  dsimp only
  rw [hport, if_pos (by exact hm), State.discard_eq]
  unfold Net.setChecker
  dsimp only
  cases hbad : (s.port p).checker.checkDiscard.2
  · rw [if_neg (by simp)]
    exact (State.modPort_modPort s p _ _).trans (State.modPort_congr (by simp only [hbad]; rfl))
  · rw [if_pos rfl, Net.count, Net.modPort_modPort]
    exact (State.modPort_modPort s p _ _).trans (State.modPort_congr (by simp only [hbad]; rfl))

/-- Settles O13: the loop's end, the disposal of a valid frame by the test mode, and the checker. -/
theorem testModesReceiveTheirFrames : Obligations.TestModesReceiveTheirFrames := by
  unfold Obligations.TestModesReceiveTheirFrames
  refine ⟨fun s p x b hx hb => ⟨fun hj => ?malformed, fun f hj href hshort => ?loop⟩,
    fun s p l hr hu hb href => ⟨fun f hj => ?valid, fun s p l hr hu hm hj => ?check⟩, Checker.check_spec⟩
  case malformed => exact State.exec_transmitEnd_loop hx hb (State.loopReceive_malformed hj) fun _ => rfl
  case loop => exact State.exec_transmitEnd_loop hx hb (State.loopReceive_valid hb hj href hshort) fun _ => rfl
  case valid =>
    have hexec : (s.port p).mode ≠ .localLoop → ∃ b : Burst,
        ((s.port p).burst = none → b.tags = List.replicate (if f.size ≤ 128 then 1 else 2) (.reserved p)) ∧
        exec (.frameReceived p l) s = .next ((s.modPort p (Port.holding b)).dispose p f) := fun hm => by
      obtain ⟨b, -, -, htags, u, -, hu', he⟩ := State.frameReceived_valid hr hu hm hb hj
      exact ⟨b, htags, by rw [he, hu' href]⟩
    refine ⟨fun hm hs => ?_, fun hm => ⟨fun hk => ?_, fun hk => ?_⟩, fun hm hk => ?_⟩
    · obtain ⟨b, htags, he⟩ := hexec (by simp [hm])
      rw [State.dispose_remote hm] at he
      have hqueue : ((s.net.modPort p Port.afterValid).port p).queue = (s.port p).queue := by
        rw [Net.port_modPort_self]; rfl
      refine ⟨_, ⟨s.net.nextId, f, b.tags, 1⟩, he, rfl, rfl, rfl, htags, fun hroom => ⟨rfl, ?_⟩, fun hfull => ⟨rfl, ?_⟩⟩
      · have := Net.echo_room (hs.modPort p Port.afterValid) p f b.tags (by rw [hqueue]; exact hroom)
        refine this.trans ?_
        rw [Net.modPort_modPort]
        rfl
      · have := Net.echo_full (hs.modPort p Port.afterValid) p f b.tags (by rw [hqueue]; exact Nat.not_lt.2 hfull)
        refine this.trans ?_
        rw [Net.count, Net.modPort_modPort]
        rfl
    · obtain ⟨b, -, he⟩ := hexec (by simp [hm])
      rw [he, State.dispose, State.holding_mode b _ hm]
      dsimp only
      rw [if_neg hk, State.drop_holding]
    · obtain ⟨b, -, he⟩ := hexec (by simp [hm])
      exact ⟨_, _, rfl, by rw [he, State.dispose_pattern hm hk rfl]⟩
    · obtain ⟨b, -, he⟩ := hexec (by simp [hm])
      rw [he, State.dispose, State.holding_mode b _ hm]
      dsimp only
      rw [State.engine, if_pos hk, State.drop_holding]
  case check =>
    obtain ⟨o, ho⟩ := s.net.completeClaims_lane .line p (claimsNeeded ((nibbles l).length / 2)) p.isLt
    rw [State.frameReceived_eq hr hu (by simp [hm])]
    refine congrArg Host.Outcome.next ?_
    unfold State.burstEnded
    dsimp only
    rw [hj, ho]
    dsimp only
    change (s.modPort p (Port.setLane .line o)).checkDiscard p = _
    rw [State.checkDiscard_pattern (by rw [State.port_modPort_self]; exact hm), State.modPort_modPort]
    refine State.modPort_congr ?_
    rw [Checker.checkDiscard_eq]
    rfl

end Sys2Proof.Machine
end

section
/-! PROOFS. Every request is read back from the bytes that carry it (O60): a reader undoes its writer and leaves the
bytes that follow (R172, R173). -/

namespace Sys2Proof.Machine

/-! ### A reader undoes a writer -/

/-- The reader `g` takes what `bytes` wrote for `x` off the front and leaves the rest. -/
abbrev ReadsBack {α : Type} (g : List Byte → Option (α × List Byte)) (bytes : List Byte) (x : α) : Prop :=
  ∀ l, g (bytes ++ l) = some (x, l)

theorem get8_put8 {n : Nat} (h : FitsByte n) : ReadsBack get8 (put8 n) n := by
  intro l
  simp [put8, get8, Nat.mod_eq_of_lt h]

theorem get16_put16 {n : Nat} (h : FitsHalf n) : ReadsBack get16 (put16 n) n := by
  intro l
  simp only [put16, get16, List.cons_append, List.nil_append, BitVec.toNat_ofNat, Option.some.injEq, Prod.mk.injEq,
    and_true]
  omega

theorem get32_put32 {n : Nat} (h : FitsQuad n) : ReadsBack get32 (put32 n) n := by
  intro l
  simp only [put32, get32, List.cons_append, List.nil_append, BitVec.toNat_ofNat, Option.some.injEq, Prod.mk.injEq,
    and_true]
  omega

theorem toInt_ofInt_of_fits {z : Int} (h : FitsInt z) : (BitVec.ofInt 32 z).toInt = z := by
  rw [BitVec.toInt_ofInt]
  exact Int.bmod_eq_of_le (by simpa using h.1) (by have := h.2; norm_num; omega)

theorem getInt_putInt {z : Int} (h : FitsInt z) : ReadsBack getInt (putInt z) z := by
  intro l
  have hread := get32_put32 (n := (BitVec.ofInt 32 z).toNat) (BitVec.isLt _) l
  simp only [getInt, putInt, hread, Option.map_some, BitVec.ofNat_toNat, BitVec.setWidth_eq, toInt_ofInt_of_fits h]

theorem getBool_putBool (b : Bool) : ReadsBack getBool (putBool b) b := by
  intro l
  cases b <;> rfl

/-- A one-byte code is read back as the value it stands for. -/
theorem getCode_put8 {α : Type} {f : Nat → Option α} {n : Nat} {x : α} (hn : FitsByte n) (hx : f n = some x) :
    ReadsBack (getCode f) (put8 n) x := by
  intro l
  simp [getCode, get8_put8 hn l, hx]

theorem getCode_roleCode (r : Role) : ReadsBack (getCode roleOf) (put8 (roleCode r)) r :=
  getCode_put8 (by cases r <;> decide) (by cases r <;> rfl)

theorem getCode_typeCode (t : ChannelType) : ReadsBack (getCode typeOf) (put8 (typeCode t)) t :=
  getCode_put8 (by cases t <;> decide) (by cases t <;> rfl)

theorem getCode_treatmentCode (t : Sys2Proof.Treatment) : ReadsBack (getCode treatmentOf) (put8 (treatmentCode t)) t :=
  getCode_put8 (by cases t <;> decide) (by cases t <;> rfl)

theorem getCode_holdModeCode (m : HoldMode) : ReadsBack (getCode holdModeOf) (put8 (holdModeCode m)) m :=
  getCode_put8 (by cases m <;> decide) (by cases m <;> rfl)

theorem getCode_condCode (k : CondKind) : ReadsBack (getCode condOf) (put8 (condCode k)) k :=
  getCode_put8 (by cases k <;> decide) (by cases k <;> rfl)

theorem classCode_lt (c : Option Severity) : classCode c < 4 := by
  rcases c with _ | _ | _ | _ <;> decide

theorem classOf_classCode (c : Option Severity) : classOf (classCode c) = some c := by
  rcases c with _ | _ | _ | _ <;> rfl

theorem getCode_classCode (c : Option Severity) : ReadsBack (getCode classOf) (put8 (classCode c)) c :=
  getCode_put8 (Nat.lt_trans (classCode_lt c) (by decide)) (classOf_classCode c)

/-- A reader runs on from a field that is read back. -/
theorem ReadsBack.bind {α β : Type} {g : List Byte → Option (α × List Byte)} {bytes l : List Byte} {x : α}
    {k : α × List Byte → Option β} {y : Option β} (h : ReadsBack g bytes x) (hk : k (x, l) = y) :
    (g (bytes ++ l) >>= k) = y := by
  rw [h l]
  exact hk

/-! ### Pairs, optional fields and lists -/

theorem getPair_putPair {p : Nat × Nat} (h : FitsByte p.1 ∧ FitsByte p.2) : ReadsBack getPair (putPair p) p := by
  intro l
  simp [getPair, putPair, get8_put8 h.1, get8_put8 h.2]

theorem getPoint_putPoint {p : Int × Int} (h : FitsInt p.1 ∧ FitsInt p.2) : ReadsBack getPoint (putPoint p) p := by
  intro l
  simp [getPoint, putPoint, getInt_putInt h.1, getInt_putInt h.2]

theorem getGauge_putGauge {g : Nat × Nat} (h : FitsByte g.1 ∧ FitsHalf g.2) : ReadsBack getGauge (putGauge g) g := by
  intro l
  simp [getGauge, putGauge, get8_put8 h.1, get16_put16 h.2]

/-- An absent field occupies its full size; a present one is read by its own reader (R172). -/
theorem getOpt_putOpt {α : Type} {size : Nat} {put : α → List Byte} {g : List Byte → Option (α × List Byte)}
    {o : Option α} (h : ∀ x, o = some x → ReadsBack g (put x) x) : ReadsBack (getOpt size g) (putOpt size put o) o := by
  intro l
  cases o with
  | none => simp [getOpt, putOpt, getBool]
  | some x => simp [getOpt, putOpt, getBool, h x rfl l]

theorem getMany_flatMap {α : Type} {put : α → List Byte} {g : List Byte → Option (α × List Byte)} :
    ∀ {xs : List α}, (∀ x ∈ xs, ReadsBack g (put x) x) → ReadsBack (getMany g xs.length) (xs.flatMap put) xs
  | [], _, l => rfl
  | x :: xs, h, l => by
    have hrest := getMany_flatMap (fun y hy => h y (List.mem_cons_of_mem x hy)) l
    simp [getMany, List.append_assoc, h x List.mem_cons_self, hrest]

theorem getList_putList {α : Type} {put : α → List Byte} {g : List Byte → Option (α × List Byte)} {xs : List α}
    (hlen : FitsByte xs.length) (h : ∀ x ∈ xs, ReadsBack g (put x) x) : ReadsBack (getList g) (putList put xs) xs := by
  intro l
  simp [getList, putList, get8_put8 hlen, getMany_flatMap h l]

theorem getOpt_putInt {o : Option Int} (h : FitsOptInt o) : ReadsBack (getOpt 4 getInt) (putOpt 4 putInt o) o :=
  getOpt_putOpt fun x hx => getInt_putInt (by subst hx; exact h)

/-! ### Records -/

theorem getPort_putPort {r : PortRecord} (h : r.Fits) : ReadsBack getPort (putPort r) r := by
  obtain ⟨hres, hsil, hwin, hhi, hlo⟩ := h
  intro l
  simp only [getPort, putPort, List.append_assoc, Option.bind_eq_bind, Option.bind_some, getCode_roleCode, getBool_putBool, get8_put8 hres, get8_put8 hsil, get8_put8 hwin,
    get16_put16 hhi, get16_put16 hlo]

theorem getPartWide_putPartWide {r : PartWide} (h : r.Fits) : ReadsBack getPartWide (putPartWide r) r := by
  obtain ⟨hown, haging, hlen, hb⟩ := h
  intro l
  simp only [getPartWide, putPartWide, List.append_assoc, Option.bind_eq_bind, Option.bind_some, get8_put8 hown, get16_put16 haging,
    getList_putList hlen (fun b hb' => getPair_putPair (hb b hb'))]

theorem getChannel_putChannel {r : ChannelRecord} (h : r.Fits) : ReadsBack getChannel (putChannel r) r := by
  obtain ⟨hnode, hpoint, hlen, htable, hmin, hmax, hstep, hlimit, hreject, hstale, hhigh, hlow⟩ := h
  intro l
  simp only [putChannel, List.append_assoc]
  exact (getBool_putBool _).bind <| (get8_put8 hnode).bind <| (get8_put8 hpoint).bind <| (getCode_typeCode _).bind <|
    (getList_putList hlen fun b hb => getPoint_putPoint (htable b hb)).bind <| (getInt_putInt hmin).bind <|
    (getInt_putInt hmax).bind <| (get32_put32 hstep).bind <| (get32_put32 hlimit).bind <| (get8_put8 hreject).bind <|
    (get16_put16 hstale).bind <| (getCode_treatmentCode _).bind <| (getOpt_putInt hhigh).bind <|
    (getOpt_putInt hlow).bind rfl

theorem getSpan_putSpan {r : SpanRecord} (h : r.Fits) : ReadsBack getSpan (putSpan r) r := by
  obtain ⟨hup, hdown, hlen, hseg, hcap, hpush, hpop, hgauge, hmarker⟩ := h
  have hgauge' : ReadsBack (getOpt 3 getGauge) (putOpt 3 putGauge r.gauge) r.gauge :=
    getOpt_putOpt fun g hg => getGauge_putGauge (by rw [hg] at hgauge; exact hgauge)
  have hmarker' : ReadsBack (getOpt 1 get8) (putOpt 1 put8 r.marker) r.marker :=
    getOpt_putOpt fun n hn => get8_put8 (by rw [hn] at hmarker; exact hmarker)
  intro l
  simp only [putSpan, List.append_assoc]
  exact (getBool_putBool _).bind <| (get8_put8 hup).bind <| (get8_put8 hdown).bind <| (get16_put16 hlen).bind <|
    (get16_put16 hseg).bind <| (get8_put8 hcap).bind <| (get8_put8 hpush).bind <| (get8_put8 hpop).bind <|
    hgauge'.bind <| hmarker'.bind rfl

theorem getStand_putStand {r : StandRecord} (h : r.Fits) : ReadsBack getStand (putStand r) r := by
  obtain ⟨hnode, hport, hlen, hextras, hforce, hmod, hzero, hlo, hhi, hopen, hrate, hmove, hband, htime, hon, hoff,
    hfollow, hcount, hhold⟩ := h
  intro l
  unfold putStand
  simp only [List.append_assoc]
  exact (getBool_putBool _).bind <| (get8_put8 hnode).bind <| (get8_put8 hport).bind <|
    (getList_putList hlen fun e he => getPair_putPair (hextras e he)).bind <| (get8_put8 hforce).bind <|
    (get16_put16 hmod).bind <| (getInt_putInt hzero).bind <| (getInt_putInt hlo).bind <| (getInt_putInt hhi).bind <|
    (getInt_putInt hopen).bind <| (get16_put16 hrate).bind <| (get16_put16 hmove).bind <| (get16_put16 hband).bind <|
    (get16_put16 htime).bind <| (get16_put16 hon).bind <| (get16_put16 hoff).bind <| (get32_put32 hfollow).bind <|
    (get8_put8 hcount).bind <| (getCode_holdModeCode _).bind <| (get16_put16 hhold).bind rfl

theorem getPass_putPass {r : PassRecord} (h : r.Fits) : ReadsBack getPass (putPass r) r := by
  obtain ⟨hid, hentry, hexit, hpreset, hlo, hhi, hfb, hff, hmon, hcorr, htrim⟩ := h
  intro l
  simp only [putPass, List.append_assoc]
  exact (get8_put8 hid).bind <| (getInt_putInt hentry).bind <| (getInt_putInt hexit).bind <|
    (getInt_putInt hpreset).bind <| (getInt_putInt hlo).bind <| (getInt_putInt hhi).bind <| (get16_put16 hfb).bind <|
    (get16_put16 hff).bind <| (get16_put16 hmon).bind <| (get16_put16 hcorr).bind <| (get16_put16 htrim).bind rfl

/-- A byte is read back as the mask it is. -/
theorem get8_mask (m : Byte) : ReadsBack get8 [m] m.toNat := fun _ => rfl

theorem getTripEntry_putTripEntry {r : TripEntryRecord} (h : r.Fits) :
    ReadsBack getTripEntry (putTripEntry r) r := by
  obtain ⟨hsource, hdelay⟩ := h
  intro l
  simp only [putTripEntry, List.append_assoc]
  exact (getBool_putBool _).bind <| (getCode_condCode _).bind <| (get8_put8 hsource).bind <|
    (get16_put16 hdelay).bind <| (getCode_classCode _).bind <| (get8_mask _).bind <| by
      simp only [BitVec.ofNat_toNat, BitVec.setWidth_eq]

theorem getOpt_putPass {o : Option PassRecord} (h : FitsOptPass o) :
    ReadsBack (getOpt passSize getPass) (putOpt passSize putPass o) o :=
  getOpt_putOpt fun p hp => getPass_putPass (by subst hp; exact h)

/-! ### Requests by their shape of body -/

/-- A reader undoes its writer at the end of a body. -/
theorem ReadsBack.all {α : Type} {g : List Byte → Option (α × List Byte)} {bytes : List Byte} {x : α}
    (h : ReadsBack g bytes x) : g bytes = some (x, []) := by
  simpa using h []

theorem one_put8 (f : Nat → Request) {n : Nat} (h : FitsByte n) : one f (put8 n) = .ok (f n) := by
  simp [one, whole, (get8_put8 h).all]

theorem two_put8 (f : Nat → Nat → Request) {a b : Nat} (ha : FitsByte a) (hb : FitsByte b) :
    two f (put8 a ++ put8 b) = .ok (f a b) := by
  simp [two, whole, get8_put8 ha (put8 b), (get8_put8 hb).all]

theorem reading_put (f : Bool → Nat → Request) (c : Bool) {n : Nat} (h : FitsByte n) :
    reading f (putBool c ++ put8 n) = .ok (f c n) := by
  simp [reading, whole, getBool_putBool c (put8 n), (get8_put8 h).all]

theorem loading_put {α : Type} {g : List Byte → Option (α × List Byte)} (f : Nat → α → Request) {n : Nat}
    {bytes : List Byte} {x : α} (h : FitsByte n) (hx : ReadsBack g bytes x) :
    loading g f (put8 n ++ bytes) = .ok (f n x) := by
  simp [loading, whole, get8_put8 h bytes, hx.all]

/-- Settles O60, by the shape of the body of each of the request forms. -/
theorem requestsAreReadBack : Obligations.RequestsAreReadBack := by
  unfold Obligations.RequestsAreReadBack
  intro a r h
  cases r with
  | identify c => cases c <;> rfl
  | readPort c n => cases c <;> exact reading_put _ _ h
  | readChannel c n => cases c <;> exact reading_put _ _ h
  | readStand c n => cases c <;> exact reading_put _ _ h
  | readSpan c n k =>
    have hfits : FitsByte n ∧ FitsByte k := by cases c <;> exact h
    simp [requestCode, encodeRequest, decodeRequest, decodeReadSpan, whole, getBool_putBool c,
      get8_put8 hfits.1 (put8 k), (get8_put8 hfits.2).all]
  | readTripLog c n => cases c <;> exact reading_put _ _ h
  | readNodeTable n => exact reading_put (fun _ n => .readNodeTable n) false h
  | loadPort n r => exact loading_put _ h.1 (getPort_putPort h.2)
  | loadPartWide r =>
    simp [requestCode, encodeRequest, decodeRequest, decodeLoadPort, getBool_putBool true (putPartWide r), whole,
      (getPartWide_putPartWide h).all]
  | loadChannel n r => exact loading_put _ h.1 (getChannel_putChannel h.2)
  | loadStand n r p =>
    obtain ⟨hn, hr, hp⟩ := h
    simp [requestCode, encodeRequest, decodeRequest, decodeLoadStand, whole, get8_put8 hn, getStand_putStand hr,
      (getOpt_putPass hp).all]
  | loadSpan n r => exact loading_put _ h.1 (getSpan_putSpan h.2)
  | loadPassCurrent n p =>
    simp [requestCode, encodeRequest, decodeRequest, decodeLoadPass, whole, get8_put8 h.1, getBool_putBool,
      (getPass_putPass h.2).all]
  | loadPassNext n p =>
    simp [requestCode, encodeRequest, decodeRequest, decodeLoadPass, whole, get8_put8 h.1, getBool_putBool,
      (getPass_putPass h.2).all]
  | loadTripEntry n r => exact loading_put _ h.1 (getTripEntry_putTripEntry h.2)
  | loadTripInterval n => exact one_put8 _ h
  | bindNode n p => exact two_put8 _ h.1 h.2
  | unbindNode n => exact one_put8 _ h
  | admitStand n => exact one_put8 _ h
  | bypass n => exact one_put8 _ h
  | switchPass n => exact one_put8 _ h
  | clearHold n => exact one_put8 _ h
  | stop c m =>
    simp [requestCode, encodeRequest, decodeRequest, two, whole, get8_put8 h [m], (get8_mask m).all]
  | resetTrip m => simp [requestCode, encodeRequest, decodeRequest, one, whole, (get8_mask m).all]
  | flushSpan n => exact one_put8 _ h
  | setPortTest p m => exact two_put8 _ h.1 h.2
  | injectError p => exact one_put8 _ h
  | storeEnable => rfl
  | storeDisable => rfl
  | storeSave n => exact one_put8 _ h
  | storeErase n => exact one_put8 _ h
  | storeProtect n => exact one_put8 _ h
  | restart => rfl

end Sys2Proof.Machine
end

section
/-! PROOFS. A valid frame received is handled as the row of its kind (R57, R58, R60). -/

namespace Sys2Proof.Machine

variable {s t u : State}

/-! ### What a reader took is what a writer puts (R1) -/

theorem get8_eq_some {l r : List Byte} {n : Nat} (h : get8 l = some (n, r)) : l = put8 n ++ r := by
  cases l with
  | nil => cases h
  | cons b l =>
    cases h
    simp [put8]

theorem get32_eq_some {l r : List Byte} {n : Nat} (h : get32 l = some (n, r)) : n < 4294967296 ∧ l = put32 n ++ r := by
  match l, h with
  | a :: b :: c :: d :: l, h =>
    cases h
    have ha := a.isLt
    have hb := b.isLt
    have hc := c.isLt
    have hd := d.isLt
    refine ⟨by omega, ?_⟩
    simp only [put32, List.cons_append, List.nil_append, List.cons.injEq, and_true]
    refine ⟨?_, ?_, ?_, ?_⟩ <;> refine BitVec.eq_of_toNat_eq ?_ <;> rw [BitVec.toNat_ofNat] <;> omega

theorem getInt_eq_some {l r : List Byte} {z : Int} (h : getInt l = some (z, r)) : l = putInt z ++ r := by
  unfold getInt at h
  obtain ⟨⟨n, r'⟩, h32, hz⟩ := Option.map_eq_some_iff.1 h
  cases hz
  obtain ⟨hn, rfl⟩ := get32_eq_some h32
  rw [putInt, BitVec.ofInt_toInt, BitVec.toNat_ofNat, Nat.mod_eq_of_lt hn]

theorem qualityOf_eq_some {n : Nat} {q : Quality} (h : qualityOf n = some q) : qualityCode q = n := by
  unfold qualityOf at h
  split at h <;> cases h <;> rfl

theorem driveOf_eq_some {n : Nat} {d : DriveState} (h : driveOf n = some d) : driveCode d = n := by
  unfold driveOf at h
  split at h <;> cases h <;> rfl

/-- The payload of a SAMPLE is what its fields put (R9). -/
theorem putSample_of_getSample {l : List Byte} {x : SampleFields} (hl : l.length = 14) (h : getSample l = some x) :
    putSample x = l := by
  simp only [getSample, Option.bind_eq_bind, Option.bind_eq_some_iff] at h
  obtain ⟨⟨point, l1⟩, h1, ⟨raw, l2⟩, h2, ⟨len, l3⟩, h3, ⟨eng, l4⟩, h4, ⟨q, l5⟩, h5, quality, h6, hx⟩ := h
  cases hx
  obtain ⟨hlen, h3⟩ := get32_eq_some h3
  obtain rfl := get8_eq_some h1
  obtain rfl := getInt_eq_some h2
  subst h3
  obtain rfl := getInt_eq_some h4
  obtain rfl := get8_eq_some h5
  have h0 : l5 = [] := by
    simp only [List.length_append, put8, putInt, put32, List.length_cons, List.length_nil] at hl
    exact List.length_eq_zero_iff.1 (by omega)
  subst h0
  simp only [putSample, qualityOf_eq_some h6, BitVec.toNat_ofNat, Nat.mod_eq_of_lt hlen, List.append_nil, List.append_assoc]
  rfl

/-- The payload of a STATUS is what its fields put (R10). -/
theorem putStatus_of_getStatus {l : List Byte} {x : StatusFields} (hl : l.length = 9) (h : getStatus l = some x) :
    putStatus x = l := by
  simp only [getStatus, Option.bind_eq_bind, Option.bind_eq_some_iff] at h
  obtain ⟨⟨actual, l1⟩, h1, ⟨echo, l2⟩, h2, ⟨d, l3⟩, h3, drive, h4, hx⟩ := h
  cases hx
  obtain rfl := getInt_eq_some h1
  obtain rfl := getInt_eq_some h2
  obtain rfl := get8_eq_some h3
  have h0 : l3 = [] := by
    simp only [List.length_append, put8, putInt, put32, List.length_cons, List.length_nil] at hl
    exact List.length_eq_zero_iff.1 (by omega)
  subst h0
  simp only [putStatus, driveOf_eq_some h4, List.append_nil, List.append_assoc]

/-- A SAMPLE frame judged valid is the frame of its fields. -/
theorem Frame.Judged.sample {own : Nat} {l : List Symbol} {f : Frame} {x : SampleFields} (h : f.Judged own l)
    (hk : f.kind = .sample) (hx : getSample f.payload = some x) : sampleFrameOf f.dest f.source x = f := by
  obtain ⟨dest, source, kind, payload⟩ := f
  dsimp only at hk hx
  subst hk
  have hl : payload.length = 14 := by simpa [lengthSuits] using h.suits
  rw [sampleFrameOf, putSample_of_getSample hl hx]

theorem Frame.Judged.status {own : Nat} {l : List Symbol} {f : Frame} {x : StatusFields} (h : f.Judged own l)
    (hk : f.kind = .status) (hx : getStatus f.payload = some x) : statusFrameOf f.dest f.source x = f := by
  obtain ⟨dest, source, kind, payload⟩ := f
  dsimp only at hk hx
  subst hk
  have hl : payload.length = 9 := by simpa [lengthSuits] using h.suits
  rw [statusFrameOf, putStatus_of_getStatus hl hx]

/-! ### Step 2 of R57: the node table -/

/-- The part runs, and the port passes valid frames inward (R21, R31, R57). -/
structure State.Inward (s : State) (p : Nat) : Prop where
  running : s.phase = .running
  up : (s.port p).link = .up
  test : (s.port p).mode = .none

theorem State.Inward.passes {p : Nat} (h : s.Inward p) : (s.running && (s.port p).passesInward) = true := by
  simp [State.running, Port.passesInward, h.running, h.up, h.test]

theorem State.Inward.arriving {p : Nat} (h : s.Inward p) (source : Byte) (f : State → State) :
    s.arriving p source f = s.sourced p source f := if_pos h.passes

theorem State.movedNotice_part (n p : Nat) (b : Binding) (s : State) : (s.movedNotice n p b).part = s.part := by
  unfold State.movedNotice
  split
  · split <;> simp
  all_goals rfl

theorem State.conflict_part (n p m : Nat) (s : State) : (s.conflict n p m).part = s.part := by
  unfold State.conflict
  dsimp only
  split <;> simp

theorem State.learn_part (n p : Nat) (s : State) : (s.learn n p).1.part = s.part := by
  unfold State.learn
  dsimp only
  split
  · split
    · exact State.conflict_part _ _ _ s
    · exact (State.movedNotice_part _ _ _ _).trans (by simp)
  · exact (State.movedNotice_part _ _ _ _).trans (by simp)

theorem State.checkSource_part (n p : Nat) (s : State) : (s.checkSource n p).1.part = s.part := by
  unfold State.checkSource
  split
  · split
    · rfl
    · exact State.conflict_part _ _ _ s
  · split
    · rfl
    · exact State.conflict_part _ _ _ s
  · exact State.learn_part n p s
  · exact State.learn_part n p s

/-- What the node table passes on, it passes on under the same own node number. -/
theorem State.sourced_congr {p : Nat} {source : Byte} {f g : State → State}
    (h : ∀ v : State, v.part = s.part → f v = g v) : s.sourced p source f = s.sourced p source g := by
  unfold State.sourced
  dsimp only
  rw [h _ (State.checkSource_part _ _ s)]

/-! ### Step 3 of R57: the row of the frame's kind (R58) -/

section
variable {p : Fin 12} {f : Frame}

theorem State.forward_gauge {x : SampleFields} (h : s.treatment p f = .gauge) (hx : getSample f.payload = some x) :
    s.forward p f = s.sampleFrame p f x := by
  unfold State.forward
  rw [h, hx]

theorem State.forward_standUnit {n : Nat} {x : StatusFields} (h : s.treatment p f = .standUnit n)
    (hx : getStatus f.payload = some x) : s.forward p f = s.statusFrame p n f x := by
  unfold State.forward
  rw [h, hx]

theorem State.forward_lines (h : s.treatment p f = .lines) : s.forward p f = s.forwardLines p f := by
  unfold State.forward
  rw [h]

theorem State.forward_noRoute (h : s.treatment p f = .noRoute) : s.forward p f = s.discard p .noRoute := by
  unfold State.forward
  rw [h]

theorem State.forward_unicast (h : s.treatment p f = .unicast) : s.forward p f = s.forwardUnicast p f := by
  unfold State.forward
  rw [h]

theorem State.forward_role (h : s.treatment p f = .role) : s.forward p f = s.discard p .role := by
  unfold State.forward
  rw [h]

theorem Port.hasRole_iff (P : Port) (r : Role) : P.hasRole r = true ↔ P.record.role = r := by simp [Port.hasRole]

theorem State.atRole_pos {r : Role} (h : (s.port p).record.role = r) (g : State → State) : s.atRole p r g = g s :=
  if_pos ((Port.hasRole_iff _ _).2 h)

theorem State.atRole_neg {r : Role} (h : (s.port p).record.role ≠ r) (g : State → State) :
    s.atRole p r g = s.discard p .role := if_neg (mt (Port.hasRole_iff _ _).1 h)

theorem State.forward_sample {x : SampleFields} (hk : f.kind = .sample) (hx : getSample f.payload = some x) (s : State) :
    s.forward p f = s.sampleAtRole p f x := by
  by_cases hr : (s.port p).record.role = .sensor
  · exact (State.forward_gauge (by simp [State.treatment, hk, hr]) hx).trans
      (if_pos ((Port.hasRole_iff _ _).2 hr)).symm
  · exact (State.forward_role (by simp [State.treatment, hk, hr])).trans (if_neg (mt (Port.hasRole_iff _ _).1 hr)).symm

theorem State.forward_status {x : StatusFields} (hk : f.kind = .status) (hx : getStatus f.payload = some x) (s : State) :
    s.forward p f = s.statusAtRole p f x := by
  unfold State.statusAtRole
  by_cases hr : (s.port p).record.role = .stand
  · rw [if_pos ((Port.hasRole_iff _ _).2 hr)]
    cases hn : s.standOf p f.source with
    | none => exact State.forward_lines (by simp [State.treatment, hk, hr, hn])
    | some n => exact State.forward_standUnit (by simp [State.treatment, hk, hr, hn]) hx
  · rw [if_neg (mt (Port.hasRole_iff _ _).1 hr)]
    exact State.forward_lines (by simp [State.treatment, hk, hr])

theorem State.forward_stop {x : StopFields} (hk : f.kind = .stop) (hx : getStop f.payload = some x) (s : State) :
    s.forward p f = s.atRole p .panel fun s => (s.panelStop p x.cls).drop p := by
  by_cases hr : (s.port p).record.role = .panel
  · have ht : s.treatment p f = .panel := by simp [State.treatment, hk, hr]
    rw [State.atRole_pos hr, State.forward, ht]
    simp only [hx]
  · rw [State.atRole_neg hr, State.forward_role (by simp [State.treatment, hk, hr])]

theorem State.forward_setpoint {x : SetpointFields} (hk : f.kind = .setpoint) (hx : getSetpoint f.payload = some x)
    (hd : f.dest.toNat = s.part.own) : s.forward p f = s.atRole p .line fun s => (s.takeSetpoint x).drop p := by
  by_cases hr : (s.port p).record.role = .line
  · have ht : s.treatment p f = .setpoint := by simp [State.treatment, hk, hr, hd]
    rw [State.atRole_pos hr, State.forward, ht]
    simp only [hx]
  · rw [State.atRole_neg hr, State.forward_role (by simp [State.treatment, hk, hr])]

theorem State.forward_group {x : GroupFields} (hk : f.kind = .group) (hx : getGroup f.payload = some x)
    (hd : f.dest.toNat = s.part.own) : s.forward p f = s.atRole p .line fun s => (s.takeGroup p x).drop p := by
  by_cases hr : (s.port p).record.role = .line
  · have ht : s.treatment p f = .group := by simp [State.treatment, hk, hr, hd]
    rw [State.atRole_pos hr, State.forward, ht]
    simp only [hx]
  · rw [State.atRole_neg hr, State.forward_role (by simp [State.treatment, hk, hr])]

/-- A MANAGE frame for the part is the request of its code and body (R14, R171). -/
theorem State.forward_manage {code tag : Byte} {body : List Byte} (hk : f.kind = .manage)
    (hp : f.payload = code :: tag :: body) (hd : f.dest.toNat = s.part.own) :
    s.forward p f = s.atRole p .line fun s => s.manage (manageFrame s.part.own ⟨p, f.source, tag⟩ code.toNat body)
      ⟨p, f.source, tag⟩ code.toNat (decodeRequest code.toNat body) := by
  by_cases hr : (s.port p).record.role = .line
  · have hf : manageFrame s.part.own ⟨p, f.source, tag⟩ code.toNat body = f := by
      obtain ⟨dest, source, kind, payload⟩ := f
      dsimp only at hk hp hd
      subst hk hp
      simp [manageFrame, put8, ← hd]
    have ht : s.treatment p f = .manage := by simp [State.treatment, hk, hr, hd]
    rw [State.atRole_pos hr, State.forward, ht, hf]
    simp only [State.manageArrival, arrivalOf, hp]
    rfl
  · rw [State.atRole_neg hr, State.forward_role (by simp [State.treatment, hk, hr])]

end

theorem exec_row (a : Arrival) (r : Request) (s : State) : exec (Request.row a r) s = .next (s.ask a r) := by
  cases r with
  | identify c => cases c <;> rfl
  | readPort c _ => cases c <;> rfl
  | readChannel c _ => cases c <;> rfl
  | readStand c _ => cases c <;> rfl
  | readSpan c _ _ => cases c <;> rfl
  | readTripLog c _ => cases c <;> rfl
  | _ => rfl

/-! ### The burst of a valid frame (R42) -/

/-- A burst with its first claim made and not short makes no claim for a frame of one block. -/
theorem State.arrive_claimed {p : Nat} {b : Burst} (h : s.Inward p) (hb : (s.port p).burst = some b) (hc : 1 ≤ b.claims)
    (hs : b.short = false) (source : Byte) (f : State → State) : s.arrive p source f = s.sourced p source f := by
  have hlane : (s.net.port p).lane .line = some b := hb
  have hclaims : (s.net.port p).claims .line = b.claims := by rw [Port.claims_eq, hlane]; rfl
  have hshort : (s.net.port p).isShort .line = false := by rw [Port.isShort_eq, hlane]; exact hs
  have hsame : s.net.completeClaims .line p 1 = s.net := by
    rw [Net.completeClaims_eq, if_neg (by simp), if_neg (by simp [hclaims]; omega)]
  unfold State.arrive
  rw [if_pos h.passes, hsame]
  exact if_neg (by rw [show (s.port p).isShort .line = false from hshort]; simp)

/-- A change of one port that events do not see: made on both sides of events, it leaves them events. -/
structure Port.Aside (g : Port → Port) : Prop where
  core : ∀ P Q : Port, Q.core = P.core → (g Q).core = (g P).core
  tests : ∀ P Q : Port, P.testKept Q → (g P).testKept (g Q)
  slots : ∀ P Q : Port, P.slotsKept Q → (g P).slotsKept (g Q)
  queue : ∀ P : Port, (g P).queue = P.queue
  sending : ∀ P : Port, (g P).sending = P.sending

/-- Frames and references stay exact through such a change on both sides. -/
theorem Net.KeepsExact.modPort_both {n m : Net} (h : n.KeepsExact m) {g : Port → Port} (hg : Port.Aside g) (p : Nat) :
    (n.modPort p g).KeepsExact (m.modPort p g) := by
  have hrefs : ∀ (P : Port) (id : Nat), (g P).refsTo id = P.refsTo id := fun P id => by
    simp only [Port.refsTo, hg.queue, hg.sending]
  have hback : (n.modPort p g).KeepsExact n := by
    by_cases hp : p < 12
    · have hport : (n.modPort p g).port p = g (n.port p) := by rw [Net.port_modPort, if_pos ⟨rfl, hp⟩]
      have hself : (n.modPort p g).modPort p (fun _ => n.port p) = n :=
        (Net.modPort_modPort n p _ _).trans (Net.modPort_self rfl)
      have := Net.KeepsExact.modPort (n.modPort p g) p (fun _ => n.port p) fun id => by rw [hport, hrefs]
      rwa [hself] at this
    · rw [Net.modPort_outside _ _ _ hp]
      exact fun _ => id
  exact fun units hx => Net.KeepsExact.modPort m p g (fun id => hrefs _ id) units (h units (hback units hx))

theorem Net.KeepsQueues.modPort_both {n m : Net} (h : n.KeepsQueues m) {g : Port → Port} (hg : ∀ P, (g P).queue = P.queue)
    (p : Nat) : (n.modPort p g).KeepsQueues (m.modPort p g) := fun q => by
  obtain ⟨l, h1, h2⟩ := h q
  have hq : ∀ k : Net, ((k.modPort p g).port q).queue = (k.port q).queue := fun k =>
    Net.port_modPort_keep Port.queue k p q g hg
  exact ⟨l, by rw [hq, hq, h1], fun hl => by rw [hq]; exact h2 hl⟩

theorem Net.KeepsFrames.modPort_both {n m : Net} (h : n.KeepsFrames m) (p : Nat) (g : Port → Port) :
    (n.modPort p g).KeepsFrames (m.modPort p g) := fun hs => by
  obtain ⟨h1, h2, h3⟩ := h ⟨hs.refs, hs.ids, hs.nodup⟩
  exact ⟨⟨h1.refs, h1.ids, h1.nodup⟩, h2, h3⟩

theorem EventFrame.modPort_both (h : EventFrame s u) {g : Port → Port} (hg : Port.Aside g) (p : Nat) :
    EventFrame (s.modPort p g) (u.modPort p g) where
  __ := h
  ports q := by
    rw [State.port_modPort, State.port_modPort]
    split
    · exact hg.core _ _ (h.ports p)
    · exact h.ports q
  tests q := by
    rw [State.port_modPort, State.port_modPort]
    split
    · exact hg.tests _ _ (h.tests p)
    · exact h.tests q
  slots q := by
    rw [State.port_modPort, State.port_modPort]
    split
    · exact hg.slots _ _ (h.slots p)
    · exact h.slots q
  queues := h.queues.modPort_both hg.queue p
  frames := h.frames.modPort_both p g
  exact := h.exact.modPort_both hg p

/-- A discard: the burst over, and a counter advanced. -/
theorem Port.Aside.discard (k : Count) :
    Port.Aside fun P => { P with burst := none, counters := P.counters.count k } where
  core P Q h := by
    have hcount : ∀ c : PortCounters, { c.count k with queueFull := 0 } =
        { ({ c with queueFull := 0 } : PortCounters).count k with queueFull := 0 } := fun c => by cases k <;> rfl
    have hc : ({ Q.counters with queueFull := 0 } : PortCounters) = { P.counters with queueFull := 0 } :=
      congrArg Port.counters h
    have hcore : ∀ R : Port, ({ R with burst := none, counters := R.counters.count k } : Port).core =
        { R.core with counters := { R.counters.count k with queueFull := 0 } } := fun _ => rfl
    rw [hcore, hcore, h, hcount, hcount P.counters, hc]
  tests P Q h := by
    rcases h with ⟨h1, -, h3, h4⟩ | ⟨h1, h2, -, h4, h5⟩
    · exact .inl ⟨h1, rfl, h3, h4⟩
    · exact .inr ⟨h1, h2, rfl, h4, h5⟩
  slots P Q h := ⟨h.link, h.order, h.disabled⟩
  queue _ := rfl
  sending _ := rfl

/-- The end of a burst. -/
theorem Port.Aside.drop : Port.Aside fun P => { P with burst := none } where
  core P Q h := h
  tests P Q h := by
    rcases h with ⟨h1, -, h3, h4⟩ | ⟨h1, h2, -, h4, h5⟩
    · exact .inl ⟨h1, rfl, h3, h4⟩
    · exact .inr ⟨h1, h2, rfl, h4, h5⟩
  slots P Q h := ⟨h.link, h.order, h.disabled⟩
  queue _ := rfl
  sending _ := rfl

theorem EventFrame.drop (h : EventFrame s u) (p : Nat) : EventFrame (s.drop p) (u.drop p) :=
  h.modPort_both .drop p

/-- A valid frame whose burst is short of buffer is received and discarded as NO_BUFFER (R26, R38, R42). -/
theorem State.frameReceived_short {p : Fin 12} {l : List Symbol} {f : Frame} (h : s.Inward p)
    (hs : (s.port p).isShort .line = true) (hj : judge s.part.own l = .valid f) :
    ∃ u, EventFrame (s.modPort p Port.afterValid) u ∧ exec (.frameReceived p l) s = .next (u.modPort p fun P =>
      { P with counters := { P.counters with noBuffer := bump P.counters.noBuffer } }) := by
  obtain ⟨o, ho, hshort, -⟩ := s.net.completeClaims_spec .line p (claimsNeeded ((nibbles l).length / 2)) p.isLt
  obtain ⟨b, rfl, hb⟩ := hshort hs
  generalize hv : (s.modPort p fun P =>
    { P.setLane .line (some b) with counters := (P.setLane .line (some b)).counters.count .received }) = v
  have hevent : EventFrame (s.modPort p (Port.holding b)) (v.heard p) := by
    have hvu : v.modPort p (fun P => { P with silenceTimer := some P.record.silenceTime, silent := false }) =
        s.modPort p (Port.holding b) := by
      rw [← hv, State.modPort_modPort]
      exact State.modPort_congr rfl
    rw [← hvu]
    exact State.setPort_event p _ v
  have hburst : ((v.heard p).port p).isShort .line = true := by
    have hport : (s.modPort p (Port.holding b)).port p = Port.holding b (s.port p) := State.port_modPort_self s p _
    have hlane : ((v.heard p).port p).lane .line = some b := by
      rcases hevent.tests p with ⟨-, h', -⟩ | ⟨h', -⟩
      · exact h'.trans (by rw [hport]; rfl)
      · exact absurd (by rw [hport]; exact h.test) h'
    rw [Port.isShort_eq, hlane]
    exact hb
  refine ⟨(v.heard p).drop p, State.drop_holding (s := s) p b ▸ hevent.drop p, ?_⟩
  rw [State.frameReceived_eq h.running h.up (by simp [h.test])]
  refine congrArg Host.Outcome.next ?_
  unfold State.burstEnded
  dsimp only
  rw [hj, ho]
  dsimp only
  change (s.modPort p (Port.setLane .line (some b))).validFrame p f = _
  unfold State.validFrame
  dsimp only
  rw [State.port_received, hv, if_pos hburst, State.discard_eq, State.drop_eq, State.modPort_modPort]
  rfl

/-- A valid frame stored at a port in test mode NONE goes to the engine, its burst still held (R57). -/
theorem State.frameReceived_engine {p : Fin 12} {l : List Symbol} {f : Frame} (h : s.Inward p) (hb : s.HasBlocks p)
    (hj : judge s.part.own l = .valid f) : ∃ (u : State) (b : Burst), b.short = false ∧ 1 ≤ b.claims ∧ u.Inward p ∧
      (u.port p).burst = some b ∧ EventFrame (s.modPort p (Port.holding b)) u ∧
      (s.refs ⟨.silent, p⟩ = [] → u = s.modPort p (Port.holding b)) ∧
      exec (.frameReceived p l) s = .next (u.engine p f) := by
  obtain ⟨b, hs, hc, -, u, hu, hsilent, he⟩ := State.frameReceived_valid h.running h.up (by simp [h.test]) hb hj
  have hport : (s.modPort p (Port.holding b)).port p = Port.holding b (s.port p) := State.port_modPort_self s p _
  have htests : (u.port p).mode = .none ∧ (u.port p).burst = some b := by
    rcases hu.tests p with ⟨hm, h', -⟩ | ⟨h', -⟩
    · rw [hport] at hm h'
      exact ⟨hm.trans h.test, h'⟩
    · exact absurd (by rw [hport]; exact h.test) h'
  have hlink : (u.port p).link = .up := by
    have := congrArg Port.link (hu.ports p)
    rw [hport] at this
    exact this.trans h.up
  refine ⟨u, b, hs, hc, ⟨hu.phase.trans h.running, hlink, htests.1⟩, htests.2, hu, hsilent, ?_⟩
  rw [he]
  unfold State.dispose
  rw [htests.1]

theorem State.engine_sourced {p : Fin 12} {f : Frame} (hk : f.kind ≠ .pattern) (s : State) :
    s.engine p f = s.sourced p f.source (State.forward p f) := if_neg hk

/-- Settles O17: each kind's treatment at step 3 of R57 is its row's, after the same judgement of the source. -/
theorem frameReceivedIsItsRow : Obligations.FrameReceivedIsItsRow := by
  unfold Obligations.FrameReceivedIsItsRow
  intro s p l f hr hu hm hj
  have hin : s.Inward p := ⟨hr, hu, hm⟩
  refine ⟨fun hs => ?short, fun hb => ?stored⟩
  case short =>
    obtain ⟨u, hevent, he⟩ := State.frameReceived_short hin hs hj
    exact ⟨u, _, he, hevent, rfl⟩
  case stored =>
    obtain ⟨u, b, hshort, hc, hinu, hburst, hevent, hsilent, he⟩ := State.frameReceived_engine hin hb hj
    have hown : u.part.own = s.part.own := by rw [hevent.part]; rfl
    have hengine : ∀ k, f.kind = k → k ≠ .pattern →
        exec (.frameReceived p l) s = .next (u.sourced p f.source (State.forward p f)) := fun k hk hne => by
      rw [he, State.engine_sourced (by rw [hk]; exact hne)]
    have hrow : ∀ g : State → State, u.arriving p f.source g = u.sourced p f.source g := hinu.arriving f.source
    refine ⟨u, b, hshort, hevent, hsilent, fun x hk hx => ?_, fun x hk hx => ?_, fun x hk hx => ?_, fun hd =>
      ⟨fun x hk hx => ?_, fun x hk hx => ?_, fun code tag body hk hp => ?_⟩⟩
    · rw [hengine _ hk (by simp)]
      refine congrArg Host.Outcome.next ?_
      rw [State.arrive_claimed hinu hburst hc hshort, (Frame.judged hj).sample hk hx]
      exact State.sourced_congr fun v _ => State.forward_sample hk hx v
    · rw [hengine _ hk (by simp)]
      refine congrArg Host.Outcome.next ?_
      rw [State.arrive_claimed hinu hburst hc hshort, (Frame.judged hj).status hk hx]
      exact State.sourced_congr fun v _ => State.forward_status hk hx v
    · rw [hengine _ hk (by simp)]
      refine congrArg Host.Outcome.next ?_
      rw [State.consume, hrow]
      exact State.sourced_congr fun v _ => State.forward_stop hk hx v
    · rw [hengine _ hk (by simp)]
      refine congrArg Host.Outcome.next ?_
      rw [State.consume, hrow]
      exact State.sourced_congr fun v hv => State.forward_setpoint hk hx (by rw [hv, hown, hd])
    · rw [hengine _ hk (by simp)]
      refine congrArg Host.Outcome.next ?_
      rw [State.consume, hrow]
      exact State.sourced_congr fun v hv => State.forward_group hk hx (by rw [hv, hown, hd])
    · have hmanage : exec (.frameReceived p l) s = exec (.unknownRequest ⟨p, f.source, tag⟩ code body) u := by
        rw [hengine _ hk (by simp)]
        refine congrArg Host.Outcome.next ?_
        rw [State.request, hrow]
        exact State.sourced_congr fun v hv => State.forward_manage hk hp (by rw [hv, hown, hd])
      refine ⟨hmanage, fun r hwf hcode hbody => ?_⟩
      rw [hmanage, exec_row]
      refine congrArg Host.Outcome.next ?_
      rw [State.ask, hcode, hbody, requestsAreReadBack _ r hwf]

end Sys2Proof.Machine
end

section
/-! PROOFS. Copies of a held frame, and notices, in the normal queues (R45, R49, R59, R61). -/

namespace Sys2Proof.Machine

variable {n : Net} {s t u : State}

/-! ### A copy at one port (R49) -/

/-- A port offered a copy of the frame named `id`: queued, or dropped as QUEUE_FULL (R49). -/
def Port.takeCopy (id : Nat) (P : Port) : Port :=
  if P.queue.length < Config.queueCapacity then { P with queue := P.queue ++ [id] }
  else { P with counters := P.counters.count .queueFull }

theorem Port.takeCopy_room {id : Nat} {P : Port} (h : P.queue.length < Config.queueCapacity) :
    P.takeCopy id = { P with queue := P.queue ++ [id] } := if_pos h

theorem Port.takeCopy_full {id : Nat} {P : Port} (h : Config.queueCapacity ≤ P.queue.length) :
    P.takeCopy id = { P with counters := P.counters.count .queueFull } := if_neg (Nat.not_lt.2 h)

theorem Net.port_modPort_in (n : Net) {p : Nat} (hp : p < 12) (f : Port → Port) (q : Nat) :
    (n.modPort p f).port q = if q = p then f (n.port q) else n.port q := by
  rw [Net.port_modPort]
  by_cases h : q = p
  · subst h; rw [if_pos ⟨rfl, hp⟩, if_pos rfl]
  · rw [if_neg fun hc => h hc.1.symm, if_neg h]

theorem Net.enqueue_port (n : Net) {p : Nat} (hp : p < 12) (id q : Nat) :
    (n.enqueue p id).1.port q = if q = p then (n.port q).takeCopy id else n.port q := by
  by_cases hr : (n.port p).queue.length < Config.queueCapacity
  · have he : n.enqueue p id = ((n.modPort p fun P => { P with queue := P.queue ++ [id] }).addRef id, true) := if_pos hr
    rw [he]
    refine (Net.port_modPort_in n hp (fun P => { P with queue := P.queue ++ [id] }) q).trans ?_
    by_cases h : q = p
    · subst h; rw [if_pos rfl, if_pos rfl, Port.takeCopy_room hr]
    · rw [if_neg h, if_neg h]
  · have he : n.enqueue p id = (n.count p .queueFull, false) := if_neg hr
    rw [he]
    refine (Net.port_modPort_in n hp _ q).trans ?_
    by_cases h : q = p
    · subst h; rw [if_pos rfl, if_pos rfl, Port.takeCopy_full (Nat.not_lt.1 hr)]
    · rw [if_neg h, if_neg h]

/-- Copies to ports that the list names once each. -/
theorem Net.copies_port (id : Nat) {ps : List Nat} (hnd : ps.Nodup) (hp : ∀ p ∈ ps, p < 12) (n : Net) (q : Nat) :
    (n.copies id ps).1.port q = if q ∈ ps then (n.port q).takeCopy id else n.port q := by
  induction ps generalizing n with
  | nil => rfl
  | cons p ps ih =>
    obtain ⟨hnot, hnd⟩ := List.nodup_cons.1 hnd
    have hstep : (n.copies id (p :: ps)).1 = ((n.enqueue p id).1.copies id ps).1 := rfl
    rw [hstep, ih hnd (fun r hr => hp r (List.mem_cons_of_mem p hr)), Net.enqueue_port n (hp p List.mem_cons_self)]
    by_cases h : q = p
    · subst h
      rw [if_neg hnot, if_pos rfl, if_pos List.mem_cons_self]
    · simp [h]

theorem Net.copies_pos (id : Nat) {ps : List Nat} (hnd : ps.Nodup) (hp : ∀ p ∈ ps, p < 12) (n : Net) {q : Nat} (hq : q ∈ ps)
    (hr : (n.port q).queue.length < Config.queueCapacity) : (n.copies id ps).2 ≠ 0 := by
  induction ps generalizing n with
  | nil => cases hq
  | cons p ps ih =>
    obtain ⟨hnot, hnd⟩ := List.nodup_cons.1 hnd
    have hstep : (n.copies id (p :: ps)).2 =
        if (n.enqueue p id).2 then ((n.enqueue p id).1.copies id ps).2 + 1 else ((n.enqueue p id).1.copies id ps).2 := rfl
    rw [hstep]
    by_cases h : q = p
    · subst h
      have htrue : (n.enqueue q id).2 = true := by
        unfold Net.enqueue
        rw [if_pos hr]
      rw [if_pos htrue]
      exact Nat.succ_ne_zero _
    · have hport : ((n.enqueue p id).1.port q).queue.length < Config.queueCapacity := by
        rw [Net.enqueue_port n (hp p List.mem_cons_self), if_neg h]
        exact hr
      have := ih hnd (fun r hr => hp r (List.mem_cons_of_mem p hr)) (n.enqueue p id).1 (by simpa [h] using hq) hport
      split
      · exact Nat.succ_ne_zero _
      · exact this

theorem Net.mem_upLines {but : Option Nat} {q : Nat} : q ∈ n.upLines but ↔
    q < 12 ∧ (n.port q).record.role = .line ∧ (n.port q).forwards = true ∧ but ≠ some q := by
  unfold Net.upLines
  rw [List.mem_filter, mem_portNumbers]
  simp [Port.hasRole, and_assoc]

theorem Net.upLines_nodup (n : Net) (but : Option Nat) : (n.upLines but).Nodup :=
  List.Nodup.filter _ (by unfold portNumbers; decide)

/-! ### A frame held, copied to ports, and released (R43, R59) -/

/-- A frame in blocks with these tags, as copies in the queues of ports alone. -/
def Net.sendTo (ps : List Nat) (f : Frame) (tags : List BlockTag) (n : Net) : Net :=
  ((n.hold f tags).copies n.nextId ps).1.release n.nextId

theorem Net.sendTo_port {ps : List Nat} (hnd : ps.Nodup) (hp : ∀ p ∈ ps, p < 12) (f : Frame) (tags : List BlockTag) (n : Net)
    (q : Nat) : (n.sendTo ps f tags).port q = if q ∈ ps then (n.port q).takeCopy n.nextId else n.port q :=
  Net.copies_port n.nextId hnd hp (n.hold f tags) q

theorem Net.sendTo_quiet {ps : List Nat} (hp : ∀ p ∈ ps, p < 12) (f : Frame) (tags : List BlockTag) (n : Net) :
    n.Quiet (n.sendTo ps f tags) := by
  obtain ⟨hports, hqueues, -, -, -⟩ := Net.copies_spec n.nextId ps (n.hold f tags)
  refine ⟨hports, hqueues, fun hs => ?_, fun units hx => ?_⟩
  · obtain ⟨hframes, hnext⟩ := Net.copied_frames f tags ps n hs
    have hself : (n.frames.filter fun h => decide (h.id < n.nextId)) = n.frames :=
      List.filter_eq_self.2 fun x hx => by simpa using hs.ids x hx
    change (n.sendTo ps f tags).frames = _ at hframes
    change (n.sendTo ps f tags).nextId = _ at hnext
    generalize ((n.hold f tags).copies n.nextId ps).2 = k at hframes
    have hmem : ∀ x ∈ (n.sendTo ps f tags).frames, x ∈ n.frames ∨ x = ⟨n.nextId, f, tags, k⟩ ∧ k ≠ 0 := fun x hx => by
      rw [hframes] at hx
      rcases List.mem_append.1 hx with hx | hx
      · exact .inl hx
      · by_cases hk : k = 0
        · rw [if_pos hk] at hx; cases hx
        · rw [if_neg hk] at hx; exact .inr ⟨List.mem_singleton.1 hx, hk⟩
    refine ⟨⟨fun x hx => ?_, fun x hx => ?_, ?_⟩, by omega, ?_⟩
    · rcases hmem x hx with h | ⟨rfl, hk⟩
      · exact hs.refs x h
      · exact hk
    · rw [hnext]
      rcases hmem x hx with h | ⟨rfl, -⟩
      · exact Nat.lt_succ_of_lt (hs.ids x h)
      · exact Nat.lt_succ_self _
    · rw [hframes]
      by_cases hk : k = 0
      · rw [if_pos hk, List.append_nil]; exact hs.nodup
      · rw [if_neg hk, List.map_append, List.nodup_append]
        refine ⟨hs.nodup, by simp, fun a ha b hb => ?_⟩
        obtain ⟨x, hx, rfl⟩ := List.mem_map.1 ha
        simp only [List.map_cons, List.map_nil, List.mem_singleton] at hb
        have := hs.ids x hx
        omega
    · rw [hframes, List.filter_append, hself]
      by_cases hk : k = 0
      · rw [if_pos hk, List.filter_nil, List.append_nil]
      · rw [if_neg hk]; simp
  · have h1 := Net.hold_exact n f tags hx
    exact Net.release_exact _ n.nextId (Net.copies_exact n.nextId ps _ hp h1 (Net.mem_of_named h1 (by simp)))

/-- A port of the list with room holds a copy at its tail. -/
theorem Net.sendTo_queued {ps : List Nat} (hnd : ps.Nodup) (hp : ∀ p ∈ ps, p < 12) (f : Frame) (tags : List BlockTag)
    (hs : n.Sound) {q : Nat} (hq : q ∈ ps) (hr : (n.port q).queue.length < Config.queueCapacity) :
    (∃ h ∈ (n.sendTo ps f tags).frames, h.id = n.nextId ∧ h.frame = f) ∧
      ((n.sendTo ps f tags).port q).queue = (n.port q).queue ++ [n.nextId] := by
  obtain ⟨hframes, -⟩ := Net.copied_frames f tags ps n hs
  have hk := Net.copies_pos n.nextId hnd hp (n.hold f tags) hq hr
  change (n.sendTo ps f tags).frames = _ at hframes
  rw [if_neg hk] at hframes
  refine ⟨⟨_, by rw [hframes]; exact List.mem_append_right _ List.mem_cons_self, rfl, rfl⟩, ?_⟩
  rw [Net.sendTo_port hnd hp, if_pos hq, Port.takeCopy_room hr]

/-- A frame that goes to the LINE ports, its burst over. -/
def State.spread (p : Nat) (f : Frame) (tags : List BlockTag) (s : State) : State :=
  { s with net := s.net.sendTo (s.net.upLines (some p)) f tags }

theorem State.spread_quiet (p : Nat) (f : Frame) (tags : List BlockTag) (s : State) : QuietFrame s (s.spread p f tags) :=
  ⟨rfl, Net.sendTo_quiet (Net.upLines_lt _ _) f tags s.net⟩

theorem State.spread_port (p : Nat) (f : Frame) (tags : List BlockTag) (s : State) (q : Nat) :
    (s.spread p f tags).port q =
      if q ∈ s.net.upLines (some p) then (s.port q).takeCopy s.net.nextId else s.port q :=
  Net.sendTo_port (Net.upLines_nodup _ _) (Net.upLines_lt _ _) f tags s.net q

theorem State.spread_copied (p : Nat) (f : Frame) (tags : List BlockTag) (s : State) : s.Copied (s.spread p f tags) p f := by
  intro hs q hqp ⟨hq, hl, hf, hr⟩
  obtain ⟨⟨h, hmem, hid, hfr⟩, hqueue⟩ := Net.sendTo_queued (Net.upLines_nodup s.net (some p)) (Net.upLines_lt _ _) f tags hs
    (Net.mem_upLines.2 ⟨hq, hl, hf, by simpa using fun h => hqp h.symm⟩) hr
  exact ⟨h, hmem, hfr, by rw [hid]; exact hqueue⟩

theorem State.forwardLines_eq (p : Nat) (f : Frame) (s : State) :
    s.forwardLines p f = (s.drop p).spread p f (burstTags (s.port p).burst) := rfl

/-! ### Notices (R45, R61, R178) -/

/-- A frame of one block is built when the shared pool has one. -/
theorem Net.originate_built {f : Frame} (hf : f.size ≤ 128) (hb : 0 < n.sharedFree) (ps : List Nat) :
    ∃ d, n.originate f ps = { n.sendTo ps f [.shared] with dropped := d } := by
  have hblocks : blocksOf f = 1 := if_pos hf
  unfold Net.originate Net.build
  rw [hblocks, if_pos (show 1 ≤ n.sharedFree from hb)]
  dsimp only
  split
  · exact ⟨_, rfl⟩
  · exact ⟨(n.sendTo ps f [.shared]).dropped, rfl⟩

/-- A notice that can be built stands at the tail of the queue of each LINE port that takes a copy. -/
theorem State.notice_queued {q : Nat} (h : s.CanNotify q) (k : NoticeKind) (x : Nat) {l : List Byte} (hl : l.length ≤ 100) :
    (∃ g ∈ (s.notice k x l).net.frames, g.id = s.net.nextId ∧ g.frame = noticeFrame s.part.own s.time k x l) ∧
      ((s.notice k x l).port q).queue = (s.port q).queue ++ [s.net.nextId] := by
  have hsize : (noticeFrame s.part.own s.time k x l).size ≤ 128 := by
    simp only [noticeFrame, Frame.size, List.length_append, put8, put32, List.length_cons, List.length_nil]
    omega
  obtain ⟨d, hd⟩ := Net.originate_built hsize h.block (s.net.upLines none)
  obtain ⟨⟨g, hmem, hid, hfr⟩, hqueue⟩ := Net.sendTo_queued (Net.upLines_nodup s.net none) (Net.upLines_lt _ _)
    (noticeFrame s.part.own s.time k x l) [.shared] h.sound (Net.mem_upLines.2 ⟨h.number, h.line, h.forwards, by simp⟩) h.room
  have hnet : (s.notice k x l).net = _ := hd
  refine ⟨⟨g, by rw [hnet]; exact hmem, hid, hfr⟩, ?_⟩
  change ((s.notice k x l).net.port q).queue = _
  rw [hnet]
  exact hqueue

theorem State.notice_notified {q : Nat} (h : s.CanNotify q) (k : NoticeKind) (x : Nat) {l : List Byte} (hl : l.length ≤ 100) :
    s.Notified (s.notice k x l) q k x l := by
  obtain ⟨⟨g, hmem, hid, hfr⟩, hqueue⟩ := State.notice_queued h k x hl
  exact ⟨g, hmem, hid.ge, hfr, by rw [hqueue, hid]; simp⟩

/-- What is held and queued stays held and queued through frames of the part's own making. -/
theorem State.Notified.later {q : Nat} {k : NoticeKind} {x : Nat} {l : List Byte} (h : s.Notified t q k x l) (hs : t.net.Sound)
    (hf : t.net.KeepsFrames u.net) (hq : t.net.KeepsQueues u.net) : s.Notified u q k x l := by
  obtain ⟨g, hmem, hid, hfr, hqueue⟩ := h
  obtain ⟨-, -, hframes⟩ := hf hs
  obtain ⟨l', hl', -⟩ := hq q
  refine ⟨g, ?_, hid, hfr, ?_⟩
  · rw [← hframes] at hmem
    exact (List.mem_filter.1 hmem).1
  · change g.id ∈ (u.net.port q).queue
    rw [hl']
    exact List.mem_append_left _ hqueue

/-- What a notice reads of a port: its role, its link, its test mode and its queue. -/
structure Port.SameLine (P Q : Port) : Prop where
  role : Q.record.role = P.record.role
  forwards : Q.forwards = P.forwards
  queue : Q.queue = P.queue

/-- A part that can build a notice can still do so when the shared pool has not lost blocks. -/
theorem State.CanNotify.congr {q : Nat} (h : s.CanNotify q) (hp : (s.port q).SameLine (t.port q))
    (hb : s.net.sharedFree ≤ t.net.sharedFree) (hs : t.net.Sound) : t.CanNotify q :=
  ⟨⟨h.number, hp.role.trans h.line, hp.forwards.trans h.forwards, by rw [hp.queue]; exact h.room⟩,
    Nat.lt_of_lt_of_le h.block hb, hs⟩

/-- What was notified since a state with the same names, number and time. -/
theorem State.Notified.congr {v : State} {q : Nat} {k : NoticeKind} {x : Nat} {l : List Byte} (h : s.Notified t q k x l)
    (hn : v.net.nextId = s.net.nextId) (ho : v.part = s.part) (ht : v.time = s.time) : v.Notified t q k x l := by
  obtain ⟨g, hmem, hid, hfr, hqueue⟩ := h
  exact ⟨g, hmem, by rw [hn]; exact hid, by rw [ho, ht]; exact hfr, hqueue⟩

/-! ### The shared pool when a burst is over (R41) -/

theorem Net.count_tags_dropBurst (n : Net) (p : Nat) (t : BlockTag) : (n.dropBurst p).tags.count t ≤ n.tags.count t := by
  by_cases hp : p < 12
  · have h := n.count_tags_modPort p (fun P => { P with burst := none }) t hp
    have hle := Port.heldTags_setLane .line none (n.port p) t
    change ((n.modPort p (Port.setLane .line none)).tags.count t) ≤ _
    change (n.modPort p (Port.setLane .line none)).tags.count t + _ = _ at h
    rw [show burstTags none = [] from rfl, List.count_nil] at hle
    change _ = _ + ((n.port p).setLane .line none).heldTags.count t at h
    omega
  · rw [Net.dropBurst, Net.modPort_outside _ _ _ hp]

/-- A buffer that holds fewer blocks under every tag has no fewer free. -/
theorem Net.sharedFree_mono {n m : Net} (hr : ∀ q, m.reservation q = n.reservation q)
    (hc : ∀ t, m.tags.count t ≤ n.tags.count t) : n.sharedFree ≤ m.sharedFree := by
  have hsum : (portNumbers.map fun p => max (m.reservation p) (m.used p)).sum ≤
      (portNumbers.map fun p => max (n.reservation p) (n.used p)).sum :=
    List.sum_le_sum fun p _ => by rw [hr p]; exact max_le_max le_rfl (hc (.reserved p))
  have hshared := hc .shared
  unfold Net.sharedFree Net.sharedUsed
  omega

theorem Net.sharedFree_dropBurst (n : Net) (p : Nat) : n.sharedFree ≤ (n.dropBurst p).sharedFree :=
  Net.sharedFree_mono (fun q => n.reservation_modPort p q _ fun _ => rfl) (n.count_tags_dropBurst p)

end Sys2Proof.Machine
end

section
/-! PROOFS. The node table judges the source of every frame that goes inward (R52, R53). -/

namespace Sys2Proof.Machine

variable {n m : Net} {s t u v : State}

/-! ### Judgements of the node table -/

theorem State.setNode_self (k : Nat) (s : State) : s.setNode k (s.node k) = s := by
  unfold State.setNode State.node
  rw [setAt_getAt]

theorem mem_nodeNumbers {k : Nat} : k ∈ nodeNumbers ↔ 1 ≤ k ∧ k ≤ 254 := by
  simp only [nodeNumbers, List.mem_map, List.mem_range]
  constructor
  · rintro ⟨a, ha, rfl⟩; omega
  · rintro ⟨h1, h2⟩; exact ⟨k - 1, by omega, by omega⟩

theorem State.boundAt_none {p : Nat} (h : ∀ j, 1 ≤ j → j ≤ 254 → (s.node j).binding ≠ .bound p) : s.boundAt p = none :=
  List.find?_eq_none.2 fun j hj => by
    obtain ⟨h1, h2⟩ := mem_nodeNumbers.1 hj
    simpa using h j h1 h2

/-- The lowest node BOUND at the port (log 17). -/
theorem State.boundAt_some {p k : Nat} (h1 : 1 ≤ k) (h2 : k ≤ 254) (hk : (s.node k).binding = .bound p)
    (hlow : ∀ j, 1 ≤ j → j < k → (s.node j).binding ≠ .bound p) : s.boundAt p = some k := by
  have hrange : (List.range 254).find? (fun j => (s.node (j + 1)).binding == .bound p) = some (k - 1) := by
    rw [List.find?_range_eq_some]
    refine ⟨?_, by rw [List.mem_range]; omega, fun j hj => ?_⟩
    · simpa [Nat.sub_add_cancel h1] using hk
    · simpa using hlow (j + 1) (by omega) (by omega)
  unfold State.boundAt nodeNumbers
  rw [List.find?_map]
  change ((List.range 254).find? (fun j => (s.node (j + 1)).binding == .bound p)).map _ = _
  rw [hrange, Option.map_some, Nat.sub_add_cancel h1]

/-- What makes the source `k` of a frame at port `p` a CONFLICT, `j` being the port or the node it conflicts with (R52, R53). -/
def State.Conflicts (s : State) (k p j : Nat) : Prop :=
  (((s.node k).binding = .bound j ∨ (s.node k).binding = .static j) ∧ j ≠ p) ∨
    (((s.node k).binding = .empty ∨ ∃ q i, (s.node k).binding = .learned q i) ∧ (s.port p).record.nodeLock = true ∧
      1 ≤ j ∧ j ≤ 254 ∧ (s.node j).binding = .bound p ∧ ∀ i, 1 ≤ i → i < j → (s.node i).binding ≠ .bound p)

/-- The binding that port `p` gives a source to be learned (R52, R53). -/
def State.Teaches (s : State) (p : Nat) (b : Binding) : Prop :=
  ((s.port p).record.nodeLock = false ∧ b = .learned p 0) ∨
    ((s.port p).record.nodeLock = true ∧ b = .bound p ∧ ∀ j, 1 ≤ j → j ≤ 254 → (s.node j).binding ≠ .bound p)

theorem State.checkSource_learn {k p : Nat} (h : (s.node k).binding = .empty ∨ ∃ q i, (s.node k).binding = .learned q i) :
    s.checkSource k p = s.learn k p := by
  unfold State.checkSource
  rcases h with h | ⟨q, i, h⟩ <;> rw [h]

theorem State.Conflicts.checkSource {k p j : Nat} (h : s.Conflicts k p j) :
    s.checkSource k p = (s.conflict k p j, false) := by
  rcases h with ⟨h | h, hj⟩ | ⟨h, hlock, h1, h2, hb, hlow⟩
  · unfold State.checkSource
    rw [h]
    exact if_neg hj
  · unfold State.checkSource
    rw [h]
    exact if_neg hj
  · rw [State.checkSource_learn h]
    unfold State.learn
    dsimp only
    rw [if_pos hlock, State.boundAt_some h1 h2 hb hlow]

theorem State.Teaches.checkSource {k p : Nat} {b : Binding} (hb : s.Teaches p b)
    (h : (s.node k).binding = .empty ∨ ∃ q i, (s.node k).binding = .learned q i) :
    s.checkSource k p =
      ((s.setNode k { s.node k with binding := b }).movedNotice k p (s.node k).binding, true) := by
  rw [State.checkSource_learn h]
  unfold State.learn
  dsimp only
  rcases hb with ⟨hlock, rfl⟩ | ⟨hlock, rfl, hnone⟩
  · rw [if_neg (by simp [hlock])]
  · rw [if_pos hlock, State.boundAt_none hnone]

/-- A source at home at the port (R52). -/
theorem State.checkSource_home {k p : Nat} (h : (s.node k).binding = .static p ∨ (s.node k).binding = .bound p) :
    s.checkSource k p = (s, true) := by
  unfold State.checkSource
  rcases h with h | h <;> rw [h] <;> exact if_pos rfl

/-- A source that a port has just taught is known there. -/
theorem State.Teaches.known {k p : Nat} {b : Binding} (hb : s.Teaches p b) (hp : (t.port p).record = (s.port p).record)
    (hk : (t.node k).binding = b) : t.checkSource k p = (t, true) := by
  rcases hb with ⟨hlock, rfl⟩ | ⟨-, rfl, -⟩
  · rw [State.Teaches.checkSource (.inl ⟨by rw [hp]; exact hlock, rfl⟩) (.inr ⟨_, _, hk⟩)]
    have he : ({ t.node k with binding := .learned p 0 } : NodeEntry) = t.node k := by rw [← hk]
    rw [he, State.setNode_self, hk]
    unfold State.movedNotice
    dsimp only
    rw [if_pos rfl]
  · exact State.checkSource_home (.inr hk)

/-! ### A CONFLICT (R52) -/

/-- The state after a CONFLICT at port `p`, but for the notice. -/
def State.conflicted (k p : Nat) (s : State) : State :=
  (s.discard p .conflict).setNode k { s.node k with conflict := some p }

theorem State.conflict_eq (k p j : Nat) (s : State) : s.conflict k p j =
    if (s.node k).conflict = some p then s.discard p .conflict
    else ((s.discard p .conflict).notice .nodeConflict k (put8 p ++ put8 j)).setNode k
      { s.node k with conflict := some p } := rfl

theorem State.conflict_known {k p j : Nat} (h : (s.node k).conflict = some p) : s.conflict k p j = s.conflicted k p := by
  have he : ({ s.node k with conflict := some p } : NodeEntry) = (s.discard p .conflict).node k := by
    rw [← h]; rfl
  rw [State.conflict_eq, if_pos h, State.conflicted, he, State.setNode_self]

theorem State.conflict_new {k p j : Nat} (h : (s.node k).conflict ≠ some p) :
    s.conflict k p j = (s.conflicted k p).notice .nodeConflict k (put8 p ++ put8 j) := by
  rw [State.conflict_eq, if_neg h]
  rfl

theorem State.conflict_quiet (k p j : Nat) (s : State) : QuietFrame (s.conflicted k p) (s.conflict k p j) := by
  by_cases h : (s.node k).conflict = some p
  · rw [State.conflict_known h]; exact .refl _
  · rw [State.conflict_new h]; exact State.notice_quiet _ _ _ _

/-! ### The row of a frame, its burst aside (R42, log 3) -/

/-- The burst from the line at port `p` is another. -/
def State.reburst (p : Nat) (o : Option Burst) (s : State) : State := s.modPort p (Port.setLane .line o)

theorem State.reburst_reburst (p : Nat) (o o' : Option Burst) (s : State) : (s.reburst p o).reburst p o' = s.reburst p o' :=
  (State.modPort_modPort s p _ _).trans (State.modPort_congr rfl)

theorem State.reburst_self {p : Nat} : s.reburst p (s.port p).burst = s := State.modPort_self rfl

/-- Two parts at whose port `p` a frame arrives alike. -/
structure State.ArrivesAlike (p : Nat) (s v : State) : Prop where
  inward : v.Inward p
  burst : (v.port p).burst = (s.port p).burst
  used : v.net.used p ≤ s.net.used p
  reservation : v.net.reservation p = s.net.reservation p

theorem State.ArrivesAlike.refl {p : Nat} (h : s.Inward p) : State.ArrivesAlike p s s := ⟨h, rfl, le_rfl, rfl⟩

theorem Instr.Asks.exec_eq {p : Fin 12} {source : Byte} {c : Instr} (h : Instr.Asks p source c) :
    ∃ g : State → State, ∀ s, exec c s = .next (s.arriving p source g) := by
  rcases h with ⟨f, rfl⟩ | ⟨f, rfl⟩ | ⟨f, rfl⟩ | ⟨a, k, l, rfl, rfl, rfl⟩ | ⟨a, r, rfl, rfl, rfl⟩
  · exact ⟨_, fun s => rfl⟩
  · exact ⟨_, fun s => rfl⟩
  · exact ⟨_, fun s => rfl⟩
  · exact ⟨_, fun s => rfl⟩
  · exact ⟨_, fun s => (exec_row a r s).trans rfl⟩

theorem Instr.Reports.exec_eq {p : Fin 12} {source : Byte} {c : Instr} (h : Instr.Reports p source c) :
    ∃ g : State → State, ∀ s, exec c s = .next (s.arrive p source g) := by
  rcases h with ⟨dest, f, rfl⟩ | ⟨dest, f, rfl⟩
  · exact ⟨_, fun s => rfl⟩
  · exact ⟨_, fun s => rfl⟩

/-- The one claim of a frame of one block whose reservation has a block. -/
theorem State.arrive_unclaimed {p : Fin 12} (h : s.Inward p) (hb : (s.port p).burst = none)
    (hu : s.net.used p < s.net.reservation p) (source : Byte) (f : State → State) :
    s.arrive p source f = (s.reburst p (some ⟨[.reserved p], 1, false⟩)).sourced p source f := by
  have hlane : (s.net.port p).lane .line = none := hb
  have hclaims : (s.net.port p).claims .line = 0 := by rw [Port.claims_eq, hlane]; rfl
  have hclaim : s.net.completeClaims .line p 1 = s.net.modPort p (Port.setLane .line (some ⟨[.reserved p], 1, false⟩)) := by
    rw [Net.completeClaims_first hclaims, Net.claim_eq, hlane,
      Net.claimBurst_of_grant (n := s.net) (b := (none : Option Burst).getD .start) rfl (Net.grant_reserved hu)]
    rfl
  unfold State.arrive
  rw [if_pos h.passes, hclaim]
  refine if_neg ?_
  change ¬ ((s.net.modPort p (Port.setLane .line (some ⟨[.reserved p], 1, false⟩))).port p).isShort .line = true
  rw [Net.port_modPort_self]
  simp [Port.isShort_eq]

/-- A row that carries a frame from `source` goes to the node table, with its block claimed. -/
theorem Instr.exec_sourced {p : Fin 12} {source : Byte} {c : Instr}
    (h : Instr.Asks p source c ∨ (Instr.Reports p source c ∧ s.HasBlock p)) : ∃ (o : Option Burst) (g : State → State),
      (o = (s.port p).burst ∨ ((s.port p).burst = none ∧ o = some ⟨[.reserved p], 1, false⟩ ∧ s.net.used p < s.net.reservation p)) ∧
      ∀ v, State.ArrivesAlike p s v → exec c v = .next ((v.reburst p o).sourced p source g) := by
  rcases h with h | ⟨h, hb⟩
  · obtain ⟨g, hg⟩ := Instr.Asks.exec_eq h
    refine ⟨_, g, .inl rfl, fun v hv => ?_⟩
    rw [hg, hv.inward.arriving, ← hv.burst, State.reburst_self]
  · obtain ⟨g, hg⟩ := Instr.Reports.exec_eq h
    unfold State.HasBlock at hb
    cases hburst : (s.port p).burst with
    | none =>
      rw [hburst] at hb
      refine ⟨_, g, .inr ⟨rfl, rfl, hb⟩, fun v hv => ?_⟩
      rw [hg, State.arrive_unclaimed hv.inward (hv.burst.trans hburst)
        (Nat.lt_of_le_of_lt hv.used (by rw [hv.reservation]; exact hb))]
    | some b =>
      rw [hburst] at hb
      refine ⟨_, g, .inl rfl, fun v hv => ?_⟩
      have hvb : (v.port p).burst = some b := hv.burst.trans hburst
      rw [hg, State.arrive_claimed hv.inward hvb hb.1 hb.2, ← hvb, State.reburst_self]

/-! ### Blocks held after frames of the part's own making (R41, R45) -/

/-- The blocks that the frames hold under a tag. -/
abbrev Net.frameTags (n : Net) (t : BlockTag) : Nat := (n.frames.flatMap HeldFrame.tags).count t

theorem Net.frameTags_release (n : Net) (id : Nat) (t : BlockTag) : (n.release id).frameTags t ≤ n.frameTags t := by
  have hmap : ∀ l : List HeldFrame,
      (l.map fun h => if h.id = id then { h with refs := h.refs - 1 } else h).flatMap HeldFrame.tags = l.flatMap HeldFrame.tags :=
    fun l => by
      rw [List.flatMap_map]
      refine congrArg (fun g => l.flatMap g) (funext fun h => ?_)
      split <;> rfl
  have hsub : ((n.frames.map fun h => if h.id = id then { h with refs := h.refs - 1 } else h).filter
      fun h => h.refs != 0).flatMap HeldFrame.tags |>.Sublist (n.frames.flatMap HeldFrame.tags) := by
    rw [← hmap n.frames]
    exact List.Sublist.flatMap List.filter_sublist _
  exact hsub.count_le t

theorem Net.frameTags_copies (id : Nat) (ps : List Nat) (n : Net) (t : BlockTag) :
    (n.copies id ps).1.frameTags t = n.frameTags t := by
  unfold Net.frameTags
  rw [(Net.copies_spec id ps n).2.2.1, addRefs, List.flatMap_map]
  refine congrArg (fun g => (n.frames.flatMap g).count t) (funext fun h => ?_)
  split <;> rfl

/-- A notice holds shared blocks alone. -/
theorem Net.frameTags_originate (f : Frame) (ps : List Nat) (n : Net) {t : BlockTag} (ht : t ≠ .shared) :
    (n.originate f ps).frameTags t ≤ n.frameTags t := by
  unfold Net.originate Net.build
  by_cases hb : blocksOf f ≤ n.sharedFree
  · have hhold : (n.hold f (List.replicate (blocksOf f) .shared)).frameTags t = n.frameTags t := by
      unfold Net.frameTags
      change ((n.frames ++ [_]).flatMap HeldFrame.tags).count t = _
      rw [List.flatMap_append, List.count_append]
      simp [List.count_replicate, ht.symm]
    have h := (Net.frameTags_release ((n.hold f (List.replicate (blocksOf f) .shared)).copies n.nextId ps).1 n.nextId t).trans
      (Nat.le_of_eq ((Net.frameTags_copies n.nextId ps _ t).trans hhold))
    simp only [hb, if_true]
    split <;> exact h
  · simp only [hb, if_false]
    exact le_rfl

theorem State.used_notice (k : NoticeKind) (x : Nat) (l : List Byte) (s : State) (p : Nat) :
    (s.notice k x l).net.used p ≤ s.net.used p := by
  have hports : ∀ q, ((s.notice k x l).net.port q).heldTags = (s.net.port q).heldTags := fun q => by
    have h := (State.notice_quiet k x l s).net.ports q
    have h1 : ((s.notice k x l).net.port q).burst = (s.net.port q).burst := (congrArg Port.burst h :)
    have h2 : ((s.notice k x l).net.port q).loop = (s.net.port q).loop := (congrArg Port.loop h :)
    simp only [Port.heldTags, h1, h2]
  have hframes : (s.notice k x l).net.frameTags (.reserved p) ≤ s.net.frameTags (.reserved p) :=
    Net.frameTags_originate _ _ _ (by simp)
  unfold Net.used
  rw [Net.count_tags, Net.count_tags]
  simp only [hports]
  exact Nat.add_le_add_left hframes _

/-! ### A burst restored after a notice -/

theorem Port.setLane_line (o : Option Burst) (P : Port) : P.setLane .line o = { P with burst := o } := rfl

theorem QuietFrame.reburst (h : QuietFrame s t) (p : Nat) (o : Option Burst) : QuietFrame (s.reburst p o) (t.reburst p o) where
  rest := by
    rw [h.rest]
    rfl
  net :=
    { ports := fun q => by
        unfold State.reburst State.modPort
        rw [Net.port_modPort, Net.port_modPort]
        split
        · have := congrArg (fun P : Port => { P with burst := o }) (h.net.ports p)
          exact this
        · exact h.net.ports q
      queues := h.net.queues.modPort_both (g := Port.setLane .line o) (fun _ => rfl) p
      frames := h.net.frames.modPort_both p _
      exact := by
        have hback : (s.reburst p o).net.KeepsExact s.net := by
          have := Net.KeepsExact.modPort (s.reburst p o).net p (Port.setLane .line (s.port p).burst) fun _ => rfl
          have hself : (s.reburst p o).net.modPort p (Port.setLane .line (s.port p).burst) = s.net :=
            congrArg State.net ((s.reburst_reburst p o (s.port p).burst).trans s.reburst_self)
          rwa [hself] at this
        exact fun units hx => Net.KeepsExact.modPort t.net p _ (fun _ => rfl) units (h.net.exact units (hback units hx)) }

theorem State.reburst_port (p q : Nat) (o : Option Burst) (s : State) :
    (s.reburst p o).port q = if p = q ∧ p < 12 then (s.port p).setLane .line o else s.port q := State.port_modPort s p q _

/-- A claim within the reservation takes no block of the shared pool (R41, R42). -/
theorem Net.sharedFree_claimed {p : Nat} (hp : p < 12) (hb : (n.port p).burst = none) (hu : n.used p < n.reservation p) :
    n.sharedFree ≤ (n.modPort p (Port.setLane .line (some ⟨[.reserved p], 1, false⟩))).sharedFree := by
  generalize hm : n.modPort p (Port.setLane .line (some ⟨[.reserved p], 1, false⟩)) = m
  have hr : ∀ q, m.reservation q = n.reservation q := fun q => by
    rw [← hm]; exact n.reservation_modPort p q _ fun P => Port.setLane_record _ _ P
  have hc : ∀ t, m.tags.count t = n.tags.count t + [BlockTag.reserved p].count t := fun t => by
    have h1 := n.count_tags_modPort p (Port.setLane .line (some ⟨[.reserved p], 1, false⟩)) t hp
    have h2 := Port.heldTags_setLane .line (some ⟨[.reserved p], 1, false⟩) (n.port p) t
    rw [show (n.port p).lane .line = none from hb, hm] at *
    simp only [burstTags, List.count_nil] at h2
    omega
  have hmax : ∀ q, max (m.reservation q) (m.used q) ≤ max (n.reservation q) (n.used q) := fun q => by
    have hq := hc (.reserved q)
    rw [hr q]
    by_cases hqp : q = p
    · subst hqp
      rw [List.count_singleton_self] at hq
      change m.used q = n.used q + 1 at hq
      omega
    · rw [List.count_singleton, if_neg (by simpa using fun h => hqp h.symm)] at hq
      change m.used q = n.used q + 0 at hq
      omega
  have hshared := hc .shared
  rw [List.count_singleton, if_neg (by simp)] at hshared
  have hsum : (portNumbers.map fun q => max (m.reservation q) (m.used q)).sum ≤
      (portNumbers.map fun q => max (n.reservation q) (n.used q)).sum := List.sum_le_sum fun q _ => hmax q
  unfold Net.sharedFree Net.sharedUsed
  omega

/-! ### The rows' part of R52 and R53 -/

theorem State.reburst_discard (p : Nat) (o : Option Burst) (k : Count) (s : State) :
    (s.reburst p o).discard p k = s.discard p k := by
  rw [State.discard_eq, State.discard_eq]
  exact (State.modPort_modPort s p _ _).trans (State.modPort_congr rfl)

theorem State.Conflicts.reburst {k p j : Nat} (h : s.Conflicts k p j) (o : Option Burst) : (s.reburst p o).Conflicts k p j := by
  have hlock : ((s.reburst p o).port p).record = (s.port p).record := by
    rw [State.reburst_port]
    split <;> rfl
  unfold State.Conflicts at h ⊢
  rw [hlock]
  exact h

theorem State.Teaches.reburst {p : Nat} {b : Binding} (h : s.Teaches p b) (o : Option Burst) :
    (s.reburst p o).Teaches p b := by
  have hlock : ((s.reburst p o).port p).record = (s.port p).record := by
    rw [State.reburst_port]
    split <;> rfl
  unfold State.Teaches at h ⊢
  rw [hlock]
  exact h

/-- A row whose source is a CONFLICT (R52, R53). -/
theorem Instr.exec_conflict {p : Fin 12} {source : Byte} {c : Instr} {j : Nat} (hin : s.Inward p)
    (h : Instr.Asks p source c ∨ (Instr.Reports p source c ∧ s.HasBlock p)) (hc : s.Conflicts source.toNat p j) :
    exec c s = .next (s.conflict source.toNat p j) := by
  obtain ⟨o, g, -, he⟩ := Instr.exec_sourced h
  rw [he s (.refl hin)]
  refine congrArg Host.Outcome.next ?_
  unfold State.sourced
  rw [(hc.reburst o).checkSource, State.conflict_eq, State.conflict_eq, State.reburst_discard]
  rfl

/-- A row whose source the port teaches, at home there already or known nowhere (R52, R53). -/
theorem Instr.exec_taught {p : Fin 12} {source : Byte} {c : Instr} {b : Binding} (hin : s.Inward p)
    (h : Instr.Asks p source c ∨ (Instr.Reports p source c ∧ s.HasBlock p)) (hb : s.Teaches p b)
    (he : (s.node source.toNat).binding = .empty ∨ ∃ i, (s.node source.toNat).binding = .learned p i) :
    exec c s = exec c (s.setNode source.toNat { s.node source.toNat with binding := b }) := by
  obtain ⟨o, g, -, hrow⟩ := Instr.exec_sourced h
  have hlearn : ((s.reburst p o).node source.toNat).binding = .empty ∨
      ∃ q i, ((s.reburst p o).node source.toNat).binding = .learned q i := he.imp id fun ⟨i, hi⟩ => ⟨_, i, hi⟩
  have hquiet : ∀ w : State, w.movedNotice source.toNat p (s.node source.toNat).binding = w := fun w => by
    unfold State.movedNotice
    rcases he with hi | ⟨i, hi⟩
    · rw [hi]
    · rw [hi]; exact if_pos rfl
  have hnode : ((s.setNode source.toNat { s.node source.toNat with binding := b }).node source.toNat).binding = b := by
    rw [State.node_setNode, if_pos ⟨rfl, source.isLt⟩]
  rw [hrow s (.refl hin), hrow (s.setNode _ _) ⟨⟨hin.running, hin.up, hin.test⟩, rfl, le_rfl, rfl⟩]
  refine congrArg Host.Outcome.next ?_
  unfold State.sourced
  rw [(hb.reburst o).checkSource hlearn, (hb.reburst o).known (t := (s.setNode _ _).reburst p o) rfl hnode]
  exact congrArg g (hquiet _)

/-- A row whose source was LEARNED at another port (R52). -/
theorem Instr.exec_moved {p : Fin 12} {source : Byte} {c : Instr} {b : Binding} {q i : Nat} (hin : s.Inward p)
    (h : Instr.Asks p source c ∨ (Instr.Reports p source c ∧ s.HasBlock p)) (hb : s.Teaches p b)
    (he : (s.node source.toNat).binding = .learned q i) (hq : q ≠ p) :
    ∃ u, QuietFrame (s.setNode source.toNat { s.node source.toNat with binding := b }) u ∧ exec c s = exec c u ∧
      ∀ j, s.CanNotify j → s.Notified u j .nodeMoved source.toNat (put8 q ++ put8 p) := by
  obtain ⟨o, g, ho, hrow⟩ := Instr.exec_sourced h
  generalize hw : s.setNode source.toNat { s.node source.toNat with binding := b } = w
  generalize hx : (w.reburst p o).notice .nodeMoved source.toNat (put8 q ++ put8 p) = x
  have hquiet : QuietFrame (w.reburst p o) x := by rw [← hx]; exact State.notice_quiet _ _ _ _
  have hport : ∀ j, (w.port j) = s.port j := fun j => by rw [← hw]; rfl
  have hwnode : (w.node source.toNat).binding = b := by
    rw [← hw, State.node_setNode, if_pos ⟨rfl, source.isLt⟩]
  have hxnode : (x.node source.toNat).binding = b := by
    rw [hquiet.rest]; exact hwnode
  have hxport : (x.port p).unqueued = ((w.reburst p o).port p).unqueued := hquiet.net.ports p
  have hwport : (w.reburst p o).port p = (s.port p).setLane .line o := by
    rw [State.reburst_port, if_pos ⟨rfl, p.isLt⟩, hport]
  have hxburst : (x.port p).burst = o := by
    have : (x.port p).burst = ((w.reburst p o).port p).burst := (congrArg Port.burst hxport :)
    rw [this, hwport]; rfl
  have hmoved : (w.reburst p o).movedNotice source.toNat p (s.node source.toNat).binding = x := by
    rw [he, ← hx]; exact if_neg hq
  have hlearned : exec c s = .next (g x) := by
    rw [hrow s (.refl hin)]
    refine congrArg Host.Outcome.next ?_
    unfold State.sourced
    rw [(hb.reburst o).checkSource (.inr ⟨q, i, he⟩)]
    change g (((s.setNode source.toNat { s.node source.toNat with binding := b }).reburst p o).movedNotice source.toNat p
      (s.node source.toNat).binding) = _
    rw [hw, hmoved]
  have halike : State.ArrivesAlike p s (x.reburst p (s.port p).burst) := by
    have hback : (x.reburst p (s.port p).burst).port p = (x.port p).setLane .line (s.port p).burst := by
      rw [State.reburst_port, if_pos ⟨rfl, p.isLt⟩]
    have hlink : (x.port p).link = ((w.reburst p o).port p).link := (congrArg Port.link hxport :)
    have hmode : (x.port p).mode = ((w.reburst p o).port p).mode := (congrArg Port.mode hxport :)
    have hrecord : (x.port p).record = ((w.reburst p o).port p).record := (congrArg Port.record hxport :)
    refine ⟨⟨?_, ?_, ?_⟩, by rw [hback]; rfl, ?_, ?_⟩
    · change x.phase = _
      rw [hquiet.rest, ← hw]; exact hin.running
    · rw [hback]; exact hlink.trans (by rw [hwport]; exact hin.up)
    · rw [hback]; exact hmode.trans (by rw [hwport]; exact hin.test)
    · have hu1 := (w.reburst p o).used_notice .nodeMoved source.toNat (put8 q ++ put8 p) p
      rw [hx] at hu1
      have hu2 := w.net.used_setLane .line p o p.isLt
      have hu3 := x.net.used_setLane .line p (s.port p).burst p.isLt
      have hx1 : (x.net.port p).lane .line = o := hxburst
      have hw1 : (w.net.port p).lane .line = (s.port p).burst := congrArg Port.burst (hport p)
      have hwnet : w.net = s.net := by rw [← hw]; rfl
      rw [hx1] at hu3
      rw [hw1, hwnet] at hu2
      change (s.net.modPort p _).used p + _ = _ at hu2
      have hu1 : x.net.used p ≤ (s.net.modPort p (Port.setLane .line o)).used p := by rw [← hwnet]; exact hu1
      change (x.net.modPort p _).used p ≤ _
      omega
    · change ((x.reburst p (s.port p).burst).port p).record.reservation = (s.port p).record.reservation
      rw [hback, Port.setLane_record, hrecord, hwport, Port.setLane_record]
  refine ⟨x.reburst p (s.port p).burst, ?_, ?_, fun j hj => ?_⟩
  · have := hquiet.reburst p (s.port p).burst
    rw [← hport p] at this ⊢
    rwa [State.reburst_reburst, State.reburst_self] at this
  · rw [hlearned, hrow _ halike, State.reburst_reburst]
    refine congrArg Host.Outcome.next ?_
    have hxself : x.reburst p o = x := by rw [← hxburst]; exact State.reburst_self
    unfold State.sourced
    rw [hxself, hb.known (t := x) (by
      have : (x.port p).record = ((w.reburst p o).port p).record := (congrArg Port.record hxport :)
      rw [this, hwport]; rfl) hxnode]
    rfl
  · have hcan : (w.reburst p o).CanNotify j := by
      refine hj.congr ?_ ?_ ?_
      · rw [State.reburst_port]
        split
        · rename_i hpj
          rw [hport, hpj.1]
          exact ⟨rfl, rfl, rfl⟩
        · rw [hport]
          exact ⟨rfl, rfl, rfl⟩
      · have hwnet : w.net = s.net := by rw [← hw]; rfl
        change _ ≤ (w.net.modPort p (Port.setLane .line o)).sharedFree
        rw [hwnet]
        rcases ho with rfl | ⟨hnone, rfl, hu⟩
        · rw [Net.modPort_self (n := s.net) (p := p) (f := Port.setLane .line (s.port p).burst) rfl]
        · exact Net.sharedFree_claimed p.isLt hnone hu
      · have hwnet : w.net = s.net := by rw [← hw]; rfl
        change (w.net.modPort p (Port.setLane .line o)).Sound
        rw [hwnet]
        exact hj.sound.modPort p _
    have hnotified := State.notice_notified hcan .nodeMoved source.toNat (l := put8 q ++ put8 p) (by simp [put8])
    rw [hx] at hnotified
    obtain ⟨a, hmem, hid, hfr, hqueue⟩ := hnotified
    refine ⟨a, hmem, ?_, ?_, ?_⟩
    · have : (w.reburst p o).net.nextId = s.net.nextId := by rw [← hw]; rfl
      rw [← this]; exact hid
    · rw [hfr, ← hw]; rfl
    · rw [State.reburst_port]
      split
      · rename_i hpj
        rw [← hpj.1] at hqueue
        exact hqueue
      · exact hqueue

/-! ### A frame received (R52, R53, R57) -/

theorem EventFrame.setNode (h : EventFrame s t) (k : Nat) (e : NodeEntry) : EventFrame (s.setNode k e) (t.setNode k e) where
  __ := h
  nodes := by
    change setAt t.nodes k e = setAt s.nodes k e
    rw [h.nodes]

theorem EventFrame.node (h : EventFrame s t) (k : Nat) : t.node k = s.node k := by simp only [State.node, h.nodes]

/-- A frame other than a MANAGE frame leaves the table as the judgement of its source left it (R58). -/
theorem State.node_forward {p : Fin 12} {f : Frame} (hk : f.kind ≠ .manage) (hr : s.phase = .running) (k : Nat) :
    (s.forward p f).node k = s.node k := by
  have h := (State.forward_keeps (tbl := true) p f s hr fun _ => hk).nodes rfl
  simp only [State.node, h]

theorem State.movedNotice_nodes (k p : Nat) (b : Binding) (s : State) : (s.movedNotice k p b).nodes = s.nodes := by
  unfold State.movedNotice
  split
  · split <;> rfl
  all_goals rfl

theorem State.movedNotice_phase (k p : Nat) (b : Binding) (s : State) : (s.movedNotice k p b).phase = s.phase := by
  unfold State.movedNotice
  split
  · split <;> rfl
  all_goals rfl

/-- The entry of a source that the port teaches, after the frame (R52, R53). -/
theorem State.node_sourced_taught {p : Fin 12} {f : Frame} {k : Nat} {b : Binding} (hf : f.kind ≠ .manage)
    (hr : s.phase = .running) (hk : k = f.source.toNat)
    (he : (s.node k).binding = .empty ∨ ∃ q i, (s.node k).binding = .learned q i) (hb : s.Teaches p b) :
    (s.sourced p f.source (State.forward p f)).node k = { s.node k with binding := b } := by
  subst hk
  generalize hw : s.setNode f.source.toNat { s.node f.source.toNat with binding := b } = w
  have hnode : w.node f.source.toNat = { s.node f.source.toNat with binding := b } := by
    rw [← hw]
    exact (State.node_setNode _ _ _ _).trans (if_pos ⟨rfl, f.source.isLt⟩)
  generalize hx : w.movedNotice f.source.toNat p (s.node f.source.toNat).binding = x
  have hnodes : x.nodes = w.nodes := by rw [← hx, State.movedNotice_nodes]
  have hphase : x.phase = .running := by rw [← hx, State.movedNotice_phase, ← hw]; exact hr
  unfold State.sourced
  rw [hb.checkSource he, hw, hx]
  dsimp only
  rw [if_pos rfl, State.node_forward hf hphase, ← hnode]
  simp only [State.node, hnodes]

theorem State.node_sourced_home {p : Fin 12} {f : Frame} {k : Nat} (hf : f.kind ≠ .manage) (hr : s.phase = .running)
    (hk : k = f.source.toNat) (he : (s.node k).binding = .static p ∨ (s.node k).binding = .bound p) :
    (s.sourced p f.source (State.forward p f)).node k = s.node k := by
  subst hk
  unfold State.sourced
  rw [State.checkSource_home he]
  exact State.node_forward hf hr _

/-- Settles O18: each judgement of the table, before a row and before a frame received. -/
theorem nodeTableJudgesSources : Obligations.NodeTableJudgesSources := by
  unfold Obligations.NodeTableJudgesSources
  refine ⟨?rows, ?frames⟩
  case rows =>
    intro s p source c k e hr hu hm hk he hrow
    subst hk he
    have hin : s.Inward p := ⟨hr, hu, hm⟩
    refine ⟨fun j hc => ?_, fun b hb => ⟨fun he => ?_, fun q i he hq => ?_⟩⟩
    · have hvalue : s.conflicted source.toNat p = (s.modPort p fun P =>
          { P with burst := none, counters := { P.counters with conflict := bump P.counters.conflict } }).setNode source.toNat
            { s.node source.toNat with conflict := some p.val } := by
        rw [State.conflicted, State.discard_eq]
        rfl
      refine ⟨_, s.conflicted source.toNat p, Instr.exec_conflict hin hrow hc, hvalue, State.conflict_quiet _ _ _ s,
        fun h => State.conflict_known h, fun h q hq => ?_⟩
      rw [State.conflict_new h]
      have hcan : (s.conflicted source.toNat p).CanNotify q := by
        refine hq.congr ?_ (Net.sharedFree_dropBurst (s.net.count p .conflict) p |>.trans' ?_) ?_
        · rw [hvalue]
          change Port.SameLine _ ((s.modPort p _).port q)
          rw [State.port_modPort]
          split
          · rename_i hpq
            rw [← hpq.1]
            exact ⟨rfl, rfl, rfl⟩
          · exact ⟨rfl, rfl, rfl⟩
        · exact (Net.sharedFree_modPort s.net p (fun P => { P with counters := P.counters.count .conflict }) (fun _ => rfl)
            (fun _ => rfl) fun _ => rfl).ge
        · exact (hq.sound.modPort p fun P => { P with counters := P.counters.count .conflict }).modPort p fun P =>
            { P with burst := none }
      exact (State.notice_notified hcan .nodeConflict source.toNat (by simp [put8])).congr rfl rfl rfl
    · exact Instr.exec_taught hin hrow hb he
    · exact Instr.exec_moved hin hrow hb he hq
  case frames =>
    intro s p l f k e hr hu hm hb hj hf hk he
    subst he
    obtain ⟨u, b, -, -, hinu, -, hevent, -, hexec⟩ := State.frameReceived_engine ⟨hr, hu, hm⟩ hb hj
    rw [State.engine_sourced hf] at hexec
    have hnode : ∀ j, u.node j = s.node j := hevent.node
    have hrecord : (u.port p).record = (s.port p).record := by
      rw [hevent.port_eq Port.record (fun _ => rfl), State.port_modPort_self]
      rfl
    refine ⟨fun j hbind hj => ?_, fun hk' => ⟨_, hexec, fun h => ?_, fun h hlock => ?_, fun h hlock hnone => ?_⟩⟩
    · have hc : u.Conflicts f.source.toNat p j := .inl ⟨by rw [hnode, ← hk]; exact hbind, hj⟩
      refine ⟨_, hexec, ?_⟩
      unfold State.sourced
      rw [hc.checkSource]
      refine EventFrame.trans ?_ (State.conflict_quiet _ _ _ u).event
      have hside := (hevent.modPort_both (.discard .conflict) p).setNode k { s.node k with conflict := some p.val }
      have hvalue : (s.modPort p (Port.holding b)).modPort p
          (fun P => { P with burst := none, counters := P.counters.count .conflict }) = s.modPort p fun P =>
            { P.afterValid with counters := { P.afterValid.counters with conflict := bump P.counters.conflict } } :=
        (State.modPort_modPort s p _ _).trans (State.modPort_congr rfl)
      rw [hvalue] at hside
      have hconf : u.conflicted f.source.toNat p = (u.modPort p fun P =>
          { P with burst := none, counters := P.counters.count .conflict }).setNode k { s.node k with conflict := some p.val } := by
        rw [State.conflicted, State.discard_eq, hnode, ← hk]
      rw [hconf]
      exact hside
    · rw [State.node_sourced_home hk' hinu.running hk (by rw [hnode]; exact h), hnode]
    · rw [State.node_sourced_taught hk' hinu.running hk (by rw [hnode]; exact h) (.inl ⟨by rw [hrecord]; exact hlock, rfl⟩), hnode]
    · rw [State.node_sourced_taught hk' hinu.running hk (by rw [hnode]; exact h)
        (.inr ⟨by rw [hrecord]; exact hlock, rfl, fun j h1 h2 => by rw [hnode]; exact hnone j h1 h2⟩), hnode]

end Sys2Proof.Machine
end

section
/-! PROOFS. What becomes of a frame from a known node (R57 to R60), and the table's upkeep (R51, R54 to R56). -/

namespace Sys2Proof.Machine

variable {n m : Net} {s t u v : State}

/-! ### A known node's frame (R57) -/

theorem State.Takes.inward {p : Nat} {source : Byte} (h : s.Takes p source) : s.Inward p := ⟨h.running, h.up, h.test⟩

theorem State.Takes.sourced {p : Nat} {source : Byte} (h : s.Takes p source) (f : State → State) : s.sourced p source f = f s := by
  rw [← h.inward.arriving, h.arriving]

/-- A change of the port that keeps its link, its test mode and its record keeps what is known there. -/
theorem State.Takes.modPort {p : Fin 12} {source : Byte} (h : s.Takes p source) {g : Port → Port}
    (hl : (g (s.port p)).link = (s.port p).link) (hm : (g (s.port p)).mode = (s.port p).mode)
    (hr : (g (s.port p)).record = (s.port p).record) : (s.modPort p g).Takes p source := by
  have hport : (s.modPort p g).port p = g (s.port p) := State.port_modPort_self s p g
  refine ⟨h.running, by rw [hport, hl]; exact h.up, by rw [hport, hm]; exact h.test, ?_⟩
  rw [hport, hr]
  exact h.known

/-- A valid frame from a known node goes to step 3 of R57, where no entry refers to the SILENT condition of its port. -/
theorem State.frameReceived_known {p : Fin 12} {l : List Symbol} {f : Frame} (h : s.Takes p f.source) (hb : s.HasBlocks p)
    (hr : s.refs ⟨.silent, p⟩ = []) (hj : judge s.part.own l = .valid f) :
    ∃ b : Burst, exec (.frameReceived p l) s = .next ((s.modPort p (Port.holding b)).engine p f) ∧
      (s.modPort p (Port.holding b)).sourced p f.source (State.forward p f) = (s.modPort p (Port.holding b)).forward p f := by
  obtain ⟨u, b, -, -, -, -, -, hu, he⟩ := State.frameReceived_engine h.inward hb hj
  obtain rfl := hu hr
  exact ⟨b, he, State.Takes.sourced (h.modPort rfl rfl rfl) _⟩

theorem State.holding_role {p : Fin 12} (b : Burst) : ((s.modPort p (Port.holding b)).port p).record = (s.port p).record := by
  rw [State.port_modPort_self]; rfl

theorem State.discard_holding (p : Nat) (b : Burst) (k : Count) : (s.modPort p (Port.holding b)).discard p k =
    (s.modPort p Port.afterValid).modPort p fun P => { P with counters := P.counters.count k } := by
  rw [State.discard_eq, State.modPort_modPort, State.modPort_modPort]
  exact State.modPort_congr rfl

/-! ### One copy by the node table (R58, R59) -/

theorem State.forwardUnicast_eq (p : Nat) (f : Frame) (s : State) : s.forwardUnicast p f =
    (((s.drop p).hold f (burstTags (s.port p).burst)).unicast p s.net.nextId f.dest).release s.net.nextId := rfl

section
variable {p k : Nat} {d : Byte} {f : Frame} {tags : List BlockTag}

/-- A frame for a node of the arrival port is released uncounted. -/
theorem State.unicast_home (h : (s.node d.toNat).binding.port = some p) :
    ((s.hold f tags).unicast p s.net.nextId d).release s.net.nextId = { s with net := s.net.sendTo [] f tags } := by
  have hu : (s.hold f tags).unicast p s.net.nextId d = s.hold f tags := by
    unfold State.unicast
    rw [show ((s.hold f tags).node d.toNat).binding.port = some p from h]
    exact if_pos rfl
  rw [hu]
  rfl

/-- A frame for a node of a port that counts as UP is copied to it. -/
theorem State.unicast_port {q : Nat} (h : (s.node d.toNat).binding.port = some q) (hq : q ≠ p) (hf : (s.port q).forwards = true) :
    ((s.hold f tags).unicast p s.net.nextId d).release s.net.nextId = { s with net := s.net.sendTo [q] f tags } := by
  have hu : (s.hold f tags).unicast p s.net.nextId d =
      { s.hold f tags with net := ((s.hold f tags).net.enqueue q s.net.nextId).1 } := by
    unfold State.unicast
    rw [show ((s.hold f tags).node d.toNat).binding.port = some q from h]
    dsimp only
    rw [if_neg hq]
    exact if_pos hf
  rw [hu]
  rfl

/-- A frame for an EMPTY node, or for one of a port that does not count as UP, is NO_ROUTE. -/
theorem State.unicast_noRoute (h : (s.node d.toNat).binding.port = none ∨
      ∃ q, (s.node d.toNat).binding.port = some q ∧ q ≠ p ∧ (s.port q).forwards = false) :
    ((s.hold f tags).unicast p s.net.nextId d).release s.net.nextId =
      { s with net := (s.net.count p .noRoute).sendTo [] f tags } := by
  have hu : (s.hold f tags).unicast p s.net.nextId d =
      { s.hold f tags with net := (s.hold f tags).net.count p .noRoute } := by
    unfold State.unicast
    rcases h with h | ⟨q, h, hq, hf⟩
    · rw [show ((s.hold f tags).node d.toNat).binding.port = none from h]
    · rw [show ((s.hold f tags).node d.toNat).binding.port = some q from h]
      dsimp only
      rw [if_neg hq]
      exact if_neg (by rw [show ((s.hold f tags).port q).forwards = false from hf]; simp)
  rw [hu]
  rfl

end

theorem Binding.port_eq_some {b : Binding} {q : Nat} (h : b = .bound q ∨ b = .static q ∨ ∃ k, b = .learned q k) :
    b.port = some q := by
  rcases h with rfl | rfl | ⟨k, rfl⟩ <;> rfl

/-! ### The treatments of R58 without a unit -/

section
variable {p : Nat} {f : Frame}

theorem State.treatment_lines (h : ((f.kind = .reply ∨ f.kind = .notice) ∧ f.dest = 255#8) ∨
    (f.kind = .status ∧ ((s.port p).record.role = .stand → s.standOf p f.source = none))) : s.treatment p f = .lines := by
  unfold State.treatment
  rcases h with ⟨hk | hk, hd⟩ | ⟨hk, hs⟩
  · rw [hk]; exact if_pos hd
  · rw [hk]; exact if_pos hd
  · rw [hk]
    dsimp only
    split
    · rw [hs ‹_›]
    · rfl

theorem State.treatment_unicast (h : ((f.kind = .reply ∨ f.kind = .notice) ∧ f.dest ≠ 255#8) ∨
    (f.kind = .manage ∧ (s.port p).record.role = .line ∧ f.dest ≠ 255#8 ∧ f.dest.toNat ≠ s.part.own)) :
    s.treatment p f = .unicast := by
  unfold State.treatment
  rcases h with ⟨hk | hk, hd⟩ | ⟨hk, hr, hd, ho⟩
  · rw [hk]; exact if_neg hd
  · rw [hk]; exact if_neg hd
  · rw [hk]
    dsimp only
    rw [if_pos hr, if_neg (by simpa using ho)]
    exact if_neg hd

theorem State.treatment_noRoute (hk : f.kind = .manage) (hr : (s.port p).record.role = .line) (hd : f.dest = 255#8)
    (ho : s.part.own ≠ 255) : s.treatment p f = .noRoute := by
  have hown : ¬ (f.dest.toNat == s.part.own) = true := by
    rw [hd]
    simpa using fun h => ho h.symm
  unfold State.treatment
  rw [hk]
  dsimp only
  rw [if_pos hr, if_neg hown]
  exact if_pos hd

theorem State.treatment_role (h : f.kind = .gap ∨ (f.kind = .sample ∧ (s.port p).record.role ≠ .sensor) ∨
    (f.kind = .stop ∧ (s.port p).record.role ≠ .panel) ∨ (f.kind = .manage ∧ (s.port p).record.role ≠ .line) ∨
    ((f.kind = .setpoint ∨ f.kind = .group) ∧ ((s.port p).record.role ≠ .line ∨ f.dest.toNat ≠ s.part.own))) :
    s.treatment p f = .role := by
  unfold State.treatment
  rcases h with hk | ⟨hk, hr⟩ | ⟨hk, hr⟩ | ⟨hk, hr⟩ | ⟨hk | hk, hr⟩
  · rw [hk]
  · rw [hk]; exact if_neg hr
  · rw [hk]; exact if_neg hr
  · rw [hk]; exact if_neg hr
  all_goals
    rw [hk]
    refine if_neg fun hc => ?_
    rcases hr with hr | hr
    · exact hr hc.1
    · exact hr (by simpa using hc.2)

end

/-- A LINE port with a full queue that takes no copy counts it as QUEUE_FULL, and with room it holds the copy (R49). -/
theorem State.sendTo_port (ps : List Nat) (hnd : ps.Nodup) (hp : ∀ p ∈ ps, p < 12) (f : Frame) (tags : List BlockTag) (q : Nat) :
    ({ s with net := s.net.sendTo ps f tags } : State).port q = if q ∈ ps then (s.port q).takeCopy s.net.nextId else s.port q :=
  Net.sendTo_port hnd hp f tags s.net q

theorem State.sendTo_quiet {ps : List Nat} (hp : ∀ p ∈ ps, p < 12) (f : Frame) (tags : List BlockTag) (s : State) :
    QuietFrame s { s with net := s.net.sendTo ps f tags } := ⟨rfl, Net.sendTo_quiet hp f tags s.net⟩

/-- Settles O19, by the treatment of R58. -/
theorem frameCopiesFollowKindAndDestination : Obligations.FrameCopiesFollowKindAndDestination := by
  unfold Obligations.FrameCopiesFollowKindAndDestination
  intro s v p l f ht hb hs href hj hv
  obtain ⟨b, hexec, hforward⟩ := State.frameReceived_known ht hb href hj
  have hsound : v.net.Sound := by rw [hv]; exact hs.modPort p _
  have hnode : ∀ k, v.node k = s.node k := fun k => by rw [hv]; rfl
  have hport : ∀ q, q ≠ p.val → v.port q = s.port q := fun q hq => by
    rw [hv, State.port_modPort, if_neg fun h => hq h.1.symm]
  have hdrop : (s.modPort p (Port.holding b)).drop p = v := by rw [hv]; exact State.drop_holding p b
  have htags : burstTags ((s.modPort p (Port.holding b)).port p).burst = b.tags := by rw [State.port_modPort_self]; rfl
  have hrole : ((s.modPort p (Port.holding b)).port p).record = (s.port p).record := State.holding_role b
  have hengine : f.kind ≠ .pattern → (s.modPort p (Port.holding b)).engine p f = (s.modPort p (Port.holding b)).forward p f :=
    fun hk => (State.engine_sourced hk _).trans hforward
  refine ⟨_, hexec, fun h => ?lines, fun h => ?unicast, fun hk hr hd ho => ?noRoute, fun h => ?role⟩
  case lines =>
    have hk : f.kind ≠ .pattern := by rcases h with ⟨hk | hk, -⟩ | ⟨hk, -⟩ <;> simp [hk]
    rw [hengine hk, State.forward_lines (State.treatment_lines (by rw [hrole]; exact h)), State.forwardLines_eq, hdrop, htags]
    refine ⟨State.spread_quiet _ _ _ v, State.spread_copied _ _ _ v, fun q _ hqp hl hf hfull => ?_, fun q hq => ?_⟩
    · have hne : q.val ≠ p.val := fun h => hqp (Fin.ext h)
      have hq' := hport q hne
      have hmem : q.val ∈ v.net.upLines (some p.val) := Net.mem_upLines.2 ⟨q.isLt, by
        change (v.port q).record.role = _
        rw [hq']; exact hl, by change (v.port q).forwards = _; rw [hq']; exact hf, by simpa using fun h => hne h.symm⟩
      rw [State.spread_port, if_pos hmem, hq', Port.takeCopy_full hfull]
      rfl
    · rw [State.spread_port, if_neg]
      intro hmem
      obtain ⟨-, hl, hf, hne⟩ := Net.mem_upLines.1 hmem
      have hqp : q ≠ p.val := fun h => hne (by rw [h])
      have hq' : v.net.port q = s.port q := hport q hqp
      rw [hq'] at hl hf
      rcases hq with hq | hq | hq
      · exact hqp hq
      · exact hq hl
      · rw [hq] at hf; cases hf
  case unicast =>
    have hk : f.kind ≠ .pattern := by rcases h with ⟨hk | hk, -⟩ | ⟨hk, -⟩ <;> simp [hk]
    rw [hengine hk, State.forward_unicast (State.treatment_unicast (by rw [hrole]; exact h)), State.forwardUnicast_eq, hdrop, htags]
    have hid : (s.modPort p (Port.holding b)).net.nextId = v.net.nextId := by rw [hv]; rfl
    rw [hid]
    have hroute : v.modPort p (fun P => { P with counters := { P.counters with noRoute := bump P.counters.noRoute } }) =
      { v with net := v.net.count p .noRoute } := rfl
    refine ⟨fun q hq => ?_, fun hempty => ?_⟩
    · have hbind : (v.node f.dest.toNat).binding.port = some q := Binding.port_eq_some (by rw [hnode]; exact hq)
      refine ⟨fun hqp => ?_, fun hqp hlt hf => ?_, fun hqp hf => ?_⟩
      · rw [State.unicast_home (by rw [← hqp]; exact hbind)]
        exact ⟨State.sendTo_quiet (by simp) f _ v, fun j => (State.sendTo_port [] (by simp) (by simp) f _ j).trans (if_neg (by simp))⟩
      · have hps : ∀ j ∈ [q], j < 12 := fun j hj => by rw [List.mem_singleton.1 hj]; exact hlt
        rw [State.unicast_port hbind hqp (by rw [hport q hqp]; exact hf)]
        refine ⟨State.sendTo_quiet hps f _ v, fun j hj => ?_, fun hroom => ?_, fun hfull => ?_⟩
        · rw [State.sendTo_port _ (by simp) hps, if_neg (by simpa using hj)]
        · obtain ⟨⟨g, hmem, hgid, hfr⟩, hqueue⟩ := Net.sendTo_queued (ps := [q]) (by simp) hps f b.tags hsound (by simp)
            (show (v.port q).queue.length < _ by rw [hport q hqp]; exact hroom)
          exact ⟨g, hmem, hfr, by rw [hgid]; exact hqueue⟩
        · rw [State.sendTo_port _ (by simp) hps, if_pos (by simp), hport q hqp, Port.takeCopy_full hfull]
          rfl
      · rw [State.unicast_noRoute (.inr ⟨q, hbind, hqp, by rw [hport q hqp]; exact hf⟩), hroute]
        exact State.sendTo_quiet (by simp) f _ { v with net := v.net.count p .noRoute }
    · rw [State.unicast_noRoute (.inl (by rw [hnode, hempty]; rfl)), hroute]
      exact State.sendTo_quiet (by simp) f _ { v with net := v.net.count p .noRoute }
  case noRoute =>
    rw [hengine (by simp [hk]), State.forward_noRoute (s := s.modPort p (Port.holding b))
      (State.treatment_noRoute hk (by rw [hrole]; exact hr) hd ho),
      State.discard_holding, hv]
    rfl
  case role =>
    have hk : f.kind ≠ .pattern := by
      rcases h with hk | ⟨hk, -⟩ | ⟨hk, -⟩ | ⟨hk, -⟩ | ⟨hk | hk, -⟩ <;> simp [hk]
    rw [hengine hk, State.forward_role (State.treatment_role (by rw [hrole]; exact h)), State.discard_holding, hv]
    rfl

/-! ### Rows at a port of the wrong role, or at one that passes nothing inward (R21, R31, R57, R58) -/

theorem State.consume_role {p : Fin 12} {source : Byte} {r : Role} (h : s.Takes p source) (hr : (s.port p).record.role ≠ r)
    (g : State → State) : s.consume p source r g = s.discard p .role := by
  rw [State.consume, h.arriving, State.atRole_neg hr]

theorem State.request_role {a : Arrival} (h : s.Takes a.port a.source) (hr : (s.port a.port).record.role ≠ .line) (code : Nat)
    (l : List Byte) (d : Decoded) : s.request a code l d = s.discard a.port .role := by
  rw [State.request, h.arriving, State.atRole_neg hr]

/-- What the burst of a port with its block makes of a SAMPLE or STATUS row (R42, log 3). -/
theorem State.Takes.arrive {p : Fin 12} {source : Byte} (h : s.Takes p source) (hb : s.HasBlock p) (g : State → State) :
    ∃ b : Burst, s.arrive p source g = g (s.reburst p (some b)) := by
  unfold State.HasBlock at hb
  cases hburst : (s.port p).burst with
  | none =>
    rw [hburst] at hb
    exact ⟨_, (State.arrive_unclaimed h.inward hburst hb source g).trans (State.Takes.sourced (h.modPort rfl rfl rfl) g)⟩
  | some b =>
    rw [hburst] at hb
    refine ⟨b, ?_⟩
    rw [State.arrive_claimed h.inward hburst hb.1 hb.2, h.sourced, ← hburst, State.reburst_self]

theorem State.passesNothing {p : Nat} (h : s.phase ≠ .running ∨ (s.port p).link ≠ .up ∨ (s.port p).mode ≠ .none) :
    ¬ (s.running && (s.port p).passesInward) = true := by
  rcases h with h | h | h <;> simp [State.running, Port.passesInward, h]

/-- Settles O20. -/
theorem wrongRoleDiscards : Obligations.WrongRoleDiscards := by
  unfold Obligations.WrongRoleDiscards
  refine ⟨fun s p source h => ⟨_, rfl, fun hr => ⟨fun f => ?_, fun f => ?_, fun tag k l => ?_, fun a r hp hs => ?_⟩,
    fun hr f => ?_, fun hr hb dest f => ?_⟩, fun s p source c hc hn => ?_⟩
  · exact congrArg Host.Outcome.next ((State.consume_role h hr _).trans (State.discard_eq _ _ _))
  · exact congrArg Host.Outcome.next ((State.consume_role h hr _).trans (State.discard_eq _ _ _))
  · exact congrArg Host.Outcome.next ((State.request_role (a := ⟨p, source, tag⟩) h hr _ _ _).trans (State.discard_eq _ _ _))
  · subst hp hs
    rw [exec_row]
    exact congrArg Host.Outcome.next ((State.request_role h hr _ _ _).trans (State.discard_eq _ _ _))
  · exact congrArg Host.Outcome.next ((State.consume_role h hr _).trans (State.discard_eq _ _ _))
  · obtain ⟨b, hb⟩ := h.arrive hb (State.sampleAtRole p (sampleFrameOf dest source f) f)
    have hrole : ((s.reburst p (some b)).port p).record = (s.port p).record := by
      rw [State.reburst_port, if_pos ⟨rfl, p.isLt⟩]; rfl
    refine congrArg Host.Outcome.next (hb.trans ?_)
    rw [State.sampleAtRole, if_neg (by rw [Port.hasRole_iff, hrole]; exact hr), State.reburst_discard, State.discard_eq]
    rfl
  · rcases hc with hc | hc
    · obtain ⟨g, hg⟩ := Instr.Asks.exec_eq hc
      rw [hg]
      exact congrArg Host.Outcome.next (if_neg (State.passesNothing hn))
    · obtain ⟨g, hg⟩ := Instr.Reports.exec_eq hc
      rw [hg]
      exact congrArg Host.Outcome.next (if_neg (State.passesNothing hn))

end Sys2Proof.Machine
end

section
/-! PROOFS. A request whose owner makes no frames, and its one reply (R60, R61, R171); the table's upkeep (R51, R54 to R56). -/

namespace Sys2Proof.Machine

variable {n m : Net} {s t u v : State}

/-! ### A request answered -/

theorem Net.Sound.hold (hs : n.Sound) (f : Frame) (tags : List BlockTag) : (n.hold f tags).Sound where
  refs x hx := by
    rcases List.mem_append.1 hx with hx | hx
    · exact hs.refs x hx
    · rw [List.mem_singleton.1 hx]; simp
  ids x hx := by
    change x.id < n.nextId + 1
    rcases List.mem_append.1 hx with hx | hx
    · exact Nat.lt_succ_of_lt (hs.ids x hx)
    · rw [List.mem_singleton.1 hx]; simp
  nodup := by
    change ((n.frames ++ [_]).map HeldFrame.id).Nodup
    rw [List.map_append, List.nodup_append]
    refine ⟨hs.nodup, by simp, fun x hx y hy => ?_⟩
    simp only [List.map_cons, List.map_nil, List.mem_singleton] at hy
    obtain ⟨z, hz, rfl⟩ := List.mem_map.1 hx
    have := hs.ids z hz
    omega

/-- A request taken at its arrival port is held and served. -/
theorem State.request_eq {a : Arrival} (h : s.Hears a) (code : Nat) (l : List Byte) (d : Decoded) : s.request a code l d =
    ((s.taken a.port).hold (manageFrame s.part.own a code l) (burstTags (s.port a.port).burst)).serve s.net.nextId a code d := by
  rw [State.request, h.toTakes.arriving, State.atRole_pos h.line]
  rfl

theorem Net.tags_hold (n : Net) (f : Frame) (tags : List BlockTag) : (n.hold f tags).tags = n.tags ++ tags := by
  unfold Net.tags
  change _ ++ (n.frames ++ [_]).flatMap HeldFrame.tags = _
  rw [List.flatMap_append, List.append_assoc]
  simp [Net.hold]

/-- A copy to one port with room is one reference. -/
theorem Net.sendTo_one (f : Frame) (tags : List BlockTag) (hs : n.Sound) {q : Nat}
    (hr : (n.port q).queue.length < Config.queueCapacity) :
    (n.sendTo [q] f tags).frames = n.frames ++ [⟨n.nextId, f, tags, 1⟩] ∧ (n.sendTo [q] f tags).dropped = n.dropped := by
  have hone : ((n.hold f tags).copies n.nextId [q]).2 = 1 := by
    have henq : ((n.hold f tags).enqueue q n.nextId).2 = true := by
      unfold Net.enqueue
      rw [if_pos (show ((n.hold f tags).port q).queue.length < _ from hr)]
    change (if ((n.hold f tags).enqueue q n.nextId).2 then 0 + 1 else 0) = 1
    rw [if_pos henq]
  refine ⟨?_, (Net.copies_spec n.nextId [q] (n.hold f tags)).2.2.2.2⟩
  have h := (Net.copied_frames f tags [q] n hs).1
  rw [hone, if_neg (by decide)] at h
  exact h

/-- What the reply to a request reads of the link side: the arrival port, the names, the frames, and the blocks held. -/
structure Net.Serves (p : Nat) (n m : Net) : Prop where
  takesReply : (m.port p).takesReply = (n.port p).takesReply
  queue : (m.port p).queue = (n.port p).queue
  nextId : m.nextId = n.nextId
  frames : m.frames = n.frames
  reservations : ∀ q, m.reservation q = n.reservation q
  tags : m.tags = n.tags

theorem Net.Serves.refl (p : Nat) (n : Net) : n.Serves p n := ⟨rfl, rfl, rfl, rfl, fun _ => rfl, rfl⟩

/-- A reply that can be queued is the newest frame, at the tail of its port's queue, and drops no notice (R45, R61). -/
theorem State.reply_net {a : Arrival} (code : Nat) (ans : Answer) (hp : (s.port a.port).takesReply = true)
    (hq : (s.port a.port).queue.length < Config.queueCapacity) (hb : 2 ≤ s.net.sharedFree) :
    ∃ tags, (s.reply a code ans).net = s.net.sendTo [a.port.val] (replyFrame s.part.own a code ans) tags := by
  have hblocks : blocksOf (replyFrame s.part.own a code ans) ≤ s.net.sharedFree := (blocksOf_le _).trans hb
  generalize hf : replyFrame s.part.own a code ans = f at hblocks
  refine ⟨List.replicate (blocksOf f) .shared, ?_⟩
  have hk := Net.copies_pos s.net.nextId (ps := [a.port.val]) (by simp) (fun q hq => by rw [List.mem_singleton.1 hq]; exact a.port.isLt)
    (s.net.hold f (List.replicate (blocksOf f) .shared)) (q := a.port) (by simp) hq
  have hreply : (s.reply a code ans).net = s.net.originate f [a.port.val] := by
    unfold State.reply
    dsimp only
    rw [if_pos hp, hf]
  rw [hreply]
  unfold Net.originate Net.build
  rw [if_pos hblocks]
  exact if_neg hk

/-- A request whose owner makes no frames: what is left of it is its owner's work and one reply. -/
theorem State.request_answered {a : Arrival} {code : Nat} {l : List Byte} {d : Decoded} {ans : Answer} (hs : s.CanReply a)
    (h : ∀ f tags, tags = burstTags (s.port a.port).burst →
      ((s.taken a.port).hold f tags).answer s.net.nextId a code d = (v.hold f tags, ans))
    (hn : (s.taken a.port).net.Serves a.port v.net) :
    QuietFrame v (s.request a code l d) ∧ s.Replied (s.request a code l d) a code ans ∧
      (s.request a code l d).net.dropped = v.net.dropped := by
  have hport : ∀ q, (s.taken a.port).net.port q = if a.port.val = q ∧ a.port.val < 12 then { s.port a.port with burst := none }
      else s.port q := fun q => Net.port_modPort _ _ _ _
  have harrival : (s.taken a.port).net.port a.port = { s.port a.port with burst := none } := by
    rw [hport, if_pos ⟨rfl, a.port.isLt⟩]
  have hsound : v.net.Sound :=
    ⟨by rw [hn.frames]; exact hs.sound.refs, by rw [hn.frames, hn.nextId]; exact hs.sound.ids, by rw [hn.frames]; exact hs.sound.nodup⟩
  have hqueue : (v.port a.port).queue = (s.port a.port).queue := hn.queue.trans (by rw [harrival])
  have hfree : ∀ f, 2 ≤ (v.hold f (burstTags (s.port a.port).burst)).net.sharedFree := fun f => by
    have h1 := s.net.sharedFree_keep a.port a.port.isLt f
    have h2 : (v.hold f (burstTags (s.port a.port).burst)).net.sharedFree =
        ((s.net.dropBurst a.port).hold f (burstTags (s.net.port a.port).burst)).sharedFree := by
      exact Net.sharedFree_congr hn.reservations
        (((Net.tags_hold v.net f _).trans (congrArg (· ++ _) hn.tags)).trans (Net.tags_hold _ f _).symm)
    rw [h2, h1]
    exact hs.blocks
  rw [State.request_eq hs.toHears]
  generalize hf : manageFrame s.part.own a code l = f
  generalize htags : burstTags (s.port a.port).burst = tags
  rw [htags] at hfree
  have hserve : ((s.taken a.port).hold f tags).serve s.net.nextId a code d =
      ((v.hold f tags).reply a code ans).release v.net.nextId := by
    unfold State.serve
    rw [h f tags htags.symm, show s.net.nextId = v.net.nextId from hn.nextId.symm]
  rw [hserve]
  obtain ⟨rtags, hreply⟩ := State.reply_net (s := v.hold f tags) (a := a) code ans
    (hn.takesReply.trans (by rw [harrival]; exact hs.takes)) (by change (v.port a.port).queue.length < _; rw [hqueue]; exact hs.room)
    (hfree f)
  have hroom : ((v.hold f tags).net.port a.port).queue.length < Config.queueCapacity := by
    change (v.port a.port).queue.length < _
    rw [hqueue]
    exact hs.room
  obtain ⟨hframes, hdropped⟩ := Net.sendTo_one (replyFrame v.part.own a code ans) rtags (hsound.hold f tags) hroom
  have hreply' : ((v.hold f tags).reply a code ans).net = _ := hreply
  refine ⟨(State.reply_quiet a code ans (v.hold f tags)).release_hold, ?_, ?_⟩
  · refine ⟨⟨v.net.nextId + 1, replyFrame v.part.own a code ans, rtags, 1⟩, ?_, rfl, rfl, ?_⟩
    · change _ ∈ (((v.hold f tags).reply a code ans).net.release v.net.nextId).frames
      rw [hreply']
      simp only [Net.release, List.mem_filter, List.mem_map]
      refine ⟨⟨⟨v.net.nextId + 1, replyFrame v.part.own a code ans, rtags, 1⟩, ?_, by simp⟩, by simp⟩
      exact hframes ▸ List.mem_append_right _ List.mem_cons_self
    · change (((v.hold f tags).reply a code ans).net.port a.port).queue = _
      rw [hreply', Net.sendTo_port (by simp) (fun q hq => by rw [List.mem_singleton.1 hq]; exact a.port.isLt),
        if_pos (by simp), Port.takeCopy_room hroom]
      change (v.port a.port).queue ++ _ = _
      rw [hqueue]
      rfl
  · change ((v.hold f tags).reply a code ans).net.dropped = _
    rw [hreply']
    exact hdropped

/-- A request of the catalogue whose owner makes no frames. -/
theorem State.ask_answered {a : Arrival} {r : Request} {ans : Answer} (hs : s.CanReply a)
    (h : ∀ f tags, ((s.taken a.port).hold f tags).carryOut s.net.nextId a r = (v.hold f tags, ans))
    (hn : (s.taken a.port).net.Serves a.port v.net) :
    QuietFrame v (s.ask a r) ∧ s.Replied (s.ask a r) a (requestCode r) ans ∧ (s.ask a r).net.dropped = v.net.dropped :=
  State.request_answered hs (d := .ok r) (fun f tags _ => h f tags) hn

/-- A request that changes nothing but its answer. -/
theorem State.ask_refused {a : Arrival} {r : Request} {ans : Answer} (hs : s.CanReply a)
    (h : ∀ u : State, u.part = s.part → u.nodes = s.nodes → u.stands = s.stands → u.store = s.store → u.trip = s.trip →
      u.carryOut s.net.nextId a r = (u, ans)) :
    QuietFrame (s.taken a.port) (s.ask a r) ∧ s.Replied (s.ask a r) a (requestCode r) ans := by
  obtain ⟨h1, h2, -⟩ := State.ask_answered (v := s.taken a.port) (ans := ans) hs (fun f tags => h _ rfl rfl rfl rfl rfl) (.refl _ _)
  exact ⟨h1, h2⟩

/-! ### The table's upkeep (R51, R54 to R56) -/

theorem State.node_ageNodes (s : State) (k : Nat) : s.ageNodes.node k = (s.node k).age s.part.aging :=
  getAt_map_of_default (NodeEntry.age s.part.aging) s.nodes NodeEntry.none NodeEntry.none rfl k

theorem nodeNumber_iff {k : Nat} : nodeNumber k = true ↔ 1 ≤ k ∧ k ≤ 254 := by simp [nodeNumber]

theorem State.bindable_iff {k : Nat} : s.bindable k = true ↔ 1 ≤ k ∧ k ≤ 254 ∧ k ≠ s.part.own := by
  simp [State.bindable, nodeNumber_iff, and_assoc]

theorem NodeEntry.isStatic_iff (e : NodeEntry) : e.isStatic = true ↔ ∃ q, e.binding = .static q := by
  unfold NodeEntry.isStatic
  cases e.binding <;> simp

theorem reqBindNode_eq {k p : Nat} (hb : s.bindable k = true) (hp : p < 12) : reqBindNode k p s =
    if (s.node k).isStatic then refuse .state s else (s.setNode k ⟨.bound p, none⟩, .done []) := by
  rw [reqBindNode, hb, if_neg (by simp [hp])]

theorem reqUnbindNode_eq {k : Nat} (hb : s.bindable k = true) : reqUnbindNode k s =
    if (s.node k).isStatic then refuse .state s else (s.setNode k { s.node k with binding := .empty }, .done []) := by
  rw [reqUnbindNode, hb, if_neg (by simp)]

/-- The list of a part-wide record names each node once (R51). -/
theorem staticPort_of_mem {l : List (Nat × Nat)} (hnd : (l.map (·.1)).Nodup) {k p : Nat} (h : (k, p) ∈ l) :
    staticPort l k = some p := by
  induction l with
  | nil => cases h
  | cons b l ih =>
    rw [List.map_cons, List.nodup_cons] at hnd
    unfold staticPort
    rcases List.mem_cons.1 h with rfl | h
    · simp
    · have hne : b.1 ≠ k := fun he => hnd.1 (he ▸ List.mem_map_of_mem h)
      rw [List.find?_cons_of_neg (by simpa using hne)]
      exact ih hnd.2 h

theorem staticPort_of_not_mem {l : List (Nat × Nat)} {k : Nat} (h : ∀ p, (k, p) ∉ l) : staticPort l k = none := by
  unfold staticPort
  rw [List.find?_eq_none.2, Option.map_none]
  rintro ⟨j, p⟩ hb hj
  obtain rfl : j = k := by simpa using hj
  exact h p hb

theorem NodeEntry.reload_conflict (r : PartWide) (own k : Nat) (e : NodeEntry) : (e.reload r own k).conflict = e.conflict := by
  unfold NodeEntry.reload
  split
  · rfl
  · split <;> rfl

/-- An entry that a new part-wide record does not list (R51). -/
theorem NodeEntry.reload_unlisted {r : PartWide} {k : Nat} (h : ∀ p, (k, p) ∉ r.bindings) (own : Nat) (e : NodeEntry) :
    (e.reload r own k).binding = match e.binding with
      | .static _ => .empty
      | b => if k = r.own ∧ r.own ≠ own then .empty else b := by
  unfold NodeEntry.reload
  rw [staticPort_of_not_mem h]
  dsimp only
  by_cases hown : k = r.own ∧ r.own ≠ own
  · have hc : (e.isStatic || (k == r.own && r.own != own)) = true := by simp [hown.1, hown.2]
    rw [if_pos hc]
    cases e.binding <;> simp only [if_pos hown]
  · have hc : (k == r.own && r.own != own) = false := by simpa using hown
    rw [hc, Bool.or_false]
    cases he : e.binding with
    | static q => rw [if_pos ((NodeEntry.isStatic_iff e).2 ⟨q, he⟩)]
    | _ =>
      rw [if_neg (by rw [NodeEntry.isStatic_iff, he]; simp)]
      simp only [if_neg hown]
      exact he

/-- Settles O21. -/
theorem nodeTableAgesBindsAndReleases : Obligations.NodeTableAgesBindsAndReleases := by
  unfold Obligations.NodeTableAgesBindsAndReleases
  refine ⟨fun s => ⟨s.ageNodes, rfl, rfl, fun k => ?aging⟩, fun s a hs => ⟨fun k p h1 h2 hown hp => ?bind, fun r hr hk => ?load⟩⟩
  case aging =>
    rw [State.node_ageNodes]
    refine ⟨rfl, fun p i hb => ?_, fun hb => ?_⟩
    · simp only [NodeEntry.age, hb]
    · unfold NodeEntry.age
      cases h : (s.node k).binding with
      | learned p i => exact absurd h (hb p i)
      | _ => rfl
  case bind =>
    have hbindable : ∀ w : State, w.part = s.part → w.bindable k = true := fun w hw =>
      State.bindable_iff.2 ⟨h1, h2, by rw [hw]; exact hown⟩
    refine ⟨_, _, rfl, rfl, fun hstatic => ?_, fun hfree => ?_⟩
    · have hst := (NodeEntry.isStatic_iff (s.node k)).2 hstatic
      obtain ⟨b1, b2⟩ := State.ask_refused (r := .bindNode k p) (ans := .refused .state []) hs fun w hpart hnodes _ _ _ => by
        have hw : (w.node k).isStatic = true := by simp only [State.node, hnodes]; exact hst
        exact (reqBindNode_eq (hbindable w hpart) hp).trans (if_pos hw)
      obtain ⟨u1, u2⟩ := State.ask_refused (r := .unbindNode k) (ans := .refused .state []) hs fun w hpart hnodes _ _ _ => by
        have hw : (w.node k).isStatic = true := by simp only [State.node, hnodes]; exact hst
        exact (reqUnbindNode_eq (hbindable w hpart)).trans (if_pos hw)
      exact ⟨b1, u1, b2, u2⟩
    · have hst : ¬ (s.node k).isStatic = true := by
        rw [NodeEntry.isStatic_iff]
        exact fun ⟨q, hq⟩ => hfree q hq
      obtain ⟨b1, b2, -⟩ := State.ask_answered (r := .bindNode k p) (ans := .done [])
        (v := (s.taken a.port).setNode k ⟨.bound p, none⟩) hs (fun f tags =>
          (reqBindNode_eq (hbindable ((s.taken a.port).hold f tags) rfl) hp).trans (if_neg hst)) (.refl _ _)
      obtain ⟨u1, u2, -⟩ := State.ask_answered (r := .unbindNode k) (ans := .done [])
        (v := (s.taken a.port).setNode k ⟨.empty, (s.node k).conflict⟩) hs (fun f tags =>
          (reqUnbindNode_eq (hbindable ((s.taken a.port).hold f tags) rfl)).trans (if_neg hst)) (.refl _ _)
      exact ⟨b1, u1, b2, u2⟩
  case load =>
    generalize hv : (({ s.taken a.port with
      nodes := Vector.ofFn fun k : Fin 256 => (s.node k).reload r s.part.own k, part := r } : State).setModified secPorts) = v
    have hvnodes : v.nodes = Vector.ofFn fun k : Fin 256 => (s.node k).reload r s.part.own k := by rw [← hv]; rfl
    obtain ⟨hquiet, -, -⟩ := State.ask_answered (r := .loadPartWide r) (ans := .done []) (v := v) hs (fun f tags => by
      change reqLoadPartWide r ((s.taken a.port).hold f tags) = _
      rw [reqLoadPartWide, if_neg (by simp [hr]),
        if_neg (show ¬ (!((s.taken a.port).hold f tags).keepsStands r) = true by
          rw [show ((s.taken a.port).hold f tags).keepsStands r = s.keepsStands r from rfl, hk]; simp), ← hv]
      rfl) (by rw [← hv]; exact .refl _ _)
    have hexec : exec (.loadPortPartWide a r) s = .next (s.ask a (.loadPartWide r)) := rfl
    rw [hexec]
    generalize s.ask a (.loadPartWide r) = t at hquiet
    have hnodes : t.nodes = v.nodes := by rw [hquiet.rest]
    refine ⟨t, rfl, ?_, fun k hk256 => ?_⟩
    · rw [hnodes, hvnodes]
      exact hv ▸ hquiet
    · have hnode : t.node k = (s.node k).reload r s.part.own k := by
        rw [State.node, hnodes, hvnodes, getAt_ofFn _ _ hk256]
      have hnd : (r.bindings.map (·.1)).Nodup := by
        simp only [PartWide.inRange, Bool.and_eq_true, decide_eq_true_eq] at hr
        exact hr.1.2
      rw [hnode]
      refine ⟨NodeEntry.reload_conflict _ _ _ _, fun p hp => ?_, fun hp => NodeEntry.reload_unlisted hp _ _⟩
      unfold NodeEntry.reload
      rw [staticPort_of_mem hnd hp]

end Sys2Proof.Machine
end

section
/-! PROOFS. Requests outside the catalogue or the numbering (R171), and the reads (R38, R81, R104, R125, R154, R170, R174, R176). -/

namespace Sys2Proof.Machine

variable {n m : Net} {s t u v : State}

theorem standNumber_iff {k : Nat} : standNumber k = true ↔ 1 ≤ k ∧ k ≤ 8 := by simp [standNumber]

theorem not_standNumber {k : Nat} (h : k = 0 ∨ 8 < k) : (!standNumber k) = true := by
  simp only [standNumber, Bool.not_eq_true', Bool.and_eq_false_iff, decide_eq_false_iff_not]
  omega

theorem not_nodeNumber {k : Nat} (h : k = 0 ∨ 254 < k) : (!nodeNumber k) = true := by
  simp only [nodeNumber, Bool.not_eq_true', Bool.and_eq_false_iff, decide_eq_false_iff_not]
  omega

theorem not_bindable {k : Nat} (h : k = 0 ∨ 254 < k ∨ k = s.part.own) : (!s.bindable k) = true := by
  rw [Bool.not_eq_true', ← Bool.not_eq_true, State.bindable_iff]
  omega

/-- A request that names a unit outside its numbering is refused RANGE by its owner (R171). -/
theorem State.carryOut_outside {r : Request} (h : Request.Outside s.part.own r) (id : Nat) (a : Arrival) :
    s.carryOut id a r = (s, .refused .range []) := by
  cases r with
  | readPort c p => exact if_pos h
  | readChannel c k => exact if_pos h
  | readSpan c i k => exact if_pos h
  | readStand c k => exact if_pos (not_standNumber h)
  | readNodeTable k => exact if_pos (not_nodeNumber h)
  | loadPort p x => exact if_pos (by rw [decide_eq_true (show 12 ≤ p from h)]; rfl)
  | loadChannel c x => exact if_pos (by rw [decide_eq_true (show 32 ≤ c from h)]; rfl)
  | loadSpan i x => exact if_pos (by rw [decide_eq_true (show 9 ≤ i from h)]; rfl)
  | loadTripEntry e x => exact if_pos (by rw [decide_eq_true (show 64 ≤ e from h)]; rfl)
  | loadStand k x p =>
    have hn : standNumber k = false := by simpa using not_standNumber h
    exact if_pos (by rw [State.standLoadRange, hn]; rfl)
  | loadPassCurrent k p => exact if_pos (by rw [not_standNumber h]; rfl)
  | loadPassNext k p => exact if_pos (by rw [not_standNumber h]; rfl)
  | admitStand k => exact if_pos (not_standNumber h)
  | bypass k => exact if_pos (not_standNumber h)
  | switchPass k => exact if_pos (not_standNumber h)
  | clearHold k => exact if_pos (not_standNumber h)
  | flushSpan i => exact if_pos h
  | setPortTest p k => exact if_pos h
  | injectError p => exact if_pos h
  | bindNode k p =>
    refine if_pos ?_
    rcases h with h | h | h | h
    · rw [not_bindable (.inl h)]; rfl
    · rw [not_bindable (.inr (.inl h))]; rfl
    · rw [not_bindable (.inr (.inr h))]; rfl
    · rw [decide_eq_true h, Bool.or_true]
  | unbindNode k => exact if_pos (not_bindable h)
  | identify _ | readTripLog _ _ | loadPartWide _ | loadTripInterval _ | stop _ _ | resetTrip _ => exact h.elim
  | storeEnable | storeDisable | storeSave _ | storeErase _ | storeProtect _ | restart => exact h.elim

theorem decodeRequest_unknown {code : Nat} (h : code ∉ [0x01, 0x10, 0x11, 0x12, 0x13, 0x14, 0x15, 0x20, 0x21, 0x22, 0x23, 0x24, 0x25,
    0x26, 0x27, 0x30, 0x31, 0x32, 0x33, 0x34, 0x35, 0x36, 0x40, 0x41, 0x50, 0x51, 0x52, 0x53, 0x54, 0x60]) (l : List Byte) :
    decodeRequest code l = .unknown := by
  unfold decodeRequest
  split
  case h_31 => rfl
  all_goals exact absurd (by decide) h

/-- Settles O54. -/
theorem requestsOutsideTheCatalogueAreRefused : Obligations.RequestsOutsideTheCatalogueAreRefused := by
  unfold Obligations.RequestsOutsideTheCatalogueAreRefused
  intro s a hs
  refine ⟨fun code l hcode => ⟨_, rfl, ?_⟩, fun r hr => ⟨_, exec_row a r s, ?_⟩⟩
  · rw [decodeRequest_unknown hcode]
    obtain ⟨h1, h2, -⟩ := State.request_answered (v := s.taken a.port) (code := code.toNat) (l := l) (d := .unknown)
      (ans := .refused .unknown []) hs (fun _ _ _ => rfl) (.refl _ _)
    exact ⟨h1, h2⟩
  · exact State.ask_refused hs fun w hpart _ _ _ _ => State.carryOut_outside (by rw [hpart]; exact hr) _ a

/-! ### What a held request leaves of the state that a reply shows -/

/-- The state in which a request is served: its frame has left the burst and is held. -/
abbrev State.held (a : Arrival) (f : Frame) (tags : List BlockTag) (s : State) : State := (s.taken a.port).hold f tags

section
variable (a : Arrival) (f : Frame) (tags : List BlockTag) (s : State)

/-- All of a port but its burst from the line. -/
theorem State.port_held {α : Type} (π : Port → α) (h : ∀ P : Port, π { P with burst := none } = π P) (q : Nat) :
    π ((s.held a f tags).port q) = π (s.port q) := Net.port_modPort_keep π s.net a.port q _ h

theorem State.level_held (c : CondId) : (s.held a f tags).level c = s.level c := by
  unfold State.level
  cases c.kind <;> dsimp only
  case link => rw [s.port_held a f tags Port.link fun _ => rfl, s.port_held a f tags Port.mode fun _ => rfl]
  case silent => exact s.port_held a f tags Port.silent (fun _ => rfl) _
  case babble => rw [s.port_held a f tags Port.link fun _ => rfl]
  case rate => exact s.port_held a f tags Port.rate (fun _ => rfl) _
  case storm => exact s.port_held a f tags Port.limiting (fun _ => rfl) _
  case panel => exact s.port_held a f tags Port.panel (fun _ => rfl) _
  all_goals rfl

theorem State.portBody_held (p : Nat) : (s.held a f tags).portBody p = s.portBody p := by
  unfold State.portBody
  dsimp only
  simp only [State.level_held, s.port_held a f tags Port.record fun _ => rfl, s.port_held a f tags Port.link fun _ => rfl,
    s.port_held a f tags Port.mode fun _ => rfl, s.port_held a f tags Port.checker fun _ => rfl,
    s.port_held a f tags Port.limiting fun _ => rfl, s.port_held a f tags Port.counters fun _ => rfl]

theorem State.channelBody_held (c : Nat) : (s.held a f tags).channelBody c = s.channelBody c := by
  unfold State.channelBody
  simp only [State.level_held]
  rfl

theorem State.standBody_held (k : Nat) : (s.held a f tags).standBody k = s.standBody k := by
  unfold State.standBody
  simp only [State.level_held]
  rfl

theorem State.tripBody_held (k : Nat) : (s.held a f tags).tripBody k = s.tripBody k := by
  have hpanels : (s.held a f tags).panelBytes = s.panelBytes := by
    unfold State.panelBytes Port.hasRole
    simp only [s.port_held a f tags (fun P => P.record.role) fun _ => rfl, s.port_held a f tags Port.panel fun _ => rfl]
  have hlevels : (s.held a f tags).levelBytes = s.levelBytes := by
    funext c
    unfold State.levelBytes
    rw [State.level_held]
  unfold State.tripBody State.tripParts
  rw [hpanels, hlevels]
  rfl

end

/-! ### Each read and its clearing form -/

/-- A change of one port that keeps what a reply reads of the link side. -/
theorem Net.Serves.modPort {n : Net} {p : Nat} (q : Nat) {g : Port → Port} (h : ∀ P : Port, (g P).takesReply = P.takesReply)
    (hq : ∀ P : Port, (g P).queue = P.queue) (hr : ∀ P : Port, (g P).record = P.record)
    (ht : ∀ P : Port, (g P).heldTags = P.heldTags) : n.Serves p (n.modPort q g) where
  takesReply := Net.port_modPort_keep Port.takesReply n q p g h
  queue := Net.port_modPort_keep Port.queue n q p g hq
  nextId := rfl
  frames := rfl
  reservations j := n.reservation_modPort q j g hr
  tags := by
    unfold Net.tags
    rw [Net.ports_toList, Net.ports_toList, List.flatMap_map, List.flatMap_map]
    exact congrArg (· ++ n.frames.flatMap HeldFrame.tags) (congrArg (fun k => portNumbers.flatMap k)
      (funext fun j => Net.port_modPort_keep Port.heldTags n q j g ht))

/-- A form byte chooses between a read and its clearing form. -/
theorem exec_form {c : Bool} {x y : Instr} {r : Bool → Request} {a : Arrival} (hx : Request.row a (r true) = x)
    (hy : Request.row a (r false) = y) (s : State) : exec (if c then x else y) s = .next (s.ask a (r c)) := by
  subst hx hy
  cases c <;> exact exec_row a _ s

/-- Settles O53. -/
theorem readsAnswerAndClear : Obligations.ReadsAnswerAndClear := by
  unfold Obligations.ReadsAnswerAndClear
  intro s a c hs
  refine ⟨?identify, fun p hp => ?port, fun k hk => ?channel, fun k h1 h8 => ?stand, fun i k hi => ?span, fun k => ?trip,
    fun k h1 h254 => ?nodes⟩
  case identify =>
    refine ⟨_, exec_form (r := .identify) rfl rfl s, ?_⟩
    cases c
    · obtain ⟨h1, h2, h3⟩ := State.ask_answered (r := .identify false) (ans := .done s.identifyBody) (v := s.taken a.port) hs
        (fun f tags => rfl) (.refl _ _)
      exact ⟨h1, h3, h2⟩
    · obtain ⟨h1, h2, h3⟩ := State.ask_answered (r := .identify true) (ans := .done s.identifyBody)
        (v := { s.taken a.port with net := { (s.taken a.port).net with dropped := 0 } }) hs (fun f tags => rfl)
        ⟨rfl, rfl, rfl, rfl, fun _ => rfl, rfl⟩
      have hzero : QuietFrame (s.taken a.port) { s.taken a.port with net := { (s.taken a.port).net with dropped := 0 } } :=
        ⟨rfl, fun _ => rfl, .of_eq fun _ => rfl, .of_eq rfl rfl, fun _ hx => ⟨⟨hx.refs, hx.ids, hx.nodup⟩, hx.count, hx.named⟩⟩
      exact ⟨hzero.trans h1, h3, h2⟩
  case port =>
    refine ⟨_, exec_form (r := fun c => .readPort c p) rfl rfl s, ?_⟩
    have hread : ∀ w : State, reqReadPort c p w =
        (if c then w.modPort p fun P => { P with counters := {} } else w, .done (w.portBody p)) := fun w => if_neg (by omega)
    obtain ⟨h1, h2, -⟩ := State.ask_answered (r := .readPort c p) (ans := .done (s.portBody p))
      (v := if c then (s.taken a.port).modPort p fun P => { P with counters := {} } else s.taken a.port) hs
      (fun f tags => by
        refine (hread _).trans ?_
        rw [s.portBody_held a f tags]
        cases c <;> rfl)
      (by
        cases c
        · exact .refl _ _
        · exact Net.Serves.modPort (n := (s.taken a.port).net) p (g := fun P => { P with counters := {} })
            (fun _ => rfl) (fun _ => rfl) (fun _ => rfl) fun _ => rfl)
    exact ⟨h1, h2⟩
  case channel =>
    refine ⟨_, exec_form (r := fun c => .readChannel c k) rfl rfl s, ?_⟩
    have hread : ∀ w : State, reqReadChannel c k w =
        (if c then w.modChannel k fun C => { C with matched := 0, accepted := 0, rejected := 0, muted := 0 } else w,
          .done (w.channelBody k)) := fun w => if_neg (by omega)
    obtain ⟨h1, h2, -⟩ := State.ask_answered (r := .readChannel c k) (ans := .done (s.channelBody k))
      (v := if c then (s.taken a.port).modChannel k fun C => { C with matched := 0, accepted := 0, rejected := 0, muted := 0 }
        else s.taken a.port) hs
      (fun f tags => by
        refine (hread _).trans ?_
        rw [s.channelBody_held a f tags]
        cases c <;> rfl)
      (by cases c <;> exact .refl _ _)
    exact ⟨h1, h2⟩
  case stand =>
    refine ⟨_, exec_form (r := fun c => .readStand c k) rfl rfl s, ?_⟩
    have hread : ∀ w : State, reqReadStand c k w = (if c then w.clearStand k else w, .done (w.standBody k)) := fun w =>
      if_neg (by simp [standNumber_iff, h1, h8])
    have hvalue : (s.taken a.port).clearStand k = (let u := (s.taken a.port).modStand k fun S => { S with counters := {}, setpoints := {} }
        if k = 1 then { u with group := { s.group with accepted := 0, duplicates := 0, errors := 0 } } else u) := by
      unfold State.clearStand
      dsimp only
      rw [State.group_modStand]
      rfl
    have hheld : ∀ f tags, (s.held a f tags).clearStand k = ((s.taken a.port).clearStand k).hold f tags := fun f tags => by
      unfold State.clearStand State.modStand
      by_cases h : k = 1 <;> simp only [h, if_true, if_false] <;> split <;> rfl
    have hnet : ((s.taken a.port).clearStand k).net = (s.taken a.port).net := by
      rw [hvalue]
      dsimp only
      split <;> simp
    obtain ⟨h1, h2, -⟩ := State.ask_answered (r := .readStand c k) (ans := .done (s.standBody k))
      (v := if c then (s.taken a.port).clearStand k else s.taken a.port) hs
      (fun f tags => by
        refine (hread _).trans ?_
        rw [s.standBody_held a f tags, hheld]
        cases c <;> rfl)
      (by
        cases c
        · exact .refl _ _
        · change (s.taken a.port).net.Serves a.port ((s.taken a.port).clearStand k).net
          rw [hnet]
          exact .refl _ _)
    rw [← hvalue]
    exact ⟨h1, h2⟩
  case span =>
    refine ⟨_, exec_form (r := fun c => .readSpan c i k) rfl rfl s, ?_⟩
    have hread : ∀ w : State, reqReadSpan c i k w =
        (if c then w.modSpan i fun P => { P with counters := {} } else w, .done (w.spanBody i k)) := fun w => if_neg (by omega)
    obtain ⟨h1, h2, -⟩ := State.ask_answered (r := .readSpan c i k) (ans := .done (s.spanBody i k))
      (v := if c then (s.taken a.port).modSpan i fun P => { P with counters := {} } else s.taken a.port) hs
      (fun f tags => (hread _).trans (by cases c <;> rfl))
      (by cases c <;> exact .refl _ _)
    exact ⟨h1, h2⟩
  case trip =>
    refine ⟨_, exec_form (r := fun c => .readTripLog c k) rfl rfl s, ?_⟩
    obtain ⟨h1, h2, -⟩ := State.ask_answered (r := .readTripLog c k) (ans := .done (s.tripBody k))
      (v := if c then { s.taken a.port with trip := { s.trip with
        firings := 0, ordersWritten := 0, evicted := 0, refusedResets := 0 } } else s.taken a.port) hs
      (fun f tags => by
        change (_, Answer.done ((s.held a f tags).tripBody k)) = _
        rw [s.tripBody_held a f tags]
        cases c <;> rfl)
      (by cases c <;> exact .refl _ _)
    exact ⟨h1, h2⟩
  case nodes =>
    refine ⟨_, rfl, ?_⟩
    have hread : ∀ w : State, reqReadNodeTable k w = (w, .done (bodyWithList ((w.knownNodes.filter fun n => k ≤ n).map fun n =>
        nodeBytes n (w.node n)) [.field (put8 w.part.own), .field (put16 w.part.aging), .field (put8 w.knownNodes.length)])) :=
      fun w => if_neg (by simp [nodeNumber_iff, h1, h254])
    obtain ⟨h1, h2, -⟩ := State.ask_answered (r := .readNodeTable k) (v := s.taken a.port)
      (ans := .done (bodyWithList ((s.knownNodes.filter fun n => k ≤ n).map fun n => nodeBytes n (s.node n))
        [.field (put8 s.part.own), .field (put16 s.part.aging), .field (put8 s.knownNodes.length)])) hs
      (fun f tags => hread (s.held a f tags)) (.refl _ _)
    exact ⟨h1, h2⟩

end Sys2Proof.Machine
end

section
/-! PROOFS. The calibration table (R66). -/

namespace Sys2Proof.Machine

/-- Breakpoints whose raw values rise from neighbour to neighbour rise throughout. -/
theorem risingRaw_pairwise {l : List (Int × Int)} (h : risingRaw l = true) : l.Pairwise fun x y => x.1 < y.1 := by
  have hchain : ∀ l : List (Int × Int), risingRaw l = true → l.IsChain fun x y => x.1 < y.1 := by
    intro l
    induction l with
    | nil => exact fun _ => .nil
    | cons a l ih =>
      cases l with
      | nil => exact fun _ => .singleton a
      | cons b l =>
        intro h
        obtain ⟨hab, hl⟩ := (Bool.and_eq_true _ _).mp h
        exact .cons_cons (of_decide_eq_true hab) (ih hl)
  have : IsTrans (Int × Int) fun x y => x.1 < y.1 := ⟨fun _ _ _ => lt_trans⟩
  exact List.isChain_iff_pairwise.1 (hchain l h)

/-! ### Interpolation -/

theorem roundDiv_mul_self (x : Int) {d : Int} (hd : 0 < d) : roundDiv (d * x) d = x := by
  obtain ⟨hnear, -⟩ := roundDiv_nearest (d * x) hd
  rw [← mul_sub, abs_mul, abs_of_pos hd] at hnear
  have hlt : |roundDiv (d * x) d - x| < 1 := by
    by_contra hge
    have := mul_le_mul_of_nonneg_left (not_lt.1 hge) hd.le
    omega
  exact sub_eq_zero.1 (Int.abs_lt_one_iff.1 hlt)

theorem interpolate_left {a b : Int × Int} (h : a.1 < b.1) : interpolate a b a.1 = a.2 := by
  unfold interpolate
  rw [sub_self, zero_mul, add_zero, mul_comm]
  exact roundDiv_mul_self a.2 (sub_pos.2 h)

theorem interpolate_right {a b : Int × Int} (h : a.1 < b.1) : interpolate a b b.1 = b.2 := by
  have hexact : a.2 * (b.1 - a.1) + (b.1 - a.1) * (b.2 - a.2) = (b.1 - a.1) * b.2 := by ring
  unfold interpolate
  rw [hexact]
  exact roundDiv_mul_self b.2 (sub_pos.2 h)

/-! ### The table searched from a breakpoint on -/

variable {a : Int × Int} {l : List (Int × Int)} {raw : Int}

theorem lookUp_cons_le {b : Int × Int} (h : raw ≤ b.1) : lookUp a (b :: l) raw = (interpolate a b raw, false) := if_pos h

theorem lookUp_cons_gt {b : Int × Int} (h : b.1 < raw) : lookUp a (b :: l) raw = lookUp b l raw := if_neg (not_le.2 h)

theorem lookUp_breakpoint {e : Int} (hr : (a :: l).Pairwise fun x y => x.1 < y.1) (h : (raw, e) ∈ a :: l) :
    lookUp a l raw = (e, false) := by
  induction l generalizing a with
  | nil =>
    obtain rfl := List.mem_singleton.1 h
    simp [lookUp]
  | cons b l ih =>
    obtain ⟨hab, hbl⟩ := List.pairwise_cons.1 hr
    have hlt := hab b List.mem_cons_self
    rcases List.mem_cons.1 h with rfl | h
    · rw [lookUp_cons_le hlt.le, interpolate_left hlt]
    · rcases List.mem_cons.1 h with rfl | hl
      · rw [lookUp_cons_le le_rfl, interpolate_right hlt]
      · rw [lookUp_cons_gt ((List.pairwise_cons.1 hbl).1 _ hl), ih hbl h]

theorem lookUp_beyond {z : Int × Int} (hr : (a :: l).Pairwise fun x y => x.1 < y.1) (hz : (a :: l).getLast? = some z)
    (h : z.1 < raw) : lookUp a l raw = (z.2, true) := by
  induction l generalizing a with
  | nil =>
    obtain rfl : a = z := Option.some.inj hz
    simp [lookUp, h]
  | cons b l ih =>
    obtain ⟨-, hbl⟩ := List.pairwise_cons.1 hr
    rw [List.getLast?_cons_cons] at hz
    have hb : b.1 ≤ z.1 := by
      rcases List.mem_cons.1 (List.mem_of_getLast? hz) with rfl | hl
      · exact le_rfl
      · exact ((List.pairwise_cons.1 hbl).1 z hl).le
    rw [lookUp_cons_gt (hb.trans_lt h), ih hbl hz]

theorem lookUp_between {x y : Int × Int} {pre post : List (Int × Int)} (hr : (a :: l).Pairwise fun x y => x.1 < y.1)
    (hl : a :: l = pre ++ x :: y :: post) (hx : x.1 < raw) (hy : raw < y.1) :
    lookUp a l raw = (interpolate x y raw, false) := by
  induction pre generalizing a l with
  | nil =>
    obtain ⟨rfl, rfl⟩ := List.cons.inj hl
    exact lookUp_cons_le hy.le
  | cons c pre ih =>
    obtain ⟨rfl, rfl⟩ := List.cons.inj hl
    obtain ⟨-, htail⟩ := List.pairwise_cons.1 hr
    cases pre with
    | nil => exact (lookUp_cons_gt hx).trans (ih htail rfl)
    | cons b pre =>
      have hbx := (List.pairwise_cons.1 htail).1 x (by simp)
      exact (lookUp_cons_gt (hbx.trans hx)).trans (ih htail rfl)

/-! ### The table -/

theorem throughTable_below (h : raw < a.1) : throughTable (a :: l) raw = (a.2, true) := if_pos h

theorem throughTable_from (h : a.1 ≤ raw) : throughTable (a :: l) raw = lookUp a l raw := if_neg (not_lt.2 h)

/-- The first breakpoint lies lowest. -/
theorem first_le_of_mem {z : Int × Int} (hr : (a :: l).Pairwise fun x y => x.1 < y.1) (hz : z ∈ a :: l) : a.1 ≤ z.1 := by
  rcases List.mem_cons.1 hz with rfl | hl
  · exact le_rfl
  · exact ((List.pairwise_cons.1 hr).1 z hl).le

/-- Settles O22: a search by the breakpoints, each interpolation the nearest integer, and the clamp to the range. -/
theorem calibrationFollowsTheTable : Obligations.CalibrationFollowsTheTable := by
  unfold Obligations.CalibrationFollowsTheTable
  refine ⟨fun r raw h => ?_, fun a l raw h => ?_⟩
  · have hvalue : (ChannelRecord.calibrate r raw).1 = max r.engMin (min r.engMax (throughTable r.table raw).1) :=
      clampTo_eq_max_min h _
    have hmark : (ChannelRecord.calibrate r raw).2 =
      ((throughTable r.table raw).2 || (ChannelRecord.calibrate r raw).1 != (throughTable r.table raw).1) := rfl
    refine ⟨by omega, by omega, hvalue, ?_⟩
    rw [hmark, Bool.or_eq_false_iff, bne_eq_false_iff_eq]
  · have hr := risingRaw_pairwise h
    refine ⟨fun e he => ?_, throughTable_below, fun z hz hzr => ?_, fun x y pre post hl hx hy => ?_⟩
    · rw [throughTable_from (first_le_of_mem hr he), lookUp_breakpoint hr he]
    · rw [throughTable_from ((first_le_of_mem hr (List.mem_of_getLast? hz)).trans hzr.le), lookUp_beyond hr hz hzr]
    · have hax : a.1 ≤ x.1 := first_le_of_mem hr (hl ▸ by simp)
      obtain ⟨hnear, htie⟩ := roundDiv_nearest (x.2 * (y.1 - x.1) + (raw - x.1) * (y.2 - x.2)) (sub_pos.2 (hx.trans hy))
      rw [mul_comm (y.1 - x.1)] at hnear htie
      refine ⟨interpolate x y raw, ?_, hnear, fun heq => (htie heq).le⟩
      rw [throughTable_from (hax.trans hx.le), lookUp_between hr hl hx hy]

end Sys2Proof.Machine
end

section
/-! PROOFS. A frame held while a unit works on it, and then passed on (R43, R59, R60); a sample at its port (R28, R57). -/

namespace Sys2Proof.Machine

variable {n m : Net} {s t u v : State}

/-! ### A held frame passed on (R43, R59) -/

theorem Net.Sound.of_hold {f : Frame} {tags : List BlockTag} (h : (n.hold f tags).Sound) : n.Sound where
  refs x hx := h.refs x (List.mem_append_left _ hx)
  ids x hx := by
    have hlt : x.id < n.nextId + 1 := h.ids x (List.mem_append_left _ hx)
    have hnd : (n.frames.map HeldFrame.id ++ [n.nextId]).Nodup := by
      have := h.nodup
      rwa [show (n.hold f tags).frames = n.frames ++ [⟨n.nextId, f, tags, 1⟩] from rfl, List.map_append] at this
    have hne : x.id ≠ n.nextId := (List.nodup_append.1 hnd).2.2 _ (List.mem_map_of_mem hx) _ (by simp)
    omega
  nodup := by
    have := h.nodup
    rw [show (n.hold f tags).frames = n.frames ++ [⟨n.nextId, f, tags, 1⟩] from rfl, List.map_append] at this
    exact this.sublist (List.sublist_append_left _ _)

/-- What touches one name alone leaves the frames of lower names. -/
theorem filter_map_others {k : Nat} {g : HeldFrame → HeldFrame} (hid : ∀ x, (g x).id = x.id) (hg : ∀ x, x.id ≠ k → g x = x)
    (l : List HeldFrame) : (l.map g).filter (fun x => decide (x.id < k)) = l.filter fun x => decide (x.id < k) := by
  induction l with
  | nil => rfl
  | cons x l ih =>
    rw [List.map_cons, List.filter_cons, List.filter_cons, ih, hid]
    by_cases hx : x.id < k
    · rw [hg x hx.ne]
    · simp [hx]

/-- References of the one frame held since `n` come and go, and its own is released. -/
theorem Net.KeepsFrames.release_refs {f : Frame} {tags : List BlockTag} (h : (n.hold f tags).KeepsFrames m) {k : Net} {j : Nat}
    (hf : k.frames = addRefs n.nextId j m.frames) (hk : k.nextId = m.nextId) : n.KeepsFrames (k.release n.nextId) := fun hs => by
  obtain ⟨hm, hle, hold⟩ := h (hs.hold f tags)
  have hnext : n.nextId < m.nextId := Nat.lt_of_lt_of_le (Nat.lt_succ_self _) hle
  generalize hg : (fun x : HeldFrame => if x.id = n.nextId then { x with refs := x.refs - 1 } else x) = g
  have hgid : ∀ x, (g x).id = x.id := fun x => by rw [← hg]; dsimp only; split <;> rfl
  have hgother : ∀ x, x.id ≠ n.nextId → g x = x := fun x hx => by rw [← hg]; exact if_neg hx
  have hframes : (k.release n.nextId).frames = (k.frames.map g).filter fun x => x.refs != 0 := by rw [← hg]; rfl
  have hids : (k.frames.map g).map HeldFrame.id = m.frames.map HeldFrame.id := by
    rw [hf, List.map_map, ← addRefs_ids n.nextId j m.frames]
    exact List.map_congr_left fun x _ => hgid x
  refine ⟨⟨fun x hx => ?_, fun x hx => ?_, ?_⟩, ?_, ?_⟩
  · rw [hframes] at hx
    simpa using (List.mem_filter.1 hx).2
  · rw [hframes] at hx
    have hmem : x.id ∈ m.frames.map HeldFrame.id := by rw [← hids]; exact List.mem_map_of_mem (List.mem_filter.1 hx).1
    obtain ⟨y, hy, hxy⟩ := List.mem_map.1 hmem
    change x.id < k.nextId
    rw [hk, ← hxy]
    exact hm.ids y hy
  · rw [hframes]
    exact (hids ▸ hm.nodup : ((k.frames.map g).map HeldFrame.id).Nodup).sublist (List.filter_sublist.map _)
  · change n.nextId ≤ k.nextId
    omega
  · have hrefs : ((k.frames.map g).filter fun x => x.refs != 0).filter (fun x => decide (x.id < n.nextId)) =
        (k.frames.map g).filter fun x => decide (x.id < n.nextId) := by
      rw [List.filter_filter]
      refine List.filter_congr fun x hx => ?_
      by_cases hlt : x.id < n.nextId
      · obtain ⟨y, hy, rfl⟩ := List.mem_map.1 hx
        rw [hgid] at hlt
        rw [hgother y hlt.ne]
        have hmem : y ∈ m.frames.map fun h => if h.id = n.nextId then { h with refs := h.refs + j } else h := by
          rw [hf] at hy; exact hy
        obtain ⟨z, hz, hzy⟩ := List.mem_map.1 hmem
        have hzid : z.id = y.id := by rw [← hzy]; split <;> rfl
        rw [if_neg (by omega)] at hzy
        have := hm.refs z hz
        simp [← hzy, this]
      · simp [hlt]
    have hmlow : m.frames.filter (fun x => decide (x.id < n.nextId)) = n.frames := by
      have : (m.frames.filter fun x => decide (x.id < (n.hold f tags).nextId)).filter (fun x => decide (x.id < n.nextId)) =
          m.frames.filter fun x => decide (x.id < n.nextId) := by
        rw [List.filter_filter]
        refine List.filter_congr fun x _ => ?_
        by_cases hlt : x.id < n.nextId
        · simp [hlt, show x.id < (n.hold f tags).nextId from Nat.lt_succ_of_lt hlt]
        · simp [hlt]
      rw [← this, hold]
      change (n.frames ++ [_]).filter _ = _
      rw [List.filter_append, List.filter_eq_self.2 fun x hx => by simpa using hs.ids x hx]
      simp
    rw [hframes, hrefs, filter_map_others hgid hgother, hf, addRefs,
      filter_map_others (fun x => by split <;> rfl) (fun x hx => if_neg hx), hmlow]

/-- The frame named `id` goes to the LINE ports, and the unit's own reference to it is released (R43, R59). -/
def State.passOn (p id : Nat) (s : State) : State := { s with net := (s.net.toLines p id).release id }

theorem State.passOn_ports (p id : Nat) (s : State) (q : Nat) : ((s.passOn p id).port q).unqueued = (s.port q).unqueued :=
  (Net.copies_spec id (s.net.upLines (some p)) s.net).1 q

theorem State.passOn_queues (p id : Nat) (s : State) : s.net.KeepsQueues (s.passOn p id).net :=
  (Net.copies_spec id (s.net.upLines (some p)) s.net).2.1

theorem Net.KeepsFrames.passOn {f : Frame} {tags : List BlockTag} (h : (n.hold f tags).KeepsFrames s.net) (p : Nat) :
    n.KeepsFrames (s.passOn p n.nextId).net :=
  h.release_refs (Net.copies_spec n.nextId (s.net.upLines (some p)) s.net).2.2.1
    (Net.copies_spec n.nextId (s.net.upLines (some p)) s.net).2.2.2.1

theorem Net.KeepsExact.passOn {f : Frame} {tags : List BlockTag} (h : (n.hold f tags).KeepsExact s.net) (p : Nat) :
    n.KeepsExact (s.passOn p n.nextId).net := fun _ hx => by
  have hexact := h _ (Net.hold_exact n f tags hx)
  exact Net.release_exact _ n.nextId (Net.copies_exact n.nextId _ _ (Net.upLines_lt _ _) hexact
    (Net.mem_of_named hexact (by simp)))

/-- Events while a frame is held, and the frame passed on after them, are events. -/
theorem EventFrame.passOn {f : Frame} {tags : List BlockTag} (h : EventFrame (s.hold f tags) u) (p : Nat) :
    EventFrame s (u.passOn p s.net.nextId) := by
  have hports := u.passOn_ports p s.net.nextId
  have hport : ∀ {α : Type} (π : Port → α), (∀ P, π P.unqueued = π P) → ∀ q, π ((u.passOn p s.net.nextId).port q) = π (u.port q) :=
    fun π hπ q => by rw [← hπ, hports q, hπ]
  exact { h with
    ports := fun q => (hport Port.core (fun _ => rfl) q).trans (h.ports q)
    tests := fun q => (h.tests q).trans (.of_eq (hport Port.mode (fun _ => rfl) q) (hport Port.burst (fun _ => rfl) q)
      (hport Port.checker (fun _ => rfl) q) (hport Port.injection (fun _ => rfl) q))
    slots := fun q => (h.slots q).trans (.of_eq (hport Port.link (fun _ => rfl) q) (hport Port.stopSlot (fun _ => rfl) q)
      (.inl (hport Port.commandSlot (fun _ => rfl) q)))
    queues := h.queues.trans (u.passOn_queues p _)
    frames := h.frames.passOn p
    exact := h.exact.passOn p }

theorem QuietFrame.passOn {f : Frame} {tags : List BlockTag} (h : QuietFrame (s.hold f tags) u) (p : Nat) :
    QuietFrame s (u.passOn p s.net.nextId) where
  rest := by rw [h.rest]; rfl
  net :=
    { ports := fun q => (u.passOn_ports p _ q).trans (h.net.ports q)
      queues := h.net.queues.trans (u.passOn_queues p _)
      frames := h.net.frames.passOn p
      exact := h.net.exact.passOn p }

theorem State.passOn_hold (p : Nat) (f : Frame) (tags : List BlockTag) (s : State) :
    (s.hold f tags).passOn p s.net.nextId = s.spread p f tags := rfl

/-! ### A held frame rewritten (R72) -/

theorem Net.rewrite_hold (hs : n.Sound) (f g : Frame) (tags : List BlockTag) :
    (n.hold f tags).rewrite n.nextId g = n.hold g tags := by
  have hold : n.frames.map (fun h => if h.id = n.nextId then { h with frame := g } else h) = n.frames :=
    (List.map_congr_left fun x hx => if_neg (hs.ids x hx).ne).trans (List.map_id' _)
  unfold Net.rewrite Net.hold
  dsimp only
  rw [List.map_append, hold]
  simp

theorem Net.Sound.rewrite (h : n.Sound) (id : Nat) (f : Frame) : (n.rewrite id f).Sound := by
  have hids : (n.rewrite id f).frames.map HeldFrame.id = n.frames.map HeldFrame.id := by
    simp only [Net.rewrite, List.map_map]
    exact List.map_congr_left fun x _ => by simp only [Function.comp]; split <;> rfl
  have hmem : ∀ x ∈ (n.rewrite id f).frames, ∃ y ∈ n.frames, x.id = y.id ∧ x.refs = y.refs := fun x hx => by
    obtain ⟨y, hy, rfl⟩ := List.mem_map.1 hx
    exact ⟨y, hy, by split <;> rfl, by split <;> rfl⟩
  refine ⟨fun x hx => ?_, fun x hx => ?_, by rw [hids]; exact h.nodup⟩
  · obtain ⟨y, hy, -, hr⟩ := hmem x hx
    rw [hr]; exact h.refs y hy
  · obtain ⟨y, hy, hi, -⟩ := hmem x hx
    rw [hi]; exact h.ids y hy

theorem Net.KeepsFrames.rewrite {f : Frame} {tags : List BlockTag} (h : (n.hold f tags).KeepsFrames m) (g : Frame) :
    (n.hold g tags).KeepsFrames (m.rewrite n.nextId g) := fun hg => by
  have hs := hg.of_hold
  obtain ⟨hm, hle, hold⟩ := h (hs.hold f tags)
  have hframes : (n.hold g tags).frames = (n.hold f tags).frames.map
      fun x => if x.id = n.nextId then { x with frame := g } else x := congrArg Net.frames (Net.rewrite_hold hs f g tags).symm
  refine ⟨hm.rewrite _ g, hle, ?_⟩
  rw [hframes, ← hold, Net.rewrite, List.filter_map]
  congr 1
  refine List.filter_congr fun x _ => ?_
  simp only [Function.comp]
  split <;> rfl

theorem Net.KeepsExact.rewrite {f : Frame} {tags : List BlockTag} (h : (n.hold f tags).KeepsExact m) (g : Frame) :
    (n.hold g tags).KeepsExact (m.rewrite n.nextId g) := fun units hg => by
  have hback : ((n.hold g tags).rewrite n.nextId f).Exact units := hg.rewrite n.nextId f
  rw [Net.rewrite_hold hg.toSound.of_hold] at hback
  exact (h units hback).rewrite n.nextId g

/-- The frame named `id` is another. -/
def State.rewrite (id : Nat) (f : Frame) (s : State) : State := { s with net := s.net.rewrite id f }

theorem EventFrame.rewrite {f : Frame} {tags : List BlockTag} (h : EventFrame (s.hold f tags) u) (g : Frame) :
    EventFrame (s.hold g tags) (u.rewrite s.net.nextId g) :=
  { h with frames := h.frames.rewrite g, exact := h.exact.rewrite g }

theorem QuietFrame.rewrite {f : Frame} {tags : List BlockTag} (h : QuietFrame (s.hold f tags) u) (g : Frame) :
    QuietFrame (s.hold g tags) (u.rewrite s.net.nextId g) :=
  ⟨by rw [h.rest]; rfl, h.net.ports, h.net.queues, h.net.frames.rewrite g, h.net.exact.rewrite g⟩

end Sys2Proof.Machine
end

section
/-! PROOFS. Samples at their channel (R28, R57, R65 to R73), and the load of a channel (R79, R80). -/

namespace Sys2Proof.Machine

variable {s t u v : State}

/-! ### A channel takes a sample (R65 to R70) -/

section
variable {C : Channel} {x : Reading} {count : Quad}

theorem Channel.take_accepted {d : Option Nat} (h : C.judge x count = .accepted d) : C.take x count =
    ({ C with
      value := x.value, state := .valid, valueAccepted := true, rejectCount := 0, recoveryRun := 0
      lengthRef := if C.record.type = .speed then some count else C.lengthRef
      staleTimer := if C.record.type = .marker then none else some C.record.staleTime
      lastCalibrated := if C.record.type = .marker then C.lastCalibrated
        else some (x.value, if C.record.type = .speed then count else 0#32)
      high := C.record.high.any fun h => decide (h < x.value)
      low := C.record.low.any fun l => decide (x.value < l)
      matched := bump C.matched, accepted := bump C.accepted }, .accepted d) := by
  unfold Channel.take
  rw [h]
  rfl

theorem Channel.take_rejected (h : C.judge x count = .rejected) {failed : Bool}
    (hf : failed = decide (C.record.rejectLimit ≤ C.rejectCount + 1)) : C.take x count =
    ({ C with
      rejectCount := C.rejectCount + 1, matched := bump C.matched, rejected := bump C.rejected
      lastCalibrated := if C.record.type = .marker then C.lastCalibrated
        else some (x.value, if C.record.type = .speed then count else 0#32)
      state := if failed then .failed else if C.state = .valid then .suspect else C.state
      staleTimer := if failed then none else C.staleTimer
      recoveryRun := if failed then 0 else C.recoveryRun }, .rejected) := by
  unfold Channel.take
  rw [h]
  unfold Channel.reject
  dsimp only
  by_cases hlimit : C.record.rejectLimit ≤ C.rejectCount + 1
  · obtain rfl : failed = true := by rw [hf]; exact decide_eq_true hlimit
    rw [if_pos hlimit]
    rfl
  · obtain rfl : failed = false := by rw [hf]; exact decide_eq_false hlimit
    rw [if_neg hlimit]
    cases hs : C.state <;> simp

theorem Channel.take_recovering {run : Nat} (h : C.judge x count = .recovering run) : C.take x count =
    ({ C with
      matched := bump C.matched, recoveryRun := run
      lastCalibrated := if C.record.type = .marker then C.lastCalibrated
        else some (x.value, if C.record.type = .speed then count else 0#32) }, .recovering run) := by
  unfold Channel.take
  rw [h]

/-- A channel of THICKNESS, TENSION, SPEED or FORCE at work judges by its step limits (R68). -/
theorem Channel.judge_step (hs : C.state = .valid ∨ C.state = .suspect) (hm : C.record.type ≠ .marker) : C.judge x count =
    if C.stepPasses x count then .accepted (if C.record.type = .speed then C.lengthRef.map (lengthDelta count) else none)
    else .rejected := by
  unfold Channel.judge
  rcases hs with hs | hs <;> rw [hs] <;> exact if_neg hm

/-- A channel without a current value, and a MARKER's that is not FAILED, judges by the range (R67, R75). -/
theorem Channel.judge_range (hs : C.state = .waiting ∨ C.state = .stale ∨
    (C.record.type = .marker ∧ (C.state = .valid ∨ C.state = .suspect))) :
    C.judge x count = if x.inRange then .accepted none else .rejected := by
  unfold Channel.judge
  rcases hs with hs | hs | ⟨hm, hs | hs⟩ <;> rw [hs]
  all_goals exact if_pos hm

theorem Channel.judge_failed (hs : C.state = .failed) : C.judge x count =
    if C.nextRun x count = 3 then .accepted none else .recovering (C.nextRun x count) := by
  unfold Channel.judge
  rw [hs]

theorem Channel.stepPasses_iff : C.stepPasses x count = true ↔ |x.value - C.value| ≤ C.record.stepLimit ∧
    (C.record.type = .speed → ∀ r, C.lengthRef = some r → (count - r).toNat ≤ C.record.lengthLimit) := by
  unfold Channel.stepPasses lengthDelta
  cases C.lengthRef <;> by_cases hspeed : C.record.type = .speed <;> simp [hspeed]

end

theorem ChannelRecord.reading_calibrated {r : ChannelRecord} {raw w : Int} {clamped : Bool} (hm : r.type ≠ .marker)
    (h : ChannelRecord.calibrate r raw = (w, clamped)) : ChannelRecord.reading r raw = ⟨w, clamped, !clamped⟩ := by
  unfold ChannelRecord.reading
  rw [if_neg hm, h]

theorem ChannelRecord.reading_marker {r : ChannelRecord} (hm : r.type = .marker) (raw : Int) :
    ChannelRecord.reading r raw = ⟨raw, false, (markerOf raw).isSome⟩ := if_pos hm

/-! ### A channel written -/

theorem State.channel_modChannel_self {c : Nat} (hc : c < 32) (f : Channel → Channel) (s : State) :
    (s.modChannel c f).channel c = f (s.channel c) := (State.channel_modChannel s c c f).trans (if_pos ⟨rfl, hc⟩)

theorem State.modChannel_modChannel (c : Nat) (f g : Channel → Channel) (s : State) :
    (s.modChannel c f).modChannel c g = s.modChannel c fun C => g (f C) := by
  by_cases hc : c < 32
  · have h := State.channel_modChannel_self hc f s
    unfold State.modChannel State.channel at h ⊢
    rw [h]
    exact congrArg (fun l => { s with channels := l }) (setAt_setAt _ _ _ _)
  · have hid : ∀ (w : State) (f : Channel → Channel), w.modChannel c f = w := fun w f => by
      unfold State.modChannel setAt
      rw [Vector.setIfInBounds_eq_of_size_le (by omega)]
    rw [hid, hid, hid]

theorem State.modChannel_self {c : Nat} {f : Channel → Channel} (h : f (s.channel c) = s.channel c) : s.modChannel c f = s := by
  unfold State.modChannel
  rw [h, State.channel, setAt_getAt]

theorem State.modChannel_congr {c : Nat} {f g : Channel → Channel} (h : f (s.channel c) = g (s.channel c)) :
    s.modChannel c f = s.modChannel c g := by
  unfold State.modChannel
  rw [h]

theorem EventFrame.channel (h : EventFrame s t) (c : Nat) : t.channel c = s.channel c := by simp only [State.channel, h.channels]

theorem EventFrame.modChannel (h : EventFrame s t) (c : Nat) (f : Channel → Channel) :
    EventFrame (s.modChannel c f) (t.modChannel c f) :=
  { h with
    channels := by
      change setAt t.channels c (f (t.channel c)) = setAt s.channels c (f (s.channel c))
      rw [h.channel, h.channels] }

theorem EventFrame.setModified (h : EventFrame s t) (k : Nat) : EventFrame (s.setModified k) (t.setModified k) :=
  { h with store := by simp only [State.setModified, h.store] }

/-- A channel whose conditions no entry refers to. -/
theorem State.setChannel_unheard {c : Nat} (hr : ∀ k, s.refs ⟨k, c⟩ = []) (C : Channel) :
    s.setChannel c C = s.modChannel c fun _ => C := by
  have hr' : ∀ k, (s.modChannel c fun _ => C).refs ⟨k, c⟩ = [] := hr
  unfold State.setChannel
  dsimp only
  rw [State.changed_unreferenced (hr' .stale) (by simp), State.changed_unreferenced (hr' .failed) (by simp),
    State.changed_unreferenced (hr' .high) (by simp), State.changed_unreferenced (hr' .low) (by simp)]

/-! ### A sample at its port (R28, R57, R59) -/

/-- A port written without a change of any level. -/
theorem State.setPort_steady {p : Nat} {f : Port → Port} (h : Port.SameLevels (s.port p) (f (s.port p)))
    (hs : (f (s.port p)).silent = (s.port p).silent) : s.setPort p f = s.modPort p f := by
  by_cases hp : p < 12
  · have hport : (s.modPort p f).port p = f (s.port p) := by rw [State.port_modPort, if_pos ⟨rfl, hp⟩]
    unfold State.setPort
    dsimp only
    rw [State.changed_same (c := ⟨.link, p⟩), State.changed_same (c := ⟨.silent, p⟩), State.changed_same (c := ⟨.babble, p⟩),
      State.changed_same (c := ⟨.rate, p⟩), State.changed_same (c := ⟨.storm, p⟩)]
    all_goals simp only [State.level, hport, h.link, h.mode, h.rate, h.limiting, hs]
  · have hid : ∀ g, s.modPort p g = s := fun g => by rw [State.modPort, Net.modPort_outside _ _ _ hp]
    unfold State.setPort
    dsimp only
    rw [hid]
    simp only [State.changed_same]

theorem Port.admits_iff (P : Port) : P.admits = true ↔ (P.limiting = true ∧ P.stormCount < P.record.falling) ∨
    (P.limiting = false ∧ P.stormCount < P.record.rising) := by
  unfold Port.admits
  cases P.limiting <;> simp

/-- The port has counted a sample that it admits, and its burst is over (R28). -/
def State.offered (p : Nat) (s : State) : State := s.modPort p fun P => { P with burst := none, stormCount := P.stormCount + 1 }

/-- What the gauge unit's verdict makes of the held frame of a sample (R60, R72, R73). -/
def State.endSample (p id : Nat) (f : Frame) (r : State × SampleFate) : State :=
  match r.2 with
  | .muted => r.1.release id
  | .unchanged => r.1.passOn p id
  | .rewritten y => (r.1.rewrite id { f with payload := putSample y }).passOn p id

theorem State.endSample_eq (p id : Nat) (f : Frame) (r : State × SampleFate) :
    (match r with
      | (s, fate) => match fate with
        | .muted => s.release id
        | .unchanged => { s with net := (s.net.toLines p id).release id }
        | .rewritten y => { s with net := ((s.net.rewrite id { f with payload := putSample y }).toLines p id).release id }) =
      State.endSample p id f r := by
  obtain ⟨u, fate⟩ := r
  cases fate <;> rfl

section
variable {p : Fin 12} {dest source : Byte} {f : SampleFields}

theorem State.sample_row (h : s.Takes p source) (hr : (s.port p).record.role = .sensor) (hb : s.HasBlock p) :
    ∃ b : Burst, exec (.sample p dest source f) s =
      .next ((s.reburst p (some b)).sampleFrame p ⟨dest, source, .sample, putSample f⟩ f) := by
  obtain ⟨b, hb⟩ := h.arrive hb (State.sampleAtRole p (sampleFrameOf dest source f) f)
  refine ⟨b, congrArg Host.Outcome.next (hb.trans (if_pos ((Port.hasRole_iff _ _).2 ?_)))⟩
  rw [State.reburst_port, if_pos ⟨rfl, p.isLt⟩]
  exact hr

theorem State.sample_admitted (h : s.Takes p source) (hr : (s.port p).record.role = .sensor) (hb : s.HasBlock p)
    (ha : (s.port p).admits = true) : ∃ tags, exec (.sample p dest source f) s =
      .next (State.endSample p s.net.nextId ⟨dest, source, .sample, putSample f⟩
        (((s.offered p).hold ⟨dest, source, .sample, putSample f⟩ tags).takeSample source f)) := by
  obtain ⟨b, hexec⟩ := State.sample_row (dest := dest) (f := f) h hr hb
  have hport : (s.reburst p (some b)).port p = (s.port p).setLane .line (some b) := by
    rw [State.reburst_port, if_pos ⟨rfl, p.isLt⟩]
  have hadmits : ((s.reburst p (some b)).port p).admits = true := by rw [hport]; exact ha
  have hoffer : (s.reburst p (some b)).offer p = (s.reburst p (some b)).modPort p fun P =>
      { P with stormCount := P.stormCount + 1, limiting := P.limiting || !P.admits } :=
    State.setPort_steady ⟨rfl, rfl, rfl, by dsimp only; rw [hadmits]; simp⟩ rfl
  have hdrop : ((s.reburst p (some b)).offer p).drop p = s.offered p := by
    rw [hoffer, State.drop_eq, State.modPort_modPort]
    refine (State.modPort_modPort s p _ _).trans (State.modPort_congr ?_)
    have hsame : ((s.port p).limiting || !((s.port p).setLane .line (some b)).admits) = (s.port p).limiting := by
      rw [← hport, hadmits]; simp
    simp only [Port.setLane_line] at hsame ⊢
    rw [hsame]
  refine ⟨burstTags (((s.reburst p (some b)).offer p).port p).burst, hexec.trans (congrArg Host.Outcome.next ?_)⟩
  have hnext : ((s.reburst p (some b)).offer p).net.nextId = s.net.nextId := by rw [hoffer]; rfl
  unfold State.sampleFrame
  rw [if_neg (by simp [hadmits]), ← hdrop, ← hnext]
  generalize (s.reburst p (some b)).offer p = w
  exact State.endSample_eq p _ _ _

/-- The channel that a sample matches takes it, and its results are handed on (R65, R72, R73). -/
theorem State.takeSample_matched {c : Nat} {C : Channel} {x : Reading} {j : Judgement}
    (hm : s.matching source f.point = some c) (hx : ChannelRecord.reading (s.channel c).record f.raw = x)
    (ht : (s.channel c).take x f.lengthCount = (C, j)) : s.takeSample source f =
      if C.state = .failed ∧ (s.channel c).record.treatment = .mute then
        (((s.setChannel c C).handOn c x j).modChannel c fun K => { K with muted := bump K.muted }, .muted)
      else ((s.setChannel c C).handOn c x j, .rewritten { f with eng := C.value, quality := C.quality x j }) := by
  unfold State.takeSample
  rw [hm]
  dsimp only
  rw [hx, ht]

theorem State.matching_lt {c : Nat} {point : Byte} (h : s.matching source point = some c) : c < 32 :=
  List.mem_range.1 (List.mem_of_find?_eq_some h)

/-- What a sample of an admitting port gives, by the judgement of the channel it matches (R65, R72, R73). -/
theorem State.sampleGives {c : Nat} {C : Channel} {x : Reading} {j : Judgement} {hand : State → State} (h : s.Takes p source)
    (hr : (s.port p).record.role = .sensor) (hb : s.HasBlock p) (ha : (s.port p).admits = true)
    (hm : s.matching source f.point = some c) (hx : ChannelRecord.reading (s.channel c).record f.raw = x)
    (ht : (s.channel c).take x f.lengthCount = (C, j)) (hrec : C.record = (s.channel c).record)
    (hhand : ∀ u : State, (u.channel c).record = (s.channel c).record → u.handOn c x j = hand u) :
    s.SampleGives p dest source f c C hand := by
  obtain ⟨tags, hexec⟩ := State.sample_admitted (dest := dest) (f := f) h hr hb ha
  generalize hw : (s.offered p).hold ⟨dest, source, .sample, putSample f⟩ tags = w at hexec
  have hwm : w.matching source f.point = some c := by rw [← hw]; exact hm
  have hwc : w.channel c = s.channel c := by rw [← hw]; rfl
  have htake := State.takeSample_matched (C := C) (x := x) (j := j) hwm (by rw [hwc]; exact hx) (by rw [hwc]; exact ht)
  have hevent := State.setChannel_event c C w
  have hchan : ((w.setChannel c C).channel c).record = (s.channel c).record := by
    rw [hevent.channel, State.channel_modChannel_self (State.matching_lt hm), hrec]
  rw [htake, hhand _ hchan, hwc] at hexec
  refine ⟨s.offered p, tags, w.setChannel c C, _, rfl, ?_, hexec, ?_⟩
  · rw [← hw] at hevent ⊢
    exact hevent
  · rw [hrec]
    generalize hand (w.setChannel c C) = y
    split
    · exact ⟨rfl, fun _ => rfl, .of_eq fun _ => rfl⟩
    · rw [State.modChannel_self (s := y) (by rfl)]
      exact ⟨rfl, State.passOn_ports p _ _, State.passOn_queues p _ _⟩

/-- A sample of type THICKNESS or TENSION is handed on to nobody: its channel changes, and its frame goes on or is muted. -/
theorem State.sample_plain {c : Nat} {C : Channel} {x : Reading} {j : Judgement} (h : s.Takes p source)
    (hr : (s.port p).record.role = .sensor) (hb : s.HasBlock p) (ha : (s.port p).admits = true)
    (hm : s.matching source f.point = some c) (hx : ChannelRecord.reading (s.channel c).record f.raw = x)
    (hty : (s.channel c).record.type = .thickness ∨ (s.channel c).record.type = .tension)
    (ht : (s.channel c).take x f.lengthCount = (C, j)) (hrec : C.record = (s.channel c).record) :
    ∃ tags u, EventFrame (((s.offered p).modChannel c fun _ => C).hold ⟨dest, source, .sample, putSample f⟩ tags) u ∧
      ((∀ k, s.refs ⟨k, c⟩ = []) →
        u = ((s.offered p).modChannel c fun _ => C).hold ⟨dest, source, .sample, putSample f⟩ tags) ∧
      exec (.sample p dest source f) s = .next (
        if C.state = .failed ∧ (s.channel c).record.treatment = .mute then
          (u.modChannel c fun K => { K with muted := bump K.muted }).release s.net.nextId
        else (u.rewrite s.net.nextId ⟨dest, source, .sample, putSample { f with eng := C.value, quality := C.quality x j }⟩).passOn
          p s.net.nextId) := by
  obtain ⟨tags, hexec⟩ := State.sample_admitted (dest := dest) (f := f) h hr hb ha
  generalize hw : (s.offered p).hold ⟨dest, source, .sample, putSample f⟩ tags = w at hexec
  have hwm : w.matching source f.point = some c := by rw [← hw]; exact hm
  have hwc : w.channel c = s.channel c := by rw [← hw]; rfl
  have htake := State.takeSample_matched (C := C) (x := x) (j := j) hwm (by rw [hwc]; exact hx) (by rw [hwc]; exact ht)
  have hevent := State.setChannel_event c C w
  have hplain : (w.setChannel c C).handOn c x j = w.setChannel c C := by
    have hchan : ((w.setChannel c C).channel c).record.type = (s.channel c).record.type := by
      rw [hevent.channel, State.channel_modChannel_self (State.matching_lt hm), hrec]
    unfold State.handOn
    rw [hchan]
    rcases hty with hty | hty <;> rw [hty]
  rw [htake, hplain, hwc] at hexec
  refine ⟨tags, w.setChannel c C, ?_, fun hrefs => ?_, hexec.trans (congrArg Host.Outcome.next ?_)⟩
  · rw [← hw] at hevent ⊢
    exact hevent
  · have hwrefs : ∀ k, w.refs ⟨k, c⟩ = [] := fun k => by
      rw [← hw]
      exact hrefs k
    rw [State.setChannel_unheard hwrefs, ← hw]
    rfl
  · split <;> rfl

end

end Sys2Proof.Machine
end

section
/-! PROOFS. Samples accepted, turned away and handed on; channels loaded and gone stale (R65 to R80). -/

namespace Sys2Proof.Machine

variable {s t u v : State}

/-! ### Judgements by value and range (R67, R68) -/

section
variable {C : Channel} {w : Int} {clamped : Bool} {count : Quad}

theorem Channel.judge_within (hm : C.record.type ≠ .marker) (hsp : C.record.type ≠ .speed)
    (h : ((C.state = .valid ∨ C.state = .suspect) ∧ |w - C.value| ≤ C.record.stepLimit) ∨
      ((C.state = .waiting ∨ C.state = .stale) ∧ clamped = false)) : C.judge ⟨w, clamped, !clamped⟩ count = .accepted none := by
  rcases h with ⟨hs, hstep⟩ | ⟨hs, rfl⟩
  · rw [Channel.judge_step hs hm, if_pos (Channel.stepPasses_iff.2 ⟨hstep, fun h => absurd h hsp⟩), if_neg hsp]
  · rw [Channel.judge_range (by tauto)]
    rfl

theorem Channel.judge_outside (hm : C.record.type ≠ .marker)
    (h : ((C.state = .valid ∨ C.state = .suspect) ∧ ((C.record.stepLimit : Int) < |w - C.value| ∨
        (C.record.type = .speed ∧ ∃ r, C.lengthRef = some r ∧ C.record.lengthLimit < (count - r).toNat))) ∨
      ((C.state = .waiting ∨ C.state = .stale) ∧ clamped = true)) : C.judge ⟨w, clamped, !clamped⟩ count = .rejected := by
  rcases h with ⟨hs, hstep⟩ | ⟨hs, rfl⟩
  · rw [Channel.judge_step hs hm, if_neg]
    intro hpass
    obtain ⟨hw, hlen⟩ := Channel.stepPasses_iff.1 hpass
    rcases hstep with hstep | ⟨hsp, r, hr, hlimit⟩
    · exact absurd hw (not_le.2 hstep)
    · exact absurd (hlen hsp r hr) (not_le.2 hlimit)
  · rw [Channel.judge_range (by tauto)]
    rfl

end

/-- A held frame rewritten and passed on is a copy of the rewritten frame on each LINE port (R59, R72). -/
theorem State.passOn_rewritten (p : Nat) (f g : Frame) (tags : List BlockTag) (s : State) :
    s.Copied (((s.hold f tags).rewrite s.net.nextId g).passOn p s.net.nextId) p g := fun hs => by
  have hheld : (s.hold f tags).rewrite s.net.nextId g = s.hold g tags :=
    congrArg (fun n => { s with net := n }) (Net.rewrite_hold hs f g tags)
  rw [hheld, State.passOn_hold]
  exact State.spread_copied p g tags s hs

/-- A frame held and released leaves the frames as they were (R43). -/
theorem Net.release_hold_frames {n : Net} (hs : n.Sound) (f : Frame) (tags : List BlockTag) :
    ((n.hold f tags).release n.nextId).frames = n.frames :=
  (release_append n.frames ⟨n.nextId, f, tags, 1⟩ hs.refs fun y hy => (hs.ids y hy).ne).trans (by simp)

/-- Settles O23: the judgement accepts, and the frame goes on with the value and its quality. -/
theorem acceptedSampleUpdatesItsChannel : Obligations.AcceptedSampleUpdatesItsChannel := by
  unfold Obligations.AcceptedSampleUpdatesItsChannel
  intro s p dest source f c w clamped h hr hb hadmit hm hty hcal hjudge
  have hmarker : (s.channel c).record.type ≠ .marker := by rcases hty with hty | hty <;> rw [hty] <;> decide
  have hspeed : (s.channel c).record.type ≠ .speed := by rcases hty with hty | hty <;> rw [hty] <;> decide
  have htake := Channel.take_accepted (Channel.judge_within (count := f.lengthCount) hmarker hspeed hjudge)
  rw [if_neg hspeed, if_neg hspeed, if_neg hmarker, if_neg hmarker] at htake
  obtain ⟨tags, u, hevent, hquiet, hexec⟩ := State.sample_plain (dest := dest) h hr hb ((Port.admits_iff _).2 hadmit) hm
    (ChannelRecord.reading_calibrated hmarker hcal) hty htake rfl
  rw [if_neg fun hc => ChannelState.noConfusion hc.1] at hexec
  refine ⟨(s.offered p).modChannel c fun _ => _, _, State.modChannel_congr rfl, hexec, (hevent.rewrite _).passOn p, fun hrefs => ?_⟩
  rw [hquiet hrefs]
  exact ⟨((QuietFrame.refl _).rewrite _).passOn p, State.passOn_rewritten _ _ _ _ _⟩

/-! ### Samples turned away (R28, R29, R57, R69, R73) -/

/-- A sample beyond the storm limit is discarded, and takes its port to LIMITING (R28, R29). -/
theorem State.sample_storm {p : Fin 12} {dest source : Byte} {f : SampleFields} (h : s.Takes p source)
    (hr : (s.port p).record.role = .sensor) (hb : s.HasBlock p) (ha : (s.port p).admits = false) :
    ∃ t, exec (.sample p dest source f) s = .next t ∧ EventFrame (s.modPort p fun P =>
      { P with burst := none, stormCount := P.stormCount + 1, limiting := true,
               counters := { P.counters with storm := bump P.counters.storm } }) t := by
  obtain ⟨b, hexec⟩ := State.sample_row (dest := dest) (f := f) h hr hb
  have hport : (s.reburst p (some b)).port p = (s.port p).setLane .line (some b) := by
    rw [State.reburst_port, if_pos ⟨rfl, p.isLt⟩]
  have hadmits : ((s.reburst p (some b)).port p).admits = false := by rw [hport]; exact ha
  refine ⟨_, hexec, ?_⟩
  unfold State.sampleFrame
  rw [hadmits, if_pos (show (!false) = true from rfl), State.reburst_discard, State.discard_eq]
  have hevent := State.setPort_event p (fun P => { P with stormCount := P.stormCount + 1, limiting := P.limiting || !P.admits })
    (s.modPort p fun P => { P with burst := none, counters := P.counters.count .storm })
  rw [State.modPort_modPort] at hevent
  refine (State.modPort_congr ?_ : s.modPort p _ = s.modPort p _) ▸ hevent
  have hlimiting : ((s.port p).limiting || !(s.port p).admits) = true := by rw [ha]; simp
  have hsame : ((s.port p).limiting || !({ s.port p with burst := none, counters := (s.port p).counters.count .storm } : Port).admits) =
    true := hlimiting
  dsimp only
  rw [hsame]
  rfl

theorem EventFrame.hold_modChannel {f : Frame} {tags : List BlockTag} (h : EventFrame (s.hold f tags) u) (c : Nat)
    (g : Channel → Channel) : EventFrame ((s.modChannel c g).hold f tags) (u.modChannel c g) := h.modChannel c g

/-- Settles O24: a sample beyond the limit, without a channel, or rejected by its channel. -/
theorem samplesTurnedAwayKeepTheValue : Obligations.SamplesTurnedAwayKeepTheValue := by
  unfold Obligations.SamplesTurnedAwayKeepTheValue
  intro s p dest source f h hr hb
  refine ⟨fun hstorm => State.sample_storm h hr hb ?_, fun hadmit => ⟨s.offered p, rfl, fun hm => ?unmatched,
    fun c C x clamped hm hC hty hcal hjudge => ?rejected⟩⟩
  · rw [Bool.eq_false_iff, ne_eq, Port.admits_iff]
    rcases hstorm with ⟨hl, hn⟩ | ⟨hl, hn⟩ <;> simp [hl, hn]
  all_goals have ha := (Port.admits_iff _).2 hadmit
  case unmatched =>
    obtain ⟨tags, hexec⟩ := State.sample_admitted (dest := dest) (f := f) h hr hb ha
    have htake : ((s.offered p).hold ⟨dest, source, .sample, putSample f⟩ tags).takeSample source f =
        ((s.offered p).hold ⟨dest, source, .sample, putSample f⟩ tags, .unchanged) := by
      have hm : ((s.offered p).hold ⟨dest, source, .sample, putSample f⟩ tags).matching source f.point = none := hm
      unfold State.takeSample
      rw [hm]
    rw [htake] at hexec
    exact ⟨_, hexec, (QuietFrame.refl _).passOn p, State.spread_copied p _ tags _⟩
  case rejected =>
    subst hC
    have hmarker : (s.channel c).record.type ≠ .marker := by rcases hty with hty | hty <;> rw [hty] <;> decide
    have hspeed : (s.channel c).record.type ≠ .speed := by rcases hty with hty | hty <;> rw [hty] <;> decide
    generalize hf : decide ((s.channel c).record.rejectLimit ≤ (s.channel c).rejectCount + 1) = failed
    have htake := Channel.take_rejected (count := f.lengthCount)
      (Channel.judge_outside hmarker (hjudge.imp_left fun hj => ⟨hj.1, .inl hj.2⟩)) hf.symm
    rw [if_neg hspeed, if_neg hmarker] at htake
    obtain ⟨tags, u, hevent, hquiet, hexec⟩ := State.sample_plain (dest := dest) h hr hb ha hm
      (ChannelRecord.reading_calibrated hmarker hcal) hty htake rfl
    have hstate : ((if failed = true then ChannelState.failed else
        if (s.channel c).state = .valid then .suspect else (s.channel c).state) = .failed) ↔ failed = true := by
      cases failed
      · rcases hjudge with ⟨hs | hs, -⟩ | ⟨hs | hs, -⟩ <;> simp [hs]
      · simp
    have hchan : (s.offered p).channel c = s.channel c := rfl
    by_cases hmute : failed = true ∧ (s.channel c).record.treatment = .mute
    · rw [if_pos ⟨hstate.2 hmute.1, hmute.2⟩] at hexec
      refine ⟨_, failed, ((s.offered p).modChannel c fun _ => _).modChannel c fun K => { K with muted := bump K.muted }, rfl, ?_,
        hexec, (hevent.hold_modChannel c _).release_hold, fun hrefs => ?_⟩
      · rw [State.modChannel_modChannel]
        refine State.modChannel_congr ?_
        dsimp only
        rw [hchan, if_pos hmute]
      · rw [hquiet hrefs]
        exact ⟨(QuietFrame.refl (State.hold _ tags _)).release_hold, fun hn => absurd hmute (by rcases hn with hn | hn <;> simp [hn]),
          fun _ _ hs => ⟨fun _ => rfl, Net.release_hold_frames (hs.modPort p _) _ tags⟩⟩
    · rw [if_neg fun hc => hmute ⟨hstate.1 hc.1, hc.2⟩] at hexec
      refine ⟨_, failed, (s.offered p).modChannel c fun _ => _, rfl, ?_, hexec, (hevent.rewrite _).passOn p, fun hrefs => ?_⟩
      · refine State.modChannel_congr ?_
        dsimp only
        rw [hchan, if_neg hmute]
      · rw [hquiet hrefs]
        refine ⟨((QuietFrame.refl _).rewrite _).passOn p, fun _ => ?_, fun h1 h2 => absurd ⟨h1, h2⟩ hmute⟩
        have hquality : ∀ K : Channel, (K.state = .failed ↔ failed = true) →
            K.quality ⟨x, clamped, !clamped⟩ .rejected = if failed then .failed else .suspect := fun K hK => by
          cases failed
          · exact if_neg fun hc => Bool.noConfusion (hK.1 hc)
          · exact if_pos (hK.2 rfl)
        rw [hquality _ hstate]
        exact State.passOn_rewritten _ _ _ _ _

/-! ### Results handed on (R74 to R76) -/

section
variable {c : Nat} {x : Reading} {j : Judgement}

/-- A sample that was not accepted hands on its outcome alone, at a FORCE channel. -/
theorem State.handOn_unaccepted (hj : j = .rejected ∨ ∃ run, j = .recovering run) (u : State) :
    u.handOn c x j = if (u.channel c).record.type = .force then u.forceOutcomes c none else u := by
  unfold State.handOn
  rcases hj with rfl | ⟨run, rfl⟩ <;> cases (u.channel c).record.type <;> rfl

/-- A sample accepted without an advance hands on its outcome alone, at a FORCE channel. -/
theorem State.handOn_accepted (u : State) (hm : (u.channel c).record.type ≠ .marker) : u.handOn c x (.accepted none) =
    if (u.channel c).record.type = .force then u.forceOutcomes c (some x.value) else u := by
  unfold State.handOn
  cases ht : (u.channel c).record.type
  case marker => exact absurd ht hm
  all_goals rfl

theorem State.handOn_advance (u : State) (hs : (u.channel c).record.type = .speed) (d : Nat) :
    u.handOn c x (.accepted (some d)) = u.advance c d := by
  unfold State.handOn
  rw [hs]

theorem State.handOn_marker (u : State) (hm : (u.channel c).record.type = .marker) {k : Marker} (hk : markerOf x.value = some k) :
    u.handOn c x (.accepted none) = u.mark c k := by
  unfold State.handOn
  rw [hm]
  dsimp only
  rw [hk]

end

theorem markerOf_code {k : Marker} {raw : Int} (h : (k = .head ∧ raw = 1) ∨ (k = .tail ∧ raw = 2) ∨ (k = .weld ∧ raw = 3)) :
    markerOf raw = some k := by
  rcases h with ⟨rfl, rfl⟩ | ⟨rfl, rfl⟩ | ⟨rfl, rfl⟩ <;> rfl

theorem markerOf_none {raw : Int} (h : raw < 1 ∨ 3 < raw) : markerOf raw = none := by
  unfold markerOf
  rw [if_neg (by omega), if_neg (by omega), if_neg (by omega)]

theorem markerOf_isSome {raw : Int} (h1 : 1 ≤ raw) (h3 : raw ≤ 3) : (markerOf raw).isSome = true := by
  obtain rfl | rfl | rfl : raw = 1 ∨ raw = 2 ∨ raw = 3 := by omega
  all_goals rfl

/-! ### The recovery run (R70, R75) -/

section
variable {C : Channel} {x : Reading} {count : Quad}

/-- At a MARKER each valid code continues the run (R75). -/
theorem Channel.nextRun_marker (hm : C.record.type = .marker) (hx : x.inRange = true) : C.nextRun x count = C.recoveryRun + 1 := by
  have hgo : C.runContinues x count = true := by
    unfold Channel.runContinues
    cases C.lastCalibrated <;> simp [hm]
  unfold Channel.nextRun
  by_cases h0 : C.recoveryRun = 0 <;> simp [hx, h0, hgo]

theorem Channel.nextRun_outside (hx : x.inRange = false) : C.nextRun x count = 0 := if_pos (by rw [hx]; rfl)

/-- At the other types the run goes on within the step limits of the sample before (R70). -/
theorem Channel.nextRun_stepwise {w : Int} {clamped : Bool} (hm : C.record.type ≠ .marker) :
    C.nextRun ⟨w, clamped, !clamped⟩ count =
      if clamped = true then 0 else if C.recoveryRun = 0 then 1 else
        match C.lastCalibrated with
        | none => 1
        | some (y, n) => if |w - y| ≤ C.record.stepLimit ∧ (C.record.type = .speed → (count - n).toNat ≤ C.record.lengthLimit)
            then C.recoveryRun + 1 else 1 := by
  unfold Channel.nextRun Channel.runContinues lengthDelta
  cases clamped
  · cases C.lastCalibrated with
    | none => simp [hm]
    | some q =>
      obtain ⟨y, n⟩ := q

      by_cases h : C.record.type = .speed <;> simp [h, hm]
  · rfl

end

/-! ### The stands that name a channel (R76) -/

theorem State.forceOutcomes_unnamed {c : Nat}
    (h : ∀ n, 1 ≤ n → n ≤ 8 → (s.stand n).record.configured = true → (s.stand n).record.force ≠ c) (w : Option Int) :
    s.forceOutcomes c w = s := by
  unfold State.forceOutcomes
  rw [List.filter_eq_nil_iff.2 fun n hn hc => ?_, List.foldl_nil]
  obtain ⟨h1, h8⟩ := (standNumbers_valid n).1 hn
  simp only [Bool.and_eq_true, beq_iff_eq] at hc
  exact h n h1 h8 hc.1 hc.2

/-- What singles out one stand selects it alone. -/
theorem filter_standNumbers_single {f : Nat → Bool} {n : Nat} (h1 : 1 ≤ n) (h8 : n ≤ 8) (hn : f n = true)
    (h : ∀ m, 1 ≤ m → m ≤ 8 → m ≠ n → f m = false) : standNumbers.filter f = [n] := by
  have hsame : standNumbers.filter f = standNumbers.filter (· == n) := List.filter_congr fun m hm => by
    obtain ⟨hm1, hm8⟩ := (standNumbers_valid m).1 hm
    by_cases hmn : m = n
    · rw [hmn, hn]; simp
    · rw [h m hm1 hm8 hmn]; simp [hmn]
  rw [hsame, List.filter_beq, List.count_eq_one_of_mem standNumbers_nodup ((standNumbers_valid n).2 ⟨h1, h8⟩)]
  rfl

theorem State.forceOutcomes_single {c n : Nat} (h1 : 1 ≤ n) (h8 : n ≤ 8) (hc : (s.stand n).record.configured = true)
    (hf : (s.stand n).record.force = c)
    (h : ∀ m, 1 ≤ m → m ≤ 8 → m ≠ n → (s.stand m).record.configured = true → (s.stand m).record.force ≠ c) (w : Option Int) :
    s.forceOutcomes c w = s.forceOutcome n w := by
  unfold State.forceOutcomes
  rw [filter_standNumbers_single h1 h8 (by simp [hc, hf]) fun m hm1 hm8 hmn => ?_]
  · rfl
  · cases hmc : (s.stand m).record.configured
    · rfl
    · simpa using h m hm1 hm8 hmn hmc

/-- Settles O25: by the channel's type and state, the judgement, what the channel takes of it, and what is handed on. -/
theorem samplesAreHandedOnByType : Obligations.SamplesAreHandedOnByType := by
  unfold Obligations.SamplesAreHandedOnByType
  refine ⟨?_, fun s c w => ⟨fun h => State.forceOutcomes_unnamed h w, fun n h1 h8 hc hf h =>
    State.forceOutcomes_single h1 h8 hc hf h w⟩⟩
  intro s p dest source f c C w clamped A h hr hb ha hm hC hcal hA
  subst hC hA
  refine ⟨fun hty => ?speed, fun hty hjudge => ?force, fun hty hjudge => ?rejected, fun hty m hcode hs => ?marker,
    fun hty hcode => ?other, fun hty h1 h3 hs hrun => ?counted, fun hs hty run hrun => ?recovery⟩
  case speed =>
    have hmarker : (s.channel c).record.type ≠ .marker := by rw [hty]; decide
    have hx := ChannelRecord.reading_calibrated hmarker hcal
    have htake : ∀ d, (s.channel c).judge ⟨w, clamped, !clamped⟩ f.lengthCount = .accepted d → _ := fun d hj => by
      have := Channel.take_accepted hj
      rw [if_pos hty, if_pos hty, if_neg hmarker, if_neg hmarker] at this
      exact this
    have hplain : ∀ u : State, (u.channel c).record = (s.channel c).record →
        u.handOn c ⟨w, clamped, !clamped⟩ (.accepted none) = id u := fun u hu => by
      rw [State.handOn_accepted u (by rw [hu]; exact hmarker), if_neg (by rw [hu, hty]; decide)]
      rfl
    refine ⟨fun hs hstep => ⟨fun r hlast hlen => ?_, fun hlast => ?_⟩, fun hs hin => ?_⟩
    · refine State.sampleGives h hr hb ha hm hx (htake (some (f.lengthCount - r).toNat) ?_) rfl fun u hu =>
        State.handOn_advance u (by rw [hu]; exact hty) _
      rw [Channel.judge_step hs hmarker, if_pos (Channel.stepPasses_iff.2 ⟨hstep, fun _ r' hr' => ?_⟩), if_pos hty, hlast]
      · rfl
      · obtain rfl : r = r' := Option.some.inj (hlast.symm.trans hr')
        exact hlen
    · refine State.sampleGives h hr hb ha hm hx (htake none ?_) rfl hplain
      rw [Channel.judge_step hs hmarker, if_pos (Channel.stepPasses_iff.2 ⟨hstep, fun _ r' hr' => ?_⟩), if_pos hty, hlast]
      · rfl
      · exact absurd (hlast.symm.trans hr') (by simp)
    · refine State.sampleGives h hr hb ha hm hx (htake none ?_) rfl hplain
      rw [Channel.judge_range (by tauto), hin]
      rfl
  case force =>
    have hmarker : (s.channel c).record.type ≠ .marker := by rw [hty]; decide
    have hspeed : (s.channel c).record.type ≠ .speed := by rw [hty]; decide
    have htake := Channel.take_accepted (Channel.judge_within (count := f.lengthCount) hmarker hspeed hjudge)
    rw [if_neg hspeed, if_neg hspeed, if_neg hmarker, if_neg hmarker] at htake
    refine State.sampleGives h hr hb ha hm (ChannelRecord.reading_calibrated hmarker hcal) htake rfl fun u hu => ?_
    rw [State.handOn_accepted u (by rw [hu]; exact hmarker), if_pos (by rw [hu]; exact hty)]
  case rejected =>
    have hmarker : (s.channel c).record.type ≠ .marker := by rcases hty with hty | hty <;> rw [hty] <;> decide
    have htake := Channel.take_rejected (Channel.judge_outside (count := f.lengthCount) hmarker hjudge) rfl
    rw [if_neg hmarker] at htake
    refine ⟨_, rfl, State.sampleGives h hr hb ha hm (ChannelRecord.reading_calibrated hmarker hcal) htake rfl fun u hu => ?_⟩
    rw [State.handOn_unaccepted (.inl rfl), hu]
  case marker =>
    have hx := ChannelRecord.reading_marker hty f.raw
    have hknown := markerOf_code hcode
    have hspeed : (s.channel c).record.type ≠ .speed := by rw [hty]; decide
    have hin : (⟨f.raw, false, (markerOf f.raw).isSome⟩ : Reading).inRange = true := by rw [hknown]; rfl
    have hjudge : (s.channel c).judge ⟨f.raw, false, (markerOf f.raw).isSome⟩ f.lengthCount = .accepted none := by
      by_cases hfailed : (s.channel c).state = .failed
      · have hrun : (s.channel c).recoveryRun = 2 := by simpa [hfailed] using hs
        rw [Channel.judge_failed hfailed, if_pos (by rw [Channel.nextRun_marker hty hin, hrun])]
      · rw [Channel.judge_range (by tauto), if_pos hin]
    have htake := Channel.take_accepted hjudge
    rw [if_neg hspeed, if_neg hspeed, if_pos hty, if_pos hty] at htake
    exact State.sampleGives h hr hb ha hm hx htake rfl fun u hu => State.handOn_marker u (by rw [hu]; exact hty) hknown
  case other =>
    have hx := ChannelRecord.reading_marker hty f.raw
    have hout : (⟨f.raw, false, (markerOf f.raw).isSome⟩ : Reading).inRange = false := by rw [markerOf_none hcode]; rfl
    have hplain : ∀ (j : Judgement) (u : State), (j = .rejected ∨ ∃ run, j = .recovering run) →
        (u.channel c).record = (s.channel c).record → u.handOn c ⟨f.raw, false, (markerOf f.raw).isSome⟩ j = id u :=
      fun j u hj hu => by
        rw [State.handOn_unaccepted hj, if_neg (by rw [hu, hty]; decide)]
        rfl
    refine ⟨fun hs => ⟨_, rfl, ?_⟩, fun hs => ?_⟩
    · have hjudge : (s.channel c).judge ⟨f.raw, false, (markerOf f.raw).isSome⟩ f.lengthCount = .rejected := by
        rw [Channel.judge_range (by tauto), if_neg (by rw [hout]; decide)]
      have htake := Channel.take_rejected hjudge rfl
      rw [if_pos hty] at htake
      exact State.sampleGives h hr hb ha hm hx htake rfl fun u => hplain _ u (.inl rfl)
    · have hjudge : (s.channel c).judge ⟨f.raw, false, (markerOf f.raw).isSome⟩ f.lengthCount = .recovering 0 := by
        rw [Channel.judge_failed hs, Channel.nextRun_outside hout]
        rfl
      have htake := Channel.take_recovering hjudge
      rw [if_pos hty] at htake
      exact State.sampleGives h hr hb ha hm hx htake rfl fun u => hplain _ u (.inr ⟨_, rfl⟩)
  case counted =>
    have hx := ChannelRecord.reading_marker hty f.raw
    have hin := markerOf_isSome h1 h3
    have hjudge : (s.channel c).judge ⟨f.raw, false, (markerOf f.raw).isSome⟩ f.lengthCount =
        .recovering ((s.channel c).recoveryRun + 1) := by
      rw [Channel.judge_failed hs, Channel.nextRun_marker hty hin, if_neg (by omega)]
    have htake := Channel.take_recovering hjudge
    rw [if_pos hty] at htake
    refine State.sampleGives h hr hb ha hm hx htake rfl fun u hu => ?_
    rw [State.handOn_unaccepted (.inr ⟨_, rfl⟩), if_neg (by rw [hu, hty]; decide)]
    rfl
  case recovery =>
    have hx := ChannelRecord.reading_calibrated hty hcal
    have hnext : (s.channel c).nextRun ⟨w, clamped, !clamped⟩ f.lengthCount = run :=
      (Channel.nextRun_stepwise hty).trans hrun.symm
    refine ⟨fun h3 => ?_, fun h3 => ?_⟩
    · have htake := Channel.take_recovering ((Channel.judge_failed (x := ⟨w, clamped, !clamped⟩) (count := f.lengthCount) hs).trans
        (by rw [hnext, if_neg h3]))
      rw [if_neg hty] at htake
      refine State.sampleGives h hr hb ha hm hx htake rfl fun u hu => ?_
      rw [State.handOn_unaccepted (.inr ⟨_, rfl⟩), hu]
    · have htake := Channel.take_accepted ((Channel.judge_failed (x := ⟨w, clamped, !clamped⟩) (count := f.lengthCount) hs).trans
        (by rw [hnext, if_pos h3]))
      rw [if_neg hty, if_neg hty] at htake
      refine State.sampleGives h hr hb ha hm hx htake rfl fun u hu => ?_
      rw [State.handOn_accepted u (by rw [hu]; exact hty), hu]

/-! ### LOAD CHANNEL and the stale timer (R71, R79, R80) -/

theorem reqLoadChannel_kept {c : Nat} {r : ChannelRecord} (hc : c < 32) (hr : ChannelRecord.inRange s.part.own r = true)
    (hf : s.channelFree c r = true) (hi : ChannelRecord.sameIdentity (s.channel c).record r = true) :
    reqLoadChannel c r s = ((s.setChannel c ((s.channel c).reloaded r)).setModified secChannels, .done []) := by
  unfold reqLoadChannel
  dsimp only
  rw [if_neg (by simp [hr, hf]; omega), if_pos hi]

theorem reqLoadChannel_restarted {c : Nat} {r : ChannelRecord} (hc : c < 32) (hr : ChannelRecord.inRange s.part.own r = true)
    (hf : s.channelFree c r = true) (hi : ChannelRecord.sameIdentity (s.channel c).record r = false)
    (hb : s.channelBusy c = false) :
    reqLoadChannel c r s = ((s.setChannel c (Channel.start r)).setModified secChannels, .done []) := by
  unfold reqLoadChannel
  dsimp only
  rw [if_neg (by simp [hr, hf]; omega), if_neg (by simp [hi]), if_neg (by simp [hb])]

/-- A request whose owner writes a channel. -/
theorem State.ask_setChannel {a : Arrival} {r : Request} {c k : Nat} {C : Channel} {g : Channel → Channel} (hs : s.Hears a)
    (h : ∀ f tags, (((s.taken a.port).hold f tags).carryOut s.net.nextId a r).1 =
      (((s.taken a.port).hold f tags).setChannel c C).setModified k)
    (hC : C = g (s.channel c)) : EventFrame (((s.taken a.port).modChannel c g).setModified k) (s.ask a r) := by
  refine State.ask_event a r s _ hs (fun f tags => ?_) rfl
  rw [h]
  have hchan : (s.taken a.port).modChannel c g = (s.taken a.port).modChannel c fun _ => C := State.modChannel_congr hC.symm
  rw [hchan]
  exact (State.setChannel_event c C ((s.taken a.port).hold f tags)).setModified k

/-- Settles O26: the two loads of `reqLoadChannel`, and the expiry of a running stale timer. -/
theorem channelsAreLoadedAndGoStale : Obligations.ChannelsAreLoadedAndGoStale := by
  unfold Obligations.ChannelsAreLoadedAndGoStale
  refine ⟨fun s a c r hs hc hr hf => ⟨fun hi => ?kept, fun hi hb => ?restarted⟩, fun s c => ⟨fun hn => ?stopped, fun hn => ?stale⟩⟩
  case kept =>
    refine ⟨_, rfl, State.ask_setChannel (C := (s.channel c).reloaded r) hs (fun f tags =>
      congrArg Prod.fst (reqLoadChannel_kept (s := (s.taken a.port).hold f tags) hc hr hf hi)) ?_⟩
    have hle : r.engMin ≤ r.engMax := by
      unfold ChannelRecord.inRange at hr
      simp only [Bool.and_eq_true, decide_eq_true_eq] at hr
      tauto
    unfold Channel.reloaded
    rw [clampTo_eq_max_min hle]
    rfl
  case restarted =>
    exact ⟨_, rfl, State.ask_setChannel (C := Channel.start r) hs (fun f tags =>
      congrArg Prod.fst (reqLoadChannel_restarted (s := (s.taken a.port).hold f tags) hc hr hf hi hb)) rfl⟩
  case stopped => exact congrArg Host.Outcome.next (if_neg (by simp [hn]))
  case stale =>
    refine ⟨_, rfl, ?_⟩
    unfold State.staleExpiry
    rw [if_pos hn]
    exact State.event_event _ (fun s => s.modChannel c fun C => { C with state := .stale, staleTimer := none }) s

end Sys2Proof.Machine
end

section
/-! PROOFS. Spans and stands written; conditions of theirs that no entry refers to; the markers of the mill entry (R75, R86,
R97 to R100). -/

namespace Sys2Proof.Machine

variable {s t u v : State}

/-! ### A span or a stand written -/

theorem State.span_modSpan_self {i : Nat} (hi : i < 9) (f : Span → Span) (s : State) : (s.modSpan i f).span i = f (s.span i) :=
  (State.span_modSpan s i i f).trans (if_pos ⟨rfl, hi⟩)

theorem State.span_modSpan_other {i j : Nat} (hij : i ≠ j) (f : Span → Span) (s : State) : (s.modSpan i f).span j = s.span j :=
  (State.span_modSpan s i j f).trans (if_neg fun h => hij h.1)

theorem State.modSpan_congr {i : Nat} {f g : Span → Span} (h : f (s.span i) = g (s.span i)) : s.modSpan i f = s.modSpan i g := by
  unfold State.modSpan
  rw [h]

theorem State.modSpan_self {i : Nat} {f : Span → Span} (h : f (s.span i) = s.span i) : s.modSpan i f = s := by
  unfold State.modSpan
  rw [h, State.span, setAt_getAt]

theorem State.stand_modStand_self {n : Nat} (h1 : 1 ≤ n) (h8 : n ≤ 8) (f : Stand → Stand) (s : State) :
    (s.modStand n f).stand n = f (s.stand n) := (State.stand_modStand s n n f).trans (if_pos ⟨rfl, h1, h8⟩)

theorem State.stand_modStand_other {n m : Nat} (hnm : n ≠ m) (f : Stand → Stand) (s : State) :
    (s.modStand n f).stand m = s.stand m := (State.stand_modStand s n m f).trans (if_neg fun h => hnm h.1)

theorem State.modStand_congr {n : Nat} {f g : Stand → Stand} (h : f (s.stand n) = g (s.stand n)) :
    s.modStand n f = s.modStand n g := by
  unfold State.modStand
  rw [h]

theorem State.modStand_zero (f : Stand → Stand) (s : State) : s.modStand 0 f = s := if_pos rfl

theorem State.modStand_pos {n : Nat} (h : n ≠ 0) (f : Stand → Stand) (s : State) :
    s.modStand n f = { s with stands := setAt s.stands (n - 1) (f (s.stand n)) } := if_neg h

theorem State.modStand_self {n : Nat} {f : Stand → Stand} (h : f (s.stand n) = s.stand n) : s.modStand n f = s := by
  by_cases hn : n = 0
  · subst hn; exact State.modStand_zero f s
  · unfold State.modStand
    rw [if_neg hn, h, State.stand, if_neg hn, setAt_getAt]

theorem State.modStand_outside {n : Nat} (h : ¬ (1 ≤ n ∧ n ≤ 8)) (f : Stand → Stand) (s : State) : s.modStand n f = s := by
  by_cases hn : n = 0
  · subst hn; exact State.modStand_zero f s
  · unfold State.modStand setAt
    rw [if_neg hn, Vector.setIfInBounds_eq_of_size_le (by omega)]

theorem State.modStand_modStand (n : Nat) (f g : Stand → Stand) (s : State) :
    (s.modStand n f).modStand n g = s.modStand n fun S => g (f S) := by
  by_cases hn : 1 ≤ n ∧ n ≤ 8
  · have h := State.stand_modStand_self hn.1 hn.2 f s
    have h0 : n ≠ 0 := by omega
    rw [State.modStand_pos h0 g, h, State.modStand_pos h0 f, State.modStand_pos h0]
    exact congrArg (fun l => { s with stands := l }) (setAt_setAt _ _ _ _)
  · rw [State.modStand_outside hn, State.modStand_outside hn, State.modStand_outside hn]

theorem State.modStand_modSpan (n i : Nat) (f : Stand → Stand) (g : Span → Span) (s : State) :
    (s.modStand n f).modSpan i g = (s.modSpan i g).modStand n f := by
  unfold State.modStand
  split <;> rfl

theorem State.setModified_modSpan (k i : Nat) (g : Span → Span) (s : State) :
    (s.setModified k).modSpan i g = (s.modSpan i g).setModified k := rfl

/-! ### Frames of the part's own making leave each unit's change as it is -/

theorem QuietFrame.modSpan (h : QuietFrame s t) (i : Nat) (f : Span → Span) : QuietFrame (s.modSpan i f) (t.modSpan i f) :=
  ⟨by rw [h.rest]; rfl, h.net⟩

theorem QuietFrame.modEntry (h : QuietFrame s t) (e : Nat) (f : TripEntry → TripEntry) :
    QuietFrame (s.modEntry e f) (t.modEntry e f) := ⟨by rw [h.rest]; rfl, h.net⟩

theorem QuietFrame.setModified (h : QuietFrame s t) (k : Nat) : QuietFrame (s.setModified k) (t.setModified k) :=
  ⟨by rw [h.rest]; rfl, h.net⟩

theorem QuietFrame.modStand (h : QuietFrame s t) (n : Nat) (f : Stand → Stand) : QuietFrame (s.modStand n f) (t.modStand n f) := by
  obtain ⟨hr, hn⟩ := h
  unfold State.modStand
  split
  · exact ⟨hr, hn⟩
  · exact ⟨by rw [hr]; rfl, hn⟩

theorem QuietFrame.stand (h : QuietFrame s t) (n : Nat) : t.stand n = s.stand n := by rw [h.rest]; rfl
theorem QuietFrame.span (h : QuietFrame s t) (i : Nat) : t.span i = s.span i := by rw [h.rest]; rfl
theorem QuietFrame.entry (h : QuietFrame s t) (e : Nat) : t.entry e = s.entry e := by rw [h.rest]; rfl
theorem QuietFrame.trip (h : QuietFrame s t) : t.trip = s.trip := by rw [h.rest]
theorem QuietFrame.refs (h : QuietFrame s t) (c : CondId) : t.refs c = s.refs c := by rw [h.rest]; rfl

/-! ### Conditions no entry refers to (R157, R159) -/

theorem State.refs_of_trip (h : t.trip = s.trip) (c : CondId) : t.refs c = s.refs c := by
  simp only [State.refs, State.entry, h]

theorem State.refs_modSpan (c : CondId) (i : Nat) (f : Span → Span) (s : State) : (s.modSpan i f).refs c = s.refs c := rfl
theorem State.refs_notice (c : CondId) (k : NoticeKind) (x : Nat) (l : List Byte) (s : State) :
    (s.notice k x l).refs c = s.refs c := rfl
theorem State.refs_modStand (c : CondId) (n : Nat) (f : Stand → Stand) (s : State) : (s.modStand n f).refs c = s.refs c :=
  State.refs_of_trip (State.trip_modStand s n f) c

theorem State.lower_unheard {c : CondId} {f : State → State} (h : (f s).refs c = []) : s.lower c f = f s := by
  unfold State.lower
  dsimp only
  rw [State.cleared_unreferenced h]
  split <;> rfl

theorem State.event_unheard {c : CondId} {f : State → State} (h : (f s).refs c = []) (hk : c.kind ≠ .panel) : s.event c f = f s :=
  State.changed_unreferenced h hk _

/-! ### Spans (R86, R97) -/

/-- A span whose TRACK LIMIT has been judged (R97). -/
def Span.judged (P : Span) : Span := if P.state = .running then { P with trackLimit := P.atLimit } else P

theorem Span.atLimit_eq (P : Span) : P.atLimit = decide (P.queue.length ≤ 2 ∨ P.record.capacity ≤ P.queue.length + 2) := by
  unfold Span.atLimit
  rw [Bool.decide_or]

theorem State.judgeTrack_unheard {i : Nat} (h : s.refs ⟨.trackLimit, i⟩ = []) : s.judgeTrack i = s.modSpan i Span.judged := by
  unfold State.judgeTrack
  split
  · rename_i hr
    rw [State.event_unheard (by rw [State.refs_modSpan]; exact h) (by simp)]
    exact State.modSpan_congr (if_pos hr).symm
  · rename_i hr
    exact (State.modSpan_self (if_neg hr)).symm

theorem State.enterRunning_unheard {i : Nat} (h : s.refs ⟨.trackLimit, i⟩ = []) :
    s.enterRunning i = s.modSpan i fun P => { P with state := .running, popAcc := 0, trackLimit := P.atLimit } := by
  unfold State.enterRunning
  rw [State.judgeTrack_unheard (by rw [State.refs_modSpan]; exact h), State.modSpan_modSpan]
  exact State.modSpan_congr (if_pos rfl)

theorem State.enterEmptying_unheard {i : Nat} (h : s.refs ⟨.trackLimit, i⟩ = []) : s.enterEmptying i = s.modSpan i fun P =>
    { P with state := .emptying, popAcc := if P.state = .filling then 0 else P.popAcc, trackLimit := false } :=
  State.lower_unheard (by rw [State.refs_modSpan]; exact h)

/-- A span whose pushes stop changes in FILLING and RUNNING alone (R86). -/
theorem State.closeSpan_still {i : Nat} (h : (s.span i).state ≠ .filling) (h' : (s.span i).state ≠ .running) (k : Nat) :
    s.closeSpan k i = s := by
  cases k with
  | zero => rfl
  | succ k => exact if_neg (by tauto)

section
variable {i : Nat} (hi : i < 9) (h : (s.span i).state = .filling ∨ (s.span i).state = .running)
  (href : s.refs ⟨.trackLimit, i⟩ = [])
include hi h href

theorem State.closeSpan_filled (hq : (s.span i).queue ≠ []) (k : Nat) : s.closeSpan (k + 1) i = s.modSpan i fun P =>
    { P with state := .emptying, popAcc := if P.state = .filling then 0 else P.popAcc, trackLimit := false } := by
  unfold State.closeSpan
  rw [if_pos h, State.enterEmptying_unheard href]
  dsimp only
  rw [State.span_modSpan_self hi, if_neg (by simpa using hq)]

theorem State.closeSpan_empty (hq : (s.span i).queue = []) (k : Nat) : s.closeSpan (k + 1) i =
    (fun w : State => if (s.span i).record.downstream ≠ 0 ∧ (s.stand (s.span i).record.downstream).isRolling = true then
      match (w.biteOff (s.span i).record.downstream .tailOut).exitSpan (s.span i).record.downstream with
      | some j => (w.biteOff (s.span i).record.downstream .tailOut).closeSpan k j
      | none => w.biteOff (s.span i).record.downstream .tailOut
    else w) (s.modSpan i fun P => { P with state := .idle, pushAcc := 0, popAcc := 0, trackLimit := false }) := by
  have hidle : (s.modSpan i fun P =>
      { P with state := .emptying, popAcc := if P.state = .filling then 0 else P.popAcc, trackLimit := false }).enterIdle i =
        s.modSpan i fun P => { P with state := .idle, pushAcc := 0, popAcc := 0, trackLimit := false } :=
    State.modSpan_modSpan i _ _ s
  rw [State.closeSpan, if_pos h, State.enterEmptying_unheard href]
  dsimp only
  rw [hidle, State.span_modSpan_self hi, State.span_modSpan_self hi, State.stand_modSpan, if_pos (by simp [hq])] <;> rfl

theorem State.closeSpan_idle (hq : (s.span i).queue = [])
    (hd : (s.span i).record.downstream = 0 ∨ (s.stand (s.span i).record.downstream).mode ≠ .rolling) (k : Nat) :
    s.closeSpan (k + 1) i = s.modSpan i fun P => { P with state := .idle, pushAcc := 0, popAcc := 0, trackLimit := false } := by
  rw [State.closeSpan_empty hi h href hq]
  refine if_neg fun hroll => ?_
  rcases hd with hd | hd
  · exact hroll.1 hd
  · exact hd (Stand.mode_of_isRolling hroll.2)

end

/-! ### Markers (R75, R98 to R100) -/

theorem State.millEntry_eq {i : Nat} (hi : i < 9) (he : (s.span i).record.enabled = true) (hu : (s.span i).record.upstream = 0)
    (hlow : ∀ j, j < i → (s.span j).record.enabled = true → (s.span j).record.upstream ≠ 0) : s.millEntry = some i := by
  unfold State.millEntry
  rw [List.find?_range_eq_some]
  refine ⟨by simp [he, hu], List.mem_range.2 hi, fun j hj => ?_⟩
  cases hej : (s.span j).record.enabled
  · rfl
  · simpa using hlow j hj hej

/-- Settles O31: the mill entry span, and what each marker does there. -/
theorem markersWorkTheMillEntry : Obligations.MarkersWorkTheMillEntry := by
  unfold Obligations.MarkersWorkTheMillEntry
  intro s c m
  refine ⟨fun hnone => ?_, fun i hi he hu hc hlow href => ?_⟩
  · unfold State.mark
    cases hmill : s.millEntry with
    | none => rfl
    | some i => exact if_neg (hnone i hmill)
  · have hmark : s.mark c m = s.markSpan i m := by
      unfold State.mark
      rw [State.millEntry_eq hi he hu hlow]
      exact if_pos hc
    have htail : (s.span i).stripPresent = true → s.markSpan i .tail =
        (s.modSpan i fun P => { P with stripPresent := false, pushAcc := 0 }).closeSpan 9 i := fun h => if_pos h
    generalize hw : (s.modSpan i fun P => { P with stripPresent := false, pushAcc := 0 }) = w at htail
    have hspan : w.span i = { s.span i with stripPresent := false, pushAcc := 0 } := by rw [← hw, State.span_modSpan_self hi]
    rw [hmark]
    refine ⟨fun hm => hm ▸ rfl, fun hm => hm ▸ rfl, fun hm hrest => ?_, fun hm hp hs => ⟨fun hq => ?_, fun hq hd => ?_⟩⟩
    all_goals subst hm
    · cases hp : (s.span i).stripPresent
      · unfold State.markSpan
        dsimp only
        rw [hp, hw]
        rfl
      · rw [htail hp]
        refine State.closeSpan_still ?_ ?_ 9
        all_goals
          rw [hspan]
          rcases hrest with hrest | hrest | hrest <;> simp_all
    · rw [htail hp, State.closeSpan_filled hi (by rw [hspan]; exact hs) (by rw [← hw]; exact href) (by rw [hspan]; exact hq) 8,
        ← hw, State.modSpan_modSpan]
    · rw [htail hp, State.closeSpan_idle hi (by rw [hspan]; exact hs) (by rw [← hw]; exact href) (by rw [hspan]; exact hq)
        (by rw [hspan, ← hw]; exact hd) 8, ← hw, State.modSpan_modSpan]

end Sys2Proof.Machine
end

section
/-! PROOFS. Pushes and the gauge of a span (R86, R88 to R92, R97, R138). -/

namespace Sys2Proof.Machine

variable {s t u v : State}

/-! ### Room made before a push (R91, R92) -/

/-- The queue before a push, room made. -/
def Span.roomQueue (P : Span) (working : Bool) : List Segment :=
  if working then (if P.record.capacity ≤ P.queue.length then dropHead P.queue else P.queue)
  else if SpanRecord.depth P.record ≤ P.queue.length then
    (if P.record.downstream = 0 then P.queue.tail else dropHead P.queue)
  else P.queue

theorem Span.makeRoom_eq (P : Span) (working : Bool) : P.makeRoom working =
    { P with
      queue := P.roomQueue working
      counters := { P.counters with
        overrun := if working = true ∧ P.record.capacity ≤ P.queue.length then bump P.counters.overrun else P.counters.overrun
        discarded := if working = false ∧ SpanRecord.depth P.record ≤ P.queue.length then bump P.counters.discarded
          else P.counters.discarded } } := by
  unfold Span.makeRoom Span.roomQueue
  cases working
  · by_cases h : SpanRecord.depth P.record ≤ P.queue.length
    · simp [h, Nat.lt_succ_of_le h]
    · simp [h]
  · by_cases h : P.record.capacity ≤ P.queue.length <;> simp [h]

theorem Span.roomQueue_kept {P : Span} {working : Bool}
    (h : (working = true ∧ P.queue.length < P.record.capacity) ∨
      (working = false ∧ P.queue.length < SpanRecord.depth P.record)) : P.roomQueue working = P.queue := by
  unfold Span.roomQueue
  rcases h with ⟨rfl, h⟩ | ⟨rfl, h⟩
  · exact if_neg (not_le.2 h)
  · exact if_neg (not_le.2 h)

theorem Span.roomQueue_carried {P : Span} {working : Bool} {x y : Segment} {r : List Segment} (hq : P.queue = x :: y :: r)
    (h : (working = true ∧ P.record.capacity ≤ r.length + 2) ∨
      (working = false ∧ SpanRecord.depth P.record ≤ r.length + 2 ∧ P.record.downstream ≠ 0)) :
    P.roomQueue working = { y with weld := y.weld || x.weld } :: r := by
  unfold Span.roomQueue
  rw [hq]
  rcases h with ⟨rfl, h⟩ | ⟨rfl, h, hd⟩
  · exact if_pos h
  · rw [if_neg (by decide), if_pos (show SpanRecord.depth P.record ≤ (x :: y :: r).length from h), if_neg hd]
    rfl

theorem Span.roomQueue_exit {P : Span} {x : Segment} {r : List Segment} (hq : P.queue = x :: r)
    (hd : P.record.downstream = 0) (h : SpanRecord.depth P.record ≤ r.length + 1) : P.roomQueue false = r := by
  unfold Span.roomQueue
  rw [hq, if_neg (by decide), if_pos (show SpanRecord.depth P.record ≤ (x :: r).length from h), if_pos hd]
  rfl

/-! ### A span after a push (R86, R89) -/

/-- A span with a segment pushed, not yet filled by its gauge or settled. -/
def Span.pushed (P : Span) (working : Bool) (g : Segment) : Span :=
  { P with
    pushAcc := P.pushAcc - P.record.segment, nextSegment := P.nextSegment + 1
    state := if P.state = .idle then .filling else P.state
    queue := P.roomQueue working ++ [g]
    weldPending := if P.record.upstream = 0 then false else P.weldPending
    counters := { P.counters with
      pushes := bump P.counters.pushes
      overrun := if working = true ∧ P.record.capacity ≤ P.queue.length then bump P.counters.overrun else P.counters.overrun
      discarded := if working = false ∧ SpanRecord.depth P.record ≤ P.queue.length then bump P.counters.discarded
        else P.counters.discarded } }

/-- The state in which a push leaves a span, its downstream stand ROLLING or not (R86). -/
def Span.settledState (P : Span) (rolling : Bool) : SpanState :=
  if P.state = .filling ∧ P.record.downstream ≠ 0 ∧ rolling = true ∧ SpanRecord.depth P.record ≤ P.queue.length then .running
  else P.state

/-- A span settled after a push (R86, R97). -/
def Span.settled (rolling : Bool) (P : Span) : Span :=
  { P with
    state := P.settledState rolling
    popAcc := if P.settledState rolling = .running ∧ P.state ≠ .running then 0 else P.popAcc
    trackLimit := if P.settledState rolling = .running then P.atLimit else P.trackLimit }

theorem State.settlePush_unheard {i : Nat} (h : s.refs ⟨.trackLimit, i⟩ = []) :
    s.settlePush i = s.modSpan i (Span.settled (s.stand (s.span i).record.downstream).isRolling) := by
  unfold State.settlePush
  dsimp only
  generalize (s.stand (s.span i).record.downstream).isRolling = rolling
  split
  · rename_i hc
    rw [State.enterRunning_unheard h]
    refine State.modSpan_congr ?_
    have hst : (s.span i).settledState rolling = .running := if_pos hc
    unfold Span.settled
    rw [hst, if_pos ⟨rfl, by rw [hc.1]; decide⟩, if_pos rfl]
  · rename_i hc
    rw [State.judgeTrack_unheard h]
    refine State.modSpan_congr ?_
    have hst : (s.span i).settledState rolling = (s.span i).state := if_neg hc
    unfold Span.settled Span.judged
    rw [hst]
    by_cases hr : (s.span i).state = .running
    · rw [if_pos hr, if_pos hr, if_neg fun h => h.2 hr]
    · rw [if_neg hr, if_neg hr, if_neg fun h => hr h.1]

theorem Span.settled_queue {P : Span} {l : List Segment} (h : l.length = P.queue.length) (rolling : Bool) :
    ({ P with queue := l } : Span).settled rolling = { P.settled rolling with queue := l } := by
  unfold Span.settled Span.settledState Span.atLimit
  dsimp only
  rw [h]

/-- A push but for the gauge and the settling. -/
def State.pushed (i : Nat) (s : State) : State :=
  (s.modSpan i fun P => P.pushed (s.workingDownstream i) (s.newSegment i)).modStand (s.span i).record.upstream fun S =>
    { S with handOn := false }

theorem State.push_eq {i : Nat} (hi : i < 9) (s : State) : s.push i = ((s.pushed i).gaugeFill i).settlePush i := by
  have hroom : ∀ (w : Bool) (g : Segment) (P : Span),
      (({ P with pushAcc := P.pushAcc - P.record.segment } : Span).makeRoom w).append g = P.pushed w g := fun w g P => by
    rw [Span.makeRoom_eq]
    rfl
  have hnew : (s.modSpan i fun P =>
      ({ P with pushAcc := P.pushAcc - P.record.segment } : Span).makeRoom (s.workingDownstream i)).newSegment i =
        s.newSegment i := by
    unfold State.newSegment
    dsimp only
    rw [State.span_modSpan_self hi, Span.makeRoom_eq]
    rfl
  unfold State.push State.pushed
  dsimp only
  rw [hnew, State.modSpan_modSpan]
  simp only [hroom]
  rw [State.span_modSpan_self hi]
  rfl

theorem State.stand_pushed_keep {β : Type} (π : Stand → β) (h : ∀ S : Stand, π { S with handOn := false } = π S) (i n : Nat)
    (s : State) : π ((s.pushed i).stand n) = π (s.stand n) := State.stand_modStand_keep π _ _ n _ h

theorem State.span_pushed {i : Nat} (hi : i < 9) (s : State) :
    (s.pushed i).span i = (s.span i).pushed (s.workingDownstream i) (s.newSegment i) := by
  unfold State.pushed
  rw [State.span_modStand, State.span_modSpan_self hi]

theorem State.refs_pushed (c : CondId) (i : Nat) (s : State) : (s.pushed i).refs c = s.refs c :=
  (State.refs_modStand c _ _ _).trans rfl

/-- A push settled without a gauge. -/
theorem State.push_ungauged {i : Nat} (hi : i < 9) (hg : (s.span i).record.gauge = none) (href : s.refs ⟨.trackLimit, i⟩ = []) :
    s.push i = (s.pushed i).modSpan i (Span.settled (s.stand (s.span i).record.downstream).isRolling) := by
  have hfill : (s.pushed i).gaugeFill i = s.pushed i := by
    unfold State.gaugeFill
    dsimp only
    rw [State.span_pushed hi]
    unfold Span.pushed
    dsimp only
    rw [hg]
  rw [State.push_eq hi, hfill, State.settlePush_unheard (by rw [State.refs_pushed]; exact href), State.span_pushed hi,
    State.stand_pushed_keep Stand.isRolling fun _ => rfl]
  rfl

/-- Settles O29: room, the new segment, and the state the span settles in. -/
theorem pushAddsASegment : Obligations.PushAddsASegment := by
  unfold Obligations.PushAddsASegment
  intro s i u hi hu _ hg _ href
  generalize hw : s.workingDownstream i = working
  generalize hr : (s.stand (s.span i).record.downstream).isRolling = rolling
  have hrolling : rolling = true ↔ (s.stand (s.span i).record.downstream).mode = .rolling := by
    rw [← hr]
    exact ⟨Stand.mode_of_isRolling, fun h => by simp [Stand.isRolling, h]⟩
  have hlen : ∀ g : Segment, ((s.span i).pushed working g).queue.length = ((s.span i).roomQueue working).length + 1 :=
    fun g => by simp [Span.pushed]
  have hexit : (s.span i).record.downstream = 0 → working = false := fun hd => by
    rw [← hw]
    simp [State.workingDownstream, hd]
  refine ⟨(s.span i).roomQueue working, ((s.span i).pushed working (s.newSegment i)).settledState rolling, ?_, fun h1 h2 => ?_,
    fun h => ?_, fun h => Span.roomQueue_kept h, fun x y r hq h => Span.roomQueue_carried hq h, fun x r hq hd h => ?_⟩
  · rw [State.push_ungauged hi hg href, State.pushed, hu, State.modStand_modSpan, State.modSpan_modSpan, hw, hr]
    refine congrArg (fun w : State => w.modStand u fun S => { S with handOn := false }) (State.modSpan_congr ?_)
    have hrun : ((s.span i).pushed working (s.newSegment i)).state ≠ .running ↔ (s.span i).state ≠ .running := by
      unfold Span.pushed
      dsimp only
      split
      · rename_i hidle
        simp [hidle]
      · rfl
    have hseg : s.newSegment i = if u = 0 then
        { number := (s.span i).nextSegment, estimated := none, measured := none, pass := none, weld := (s.span i).weldPending }
        else { number := (s.span i).nextSegment, estimated := (s.stand u).estimate, measured := none,
               pass := (s.stand u).current.map PassRecord.id, weld := (s.stand u).handOn } := by
      unfold State.newSegment
      dsimp only
      rw [hu]
      by_cases h0 : u = 0 <;> simp [h0]
    unfold Span.settled
    rw [Span.atLimit_eq, hlen]
    simp only [hrun]
    rw [← hseg, ← hu]
    rfl
  · have hstate : ((s.span i).pushed working (s.newSegment i)).state = (s.span i).state := if_neg h1
    unfold Span.settledState
    rw [hstate]
    exact if_neg fun hc => h2 hc.1
  · have hstate : ((s.span i).pushed working (s.newSegment i)).state = .filling := by
      rcases h with h | h
      · exact if_pos h
      · exact (if_neg (by rw [h]; decide)).trans h
    unfold Span.settledState
    rw [hstate, hlen]
    refine if_congr ?_ rfl rfl
    rw [hrolling]
    unfold Span.pushed
    dsimp only
    tauto
  · rw [hexit hd]
    exact Span.roomQueue_exit hq hd h

/-! ### The gauge (R90, R138) -/

section
variable {i c d : Nat}

theorem State.gaugeFill_unused (hg : (s.span i).record.gauge = some (c, d))
    (h : (s.channel c).usable .thickness = false ∨ (s.span i).queue.length ≤ d / (s.span i).record.segment) :
    s.gaugeFill i = s := by
  unfold State.gaugeFill
  dsimp only
  rw [hg]
  dsimp only
  rcases h with h | h
  · exact if_neg (by simp [h])
  · have hplace : fillPlace (s.span i).queue.length (d / (s.span i).record.segment) = none := if_neg (not_lt.2 h)
    split
    · rw [hplace]
    · rfl

theorem State.gaugeFill_filled {x : Segment} {pre post : List Segment} (hg : (s.span i).record.gauge = some (c, d))
    (hc : (s.channel c).usable .thickness = true) (hq : (s.span i).queue = pre ++ x :: post)
    (hlen : post.length = d / (s.span i).record.segment) : s.gaugeFill i =
      (fun w : State => match x.estimated with
        | none => w
        | some e => w.trimReport (s.span i).record.upstream x.pass e (s.channel c).value)
        (s.modSpan i fun P => { P with queue := pre ++ { x with measured := some (s.channel c).value } :: post }) := by
  have hplace : fillPlace (s.span i).queue.length (d / (s.span i).record.segment) = some pre.length := by
    have hlength : (s.span i).queue.length = pre.length + (post.length + 1) := by rw [hq, List.length_append, List.length_cons]
    unfold fillPlace
    rw [if_pos (by omega)]
    exact congrArg some (by omega)
  have hget : (s.span i).queue[pre.length]? = some x := by rw [hq]; simp
  have hset : (s.modSpan i fun P => { P with queue := P.queue.set pre.length { x with measured := some (s.channel c).value } }) =
      s.modSpan i fun P => { P with queue := pre ++ { x with measured := some (s.channel c).value } :: post } := by
    refine State.modSpan_congr ?_
    rw [hq]
    simp
  unfold State.gaugeFill
  dsimp only
  rw [hg]
  dsimp only
  rw [if_pos hc, hplace]
  dsimp only
  obtain ⟨number, estimated, measured, pass, weld⟩ := x
  rw [hget, ← hset] <;> cases estimated <;> rfl

end

theorem State.trimReport_ignored {u : Nat} {pass : Option Nat} (h : u = 0 ∨ (s.stand u).mode = .out ∨ (s.stand u).current = none ∨
    (s.stand u).current.map PassRecord.id ≠ pass) (e m : Int) : s.trimReport u pass e m = s := by
  unfold State.trimReport
  cases hc : (s.stand u).current with
  | none => rfl
  | some p =>
    dsimp only
    rcases h with rfl | h | h | h
    · rw [State.modStand_zero, ite_self]
    · exact if_neg (by simp [Stand.isOut, h])
    · exact absurd (hc.symm.trans h) (by simp)
    · rw [hc, Option.map_some] at h
      refine if_neg fun hb => h ?_
      obtain ⟨-, hb⟩ := (Bool.and_eq_true _ _).mp hb
      exact (beq_iff_eq.1 hb).symm

theorem saturate_thickness (x : Int) : saturate 100000 x = max (-100000) (min 100000 x) := clampTo_eq_max_min (by omega) x

theorem State.trimReport_taken {u : Nat} {k : PassRecord} (ho : (s.stand u).mode ≠ .out) (hc : (s.stand u).current = some k)
    (e m : Int) : s.trimReport u (some k.id) e m = s.modStand u fun S => { S with
      trim := max (-(k.trimLimit : Int)) (min k.trimLimit
        (S.trim + roundDiv (k.kMon * max (-100000) (min 100000 (m - e))) 1024)) } := by
  unfold State.trimReport
  rw [hc]
  refine (if_pos (by simp [Stand.isOut, ho])).trans (State.modStand_congr ?_)
  unfold trimStep
  rw [saturate_eq_max_min, saturate_thickness]

theorem Channel.usable_iff (C : Channel) (ty : ChannelType) : C.usable ty = true ↔
    C.record.enabled = true ∧ C.record.type = ty ∧ (C.state = .valid ∨ C.state = .suspect) := by
  unfold Channel.usable
  simp only [Bool.and_eq_true, Bool.or_eq_true, beq_iff_eq, and_assoc]

/-- Settles O30: the push without a gauge, the segment the gauge fills, and its report. -/
theorem gaugeFillsAndTrims : Obligations.GaugeFillsAndTrims := by
  unfold Obligations.GaugeFillsAndTrims
  intro s w i u c d C hi hu hg href hC hw
  subst hC
  generalize hr : (s.stand (s.span i).record.downstream).isRolling = rolling
  have hwork : (s.modSpan i fun P => { P with record := { P.record with gauge := none } }).workingDownstream i =
      s.workingDownstream i := by
    unfold State.workingDownstream
    rw [State.span_modSpan_self hi]
    rfl
  have hnew : (s.modSpan i fun P => { P with record := { P.record with gauge := none } }).newSegment i = s.newSegment i := by
    unfold State.newSegment
    dsimp only
    rw [State.span_modSpan_self hi]
    rfl
  have hpush : w = (s.pushed i).modSpan i (Span.settled rolling) := by
    have hplain := State.push_ungauged (s := s.modSpan i fun P => { P with record := { P.record with gauge := none } }) hi
      (by rw [State.span_modSpan_self hi]) href
    rw [hw, hplain, State.pushed, hwork, hnew, State.pushed,
      State.modSpan_modSpan, State.modSpan_modSpan, State.modStand_modSpan, State.modStand_modSpan, State.modSpan_modSpan,
      State.modSpan_modSpan, State.span_modSpan_self hi, ← hr]
    refine congrArg (fun w : State => w.modStand _ fun S => { S with handOn := false }) (State.modSpan_congr ?_)
    rfl
  have hwq : (w.span i).queue = ((s.pushed i).span i).queue := by rw [hpush, State.span_modSpan_self hi]; rfl
  have hspan := State.span_pushed hi s
  have hsettle : ∀ y : State, y.refs ⟨.trackLimit, i⟩ = [] → (y.span i).record = (s.span i).record →
      (y.stand (s.span i).record.downstream).isRolling = rolling → y.settlePush i = y.modSpan i (Span.settled rolling) :=
    fun y hy hrec hroll => by rw [State.settlePush_unheard hy, hrec, hroll]
  have hrefs : (s.pushed i).refs ⟨.trackLimit, i⟩ = [] := by rw [State.refs_pushed]; exact href
  have hroll : ((s.pushed i).stand (s.span i).record.downstream).isRolling = rolling := by
    rw [State.stand_pushed_keep Stand.isRolling fun _ => rfl, hr]
  have hgauge : ((s.pushed i).span i).record.gauge = some (c, d) := by rw [hspan]; exact hg
  have hsegment : ((s.pushed i).span i).record.segment = (s.span i).record.segment := by rw [hspan]; rfl
  have hchannel : (s.pushed i).channel c = s.channel c := by
    unfold State.pushed
    rw [State.channel_modStand]
    rfl
  refine ⟨fun h => ?_, fun pre x post he hty hst hq hlen => ?_⟩
  · have hunused : (s.pushed i).gaugeFill i = s.pushed i := by
      refine State.gaugeFill_unused hgauge ?_
      rw [hchannel, hsegment, ← hwq]
      refine h.imp_left fun h => ?_
      rw [Bool.eq_false_iff, ne_eq, Channel.usable_iff]
      rintro ⟨h1, h2, h3⟩
      rcases h with h | h | ⟨h, h'⟩
      · rw [h1] at h; cases h
      · exact h h2
      · exact h3.elim h h'
    rw [State.push_eq hi, hunused, hsettle _ hrefs (by rw [hspan]; rfl) hroll, hpush]
  · have husable : ((s.pushed i).channel c).usable .thickness = true := by
      rw [hchannel, Channel.usable_iff]
      exact ⟨he, hty, hst⟩
    have hfill := State.gaugeFill_filled hgauge husable (hwq ▸ hq) (by rw [hsegment]; exact hlen)
    rw [hchannel, show ((s.pushed i).span i).record.upstream = u by rw [hspan]; exact hu] at hfill
    generalize hy : (s.pushed i).modSpan i (fun P =>
      { P with queue := pre ++ { x with measured := some (s.channel c).value } :: post }) = y at hfill
    have hv : y.modSpan i (Span.settled rolling) = w.modSpan i fun P =>
        { P with queue := pre ++ { x with measured := some (s.channel c).value } :: post } := by
      rw [← hy, hpush, State.modSpan_modSpan, State.modSpan_modSpan]
      refine State.modSpan_congr (Span.settled_queue ?_ rolling)
      rw [← hwq, hq]
      simp
    have hyrefs : y.refs ⟨.trackLimit, i⟩ = [] := by rw [← hy]; exact hrefs
    have hyrec : (y.span i).record = (s.span i).record := by rw [← hy, State.span_modSpan_self hi, hspan]; rfl
    have hyroll : (y.stand (s.span i).record.downstream).isRolling = rolling := by rw [← hy]; exact hroll
    have hymode : (y.stand u).mode = (s.stand u).mode := by
      rw [← hy]; exact State.stand_pushed_keep Stand.mode (fun _ => rfl) i u s
    have hycurrent : (y.stand u).current = (s.stand u).current := by
      rw [← hy]; exact State.stand_pushed_keep Stand.current (fun _ => rfl) i u s
    refine ⟨_, rfl, fun h => ?_, fun e k hx h0 ho hk hpass => ?_⟩
    · have hkeep : (s.pushed i).gaugeFill i = y := by
        rw [hfill]
        dsimp only
        rcases h with h | h
        · rw [h]
        · cases x.estimated with
          | none => rfl
          | some e => exact State.trimReport_ignored (by rw [hymode, hycurrent]; exact h) e _
      rw [State.push_eq hi, hkeep, hsettle y hyrefs hyrec hyroll, hv]
    · have htrim : (s.pushed i).gaugeFill i = y.modStand u fun S => { S with
          trim := max (-(k.trimLimit : Int)) (min k.trimLimit
            (S.trim + roundDiv (k.kMon * max (-100000) (min 100000 ((s.channel c).value - e))) 1024)) } := by
        rw [hfill, hx, hpass]
        exact State.trimReport_taken (by rw [hymode]; exact ho) (hycurrent.trans hk) e _
      rw [State.push_eq hi, htrim]
      refine (hsettle _ ?_ ?_ ?_).trans ?_
      · rw [State.refs_modStand]; exact hyrefs
      · rw [State.span_modStand]; exact hyrec
      · refine Eq.trans ?_ hyroll
        refine State.stand_modStand_keep Stand.isRolling y u _ _ ?_
        exact fun _ => rfl
      · rw [State.modStand_modSpan, hv]

end Sys2Proof.Machine
end

section
/-! PROOFS. Pops, deliveries, and a stand that leaves ROLLING (R93 to R97, R101, R113, R122, R123, R132 to R134). -/

namespace Sys2Proof.Machine

variable {s t u v : State}

/-! ### Deliveries (R122, R123, R132 to R134) -/

theorem feedforward_eq (p : PassRecord) (g : Segment) : feedforward p g =
    (match g.measured with | some h => some h | none => g.estimated).map fun h =>
      roundDiv (-(max (-100000) (min 100000 (h - p.entryThickness))) * p.kFf) 1024 := by
  unfold feedforward
  simp only [saturate_thickness]
  cases g.measured <;> rfl

theorem feedforward_of_thickness {p : PassRecord} {g : Segment} {h : Int}
    (hg : g.measured = some h ∨ (g.measured = none ∧ g.estimated = some h)) :
    feedforward p g = some (roundDiv (-(max (-100000) (min 100000 (h - p.entryThickness))) * p.kFf) 1024) := by
  rw [feedforward_eq]
  rcases hg with hg | ⟨hg, he⟩
  · rw [hg]; rfl
  · rw [hg]; dsimp only; rw [he]; rfl

theorem feedforward_absent {p : PassRecord} {g : Segment} (hm : g.measured = none) (he : g.estimated = none) :
    feedforward p g = none := by
  rw [feedforward_eq, hm]
  dsimp only
  rw [he]
  rfl

theorem State.deliver_plain {g : Segment} (hw : g.weld = false) (d : Nat) (s : State) : s.deliver d (some g) =
    s.modStand d fun S => { S with cff := S.current.bind fun p => feedforward p g } := if_neg (by simp [hw])

/-- A delivery without a weld under a CURRENT pass. -/
theorem State.deliver_current {d : Nat} {g : Segment} {p : PassRecord} (hw : g.weld = false) (hp : (s.stand d).current = some p) :
    s.deliver d (some g) = s.modStand d fun S => { S with cff := feedforward p g } := by
  rw [State.deliver_plain hw]
  refine State.modStand_congr ?_
  rw [hp]
  rfl

theorem State.deliver_switch {d : Nat} {g : Segment} {p : PassRecord} (hw : g.weld = true) (hp : (s.stand d).next = some p) :
    QuietFrame ((s.modStand d fun S => { S.takeNext p with cff := feedforward p g, handOn := true }).setModified secStands)
      (s.deliver d (some g)) := by
  have hdeliver : s.deliver d (some g) = s.weldSwitch d p g := by
    unfold State.deliver
    dsimp only
    rw [if_pos hw, hp]
  rw [hdeliver]
  exact (State.notice_quiet _ _ _ _).setModified secStands

theorem State.deliver_missing {d : Nat} {g : Segment} {p : PassRecord} (hw : g.weld = true) (hn : (s.stand d).next = none)
    (hp : (s.stand d).current = some p) (href : s.refs ⟨.scheduleMissing, d⟩ = []) :
    QuietFrame (s.modStand d fun S =>
      { S with cff := feedforward p g, handOn := true, scheduleMissing := true,
               counters := { S.counters with weldsWithoutNext := bump S.counters.weldsWithoutNext } })
      (s.deliver d (some g)) := by
  have hdeliver : s.deliver d (some g) = s.weldMissing d g := by
    unfold State.deliver
    dsimp only
    rw [if_pos hw, hn]
  rw [hdeliver]
  unfold State.weldMissing
  dsimp only
  rw [State.event_unheard (by rw [State.refs_modStand, State.refs_modStand]; exact href) (by simp), State.modStand_modStand]
  refine (State.modStand_congr ?_ : s.modStand d _ = s.modStand d _) ▸ State.notice_quiet _ _ _ _
  rw [hp]
  rfl

/-! ### Pops (R93 to R97) -/

theorem State.judgeTrack_still {i : Nat} (h : (s.span i).state ≠ .running) : s.judgeTrack i = s := if_neg h

/-- A span whose head segment has left for a stand. -/
def Span.popped (r : List Segment) (P : Span) : Span :=
  { P with popAcc := P.popAcc - P.record.segment, queue := r, counters := { P.counters with pops := bump P.counters.pops } }

theorem State.pop_delivers {i d : Nat} {g : Segment} {r : List Segment} (hd : (s.span i).record.downstream = d) (h0 : d ≠ 0)
    (hq : (s.span i).queue = g :: r) :
    s.pop i = ((s.modSpan i (Span.popped r)).deliver d (some g)).settlePop i := by
  unfold State.pop
  dsimp only
  rw [hq, hd]
  dsimp only
  rw [if_neg h0, State.modSpan_modSpan]
  rfl

theorem State.pop_discards {i : Nat} {g : Segment} {r : List Segment} (hd : (s.span i).record.downstream = 0)
    (hq : (s.span i).queue = g :: r) : s.pop i = (s.modSpan i fun P =>
      { P with popAcc := P.popAcc - P.record.segment, queue := r,
               counters := { P.counters with discarded := bump P.counters.discarded } }).settlePop i := by
  unfold State.pop
  dsimp only
  rw [hq, hd]
  dsimp only
  rw [if_pos rfl, State.modSpan_modSpan]

/-- A span whose queue held no segment for a stand (R94). -/
def Span.underflowed (P : Span) : Span :=
  { P with popAcc := P.popAcc - P.record.segment, counters := { P.counters with underrun := bump P.counters.underrun } }

theorem State.pop_underflows {i d : Nat} (hd : (s.span i).record.downstream = d) (hq : (s.span i).queue = []) :
    s.pop i = ((s.modSpan i Span.underflowed).deliver d none).judgeTrack i := by
  unfold State.pop
  dsimp only
  rw [hq, hd]
  dsimp only
  rw [State.modSpan_modSpan]
  rfl

theorem State.settlePop_running {i : Nat} (h : (s.span i).state = .running) : s.settlePop i = s.judgeTrack i :=
  if_neg fun hc => by rw [h] at hc; exact SpanState.noConfusion hc.1

theorem State.settlePop_left {i : Nat} (h : (s.span i).state = .emptying) (hq : (s.span i).queue ≠ []) : s.settlePop i = s :=
  (if_neg fun hc => hq hc.2).trans (State.judgeTrack_still (by rw [h]; decide))

theorem State.settlePop_last {i : Nat} (h : (s.span i).state = .emptying) (hq : (s.span i).queue = []) :
    s.settlePop i = (s.enterIdle i).reportTailOut i := if_pos ⟨h, hq⟩

/-- Settles O32: what is delivered to the stand, after which the running span is judged for its TRACK LIMIT. -/
theorem popDeliversTheHead : Obligations.PopDeliversTheHead := by
  unfold Obligations.PopDeliversTheHead
  have hjudged : ∀ (s w : State) (i : Nat) (r : List Segment), i < 9 → (s.span i).state = .running →
      s.refs ⟨.trackLimit, i⟩ = [] → w.trip = s.trip → w.span i = (s.span i).popped r →
      w.settlePop i = w.modSpan i fun P =>
        { P with trackLimit := decide (r.length ≤ 2 ∨ P.record.capacity ≤ r.length + 2) } := by
    intro s w i r hi hst href htrip hspan
    have hstate : (w.span i).state = .running := by rw [hspan]; exact hst
    rw [State.settlePop_running hstate, State.judgeTrack_unheard (by rw [State.refs_of_trip htrip]; exact href)]
    refine State.modSpan_congr ((if_pos hstate).trans ?_)
    rw [Span.atLimit_eq, hspan]
    rfl
  have hpopped : ∀ (s : State) (i : Nat) (r : List Segment), (s.modSpan i (Span.popped r)).modSpan i (fun P =>
      { P with trackLimit := decide (r.length ≤ 2 ∨ P.record.capacity ≤ r.length + 2) }) = s.modSpan i fun P =>
        { P with popAcc := P.popAcc - P.record.segment, queue := r,
                 trackLimit := decide (r.length ≤ 2 ∨ P.record.capacity ≤ r.length + 2),
                 counters := { P.counters with pops := bump P.counters.pops } } := fun s i r => State.modSpan_modSpan i _ _ s
  refine ⟨fun s i d hi hd h1 h8 hst href => ⟨fun g r p hq hw hp => ?plain, fun hq => ?underflow⟩,
    fun s i d g r hi hd h1 h8 hst href hsched hq hw => ⟨_, rfl, fun p hp => ?switch, fun p hn hp => ?missing⟩⟩
  case plain =>
    refine ⟨feedforward p g, ?_, fun h hg => feedforward_of_thickness hg, feedforward_absent⟩
    rw [State.pop_delivers hd (by omega) hq, State.deliver_current hw (by rw [State.stand_modSpan]; exact hp)]
    refine (hjudged s _ i r hi hst href ?_ ?_).trans ?_
    · rw [State.trip_modStand, State.trip_modSpan]
    · rw [State.span_modStand, State.span_modSpan_self hi]
    · rw [State.modStand_modSpan, hpopped]
  case underflow =>
    rw [State.pop_underflows hd hq]
    change ((s.modSpan i Span.underflowed).modStand d fun S => { S with cff := none }).judgeTrack i = _
    rw [State.judgeTrack_unheard (by rw [State.refs_modStand]; exact href), State.modStand_modSpan, State.modSpan_modSpan]
    refine congrArg (fun w : State => w.modStand d fun S => { S with cff := none }) (State.modSpan_congr ((if_pos hst).trans ?_))
    rw [Span.atLimit_eq]
    unfold Span.underflowed
    dsimp only
    rw [hq]
    rfl
  case switch =>
    have hdeliver := State.deliver_switch (s := s.modSpan i (Span.popped r)) hw hp
    have htrack := hdeliver.modSpan i fun P => { P with trackLimit := decide (r.length ≤ 2 ∨ P.record.capacity ≤ r.length + 2) }
    rw [State.setModified_modSpan, State.modStand_modSpan, hpopped, feedforward_eq] at htrack
    rw [State.pop_delivers hd (by omega) hq]
    refine (hjudged s _ i r hi hst href ?_ ?_).symm ▸ htrack
    · rw [hdeliver.trip, State.trip_setModified, State.trip_modStand, State.trip_modSpan]
    · rw [hdeliver.span, State.span_setModified, State.span_modStand, State.span_modSpan_self hi]
  case missing =>
    have hdeliver := State.deliver_missing (s := s.modSpan i (Span.popped r)) hw hn hp hsched
    have htrack := hdeliver.modSpan i fun P => { P with trackLimit := decide (r.length ≤ 2 ∨ P.record.capacity ≤ r.length + 2) }
    rw [State.modStand_modSpan, hpopped, feedforward_eq] at htrack
    rw [State.pop_delivers hd (by omega) hq]
    refine (hjudged s _ i r hi hst href ?_ ?_).symm ▸ htrack
    · rw [hdeliver.trip, State.trip_modStand, State.trip_modSpan]
    · rw [hdeliver.span, State.span_modStand, State.span_modSpan_self hi]

/-! ### A stand that leaves ROLLING (R109, R113) -/

/-- A stand enters READY, no entry referring to its FOLLOWING (R109). -/
theorem State.changeMode_ready {n : Nat} (h1 : 1 ≤ n) (h8 : n ≤ 8) (href : s.refs ⟨.following, n⟩ = []) (cause : StandCause) :
    QuietFrame (s.modStand n fun S => { S with mode := .ready, followingRun := 0, following := false })
      (s.changeMode n .ready cause) := by
  generalize hw : (s.modStand n fun S => { S with mode := .ready }).notice .standState n
    (put8 (standModeCode (s.stand n).mode) ++ put8 (standModeCode .ready) ++ put8 (standCauseCode cause)) = w
  have hquiet : QuietFrame (s.modStand n fun S => { S with mode := .ready }) w := by rw [← hw]; exact State.notice_quiet _ _ _ _
  have hmode : (w.stand n).mode = .ready := by rw [hquiet.stand, State.stand_modStand_self h1 h8]
  have hchange : s.changeMode n .ready cause = w.modStand n fun S => { S with followingRun := 0, following := false } := by
    have hsettle : w.settleMode n = w.modStand n fun S => { S with followingRun := 0, following := false } := by
      unfold State.settleMode
      rw [hmode]
      dsimp only
      rw [State.lower_unheard (by rw [State.refs_modStand, hquiet.refs, State.refs_modStand]; exact href)]
    unfold State.changeMode
    dsimp only
    rw [hw, hsettle]
  rw [hchange]
  have := hquiet.modStand n fun S => { S with followingRun := 0, following := false }
  rwa [State.modStand_modStand] at this

/-- A stand bites off, no entry referring to its FOLLOWING (R113). -/
theorem State.biteOff_quiet {n : Nat} (h1 : 1 ≤ n) (h8 : n ≤ 8) (href : s.refs ⟨.following, n⟩ = []) (cause : StandCause) :
    QuietFrame (s.modStand n fun S =>
      { S with mode := .ready, estimate := none, biteOnRun := 0, biteOffRun := 0, followingRun := 0, following := false,
               counters := { S.counters with biteOffs := bump S.counters.biteOffs } }) (s.biteOff n cause) := by
  have hready := State.changeMode_ready (s := s.modStand n fun S =>
    { S with biteOnRun := 0, biteOffRun := 0, estimate := none,
             counters := { S.counters with biteOffs := bump S.counters.biteOffs } }) h1 h8
    (by rw [State.refs_modStand]; exact href) cause
  rwa [State.modStand_modStand] at hready

theorem State.exitSpan_congr (h : ∀ j, (t.span j).record = (s.span j).record) (n : Nat) : t.exitSpan n = s.exitSpan n := by
  unfold State.exitSpan
  simp only [h]

theorem State.entrySpan_congr (h : ∀ j, (t.span j).record = (s.span j).record) (n : Nat) : t.entrySpan n = s.entrySpan n := by
  unfold State.entrySpan
  simp only [h]

theorem State.leftRolling_none {n : Nat} (h : s.exitSpan n = none) : s.leftRolling n = s := by
  unfold State.leftRolling
  rw [h]

theorem State.leftRolling_some {n i : Nat} (h : s.exitSpan n = some i) : s.leftRolling n = s.closeSpan 9 i := by
  unfold State.leftRolling
  rw [h]

theorem Stand.isRolling_iff (S : Stand) : S.isRolling = true ↔ S.mode = .rolling :=
  ⟨Stand.mode_of_isRolling, fun h => by simp [Stand.isRolling, h]⟩

theorem State.reportTailOut_none {i : Nat}
    (h : (s.span i).record.downstream = 0 ∨ (s.stand (s.span i).record.downstream).mode ≠ .rolling) : s.reportTailOut i = s := by
  refine if_neg fun hc => ?_
  rcases h with h | h
  · exact hc.1 h
  · exact h (Stand.mode_of_isRolling hc.2)

/-- The report of a span that reached IDLE is its downstream stand's tail-out (R86, R113). -/
theorem State.reportTailOut_taken {i d : Nat} (hd : (s.span i).record.downstream = d) (h1 : 1 ≤ d) (h8 : d ≤ 8)
    (hr : (s.stand d).mode = .rolling) (href : s.refs ⟨.following, d⟩ = []) (hexit : s.exitSpan d = none) :
    QuietFrame (s.modStand d fun S =>
      { S with mode := .ready, estimate := none, biteOnRun := 0, biteOffRun := 0, followingRun := 0, following := false,
               counters := { S.counters with biteOffs := bump S.counters.biteOffs } }) (s.reportTailOut i) := by
  have hquiet := State.biteOff_quiet h1 h8 href .tailOut
  have hnone : (s.biteOff d .tailOut).exitSpan d = none := by
    rw [State.exitSpan_congr (s := s) fun j => by rw [hquiet.span, State.span_modStand]]
    exact hexit
  have hreport : s.reportTailOut i = (s.biteOff d .tailOut).leftRolling d := by
    unfold State.reportTailOut
    dsimp only
    rw [hd, if_pos ⟨by omega, (Stand.isRolling_iff _).2 hr⟩]
  rw [hreport, State.leftRolling_none hnone]
  exact hquiet

/-- Settles O33: each pop of an EMPTYING span, and what the last one leaves to its downstream stand. -/
theorem emptyingSpanRunsOut : Obligations.EmptyingSpanRunsOut := by
  unfold Obligations.EmptyingSpanRunsOut
  intro s i d g r hi hd hst hq
  refine ⟨fun h0 => ⟨fun hr => ?_, fun hr => ?_⟩, fun p h1 h8 hw hp => ⟨feedforward p g, fun h hg =>
    feedforward_of_thickness hg, feedforward_absent, fun hr => ?_, fun hr => ⟨_, rfl, ?_⟩⟩⟩
  · rw [State.pop_discards (hd.trans h0) hq, State.settlePop_left (by rw [State.span_modSpan_self hi]; exact hst)
      (by rw [State.span_modSpan_self hi]; exact hr)]
  · subst hr
    rw [State.pop_discards (hd.trans h0) hq, State.settlePop_last (by rw [State.span_modSpan_self hi]; exact hst)
      (by rw [State.span_modSpan_self hi])]
    unfold State.enterIdle
    rw [State.modSpan_modSpan, State.reportTailOut_none (.inl (by rw [State.span_modSpan_self hi]; exact hd.trans h0))]
  · rw [State.pop_delivers hd (by omega) hq, State.deliver_current hw (by rw [State.stand_modSpan]; exact hp)]
    refine State.settlePop_left ?_ ?_
    · rw [State.span_modStand, State.span_modSpan_self hi]; exact hst
    · rw [State.span_modStand, State.span_modSpan_self hi]; exact hr
  · subst hr
    generalize hv : (s.modSpan i fun P => { P with state := .idle, pushAcc := 0, popAcc := 0, queue := [],
                                                   counters := { P.counters with pops := bump P.counters.pops } }) = w
    have hpop : s.pop i = (w.modStand d fun S => { S with cff := feedforward p g }).reportTailOut i := by
      rw [State.pop_delivers hd (by omega) hq, State.deliver_current hw (by rw [State.stand_modSpan]; exact hp)]
      refine (State.settlePop_last ?_ ?_).trans ?_
      · rw [State.span_modStand, State.span_modSpan_self hi]; exact hst
      · rw [State.span_modStand, State.span_modSpan_self hi]; rfl
      · unfold State.enterIdle
        rw [State.modStand_modSpan, State.modSpan_modSpan, ← hv]
        rfl
    have hspan : (w.span i) = { s.span i with state := .idle, pushAcc := 0, popAcc := 0, queue := [],
                                              counters := { (s.span i).counters with pops := bump (s.span i).counters.pops } } := by
      rw [← hv, State.span_modSpan_self hi]
    have hdown : ((w.modStand d fun S => { S with cff := feedforward p g }).span i).record.downstream = d := by
      rw [State.span_modStand, hspan]; exact hd
    have hmode : ((w.modStand d fun S => { S with cff := feedforward p g }).stand d).mode = (s.stand d).mode := by
      rw [State.stand_modStand_self h1 h8, ← hv]
      rfl
    refine ⟨fun hn => ?_, fun hroll href hexit => ?_⟩
    · rw [hpop, State.reportTailOut_none (.inr (by rw [hdown, hmode]; exact hn))]
    · have htail := State.reportTailOut_taken hdown h1 h8 (hmode.trans hroll)
        (by rw [State.refs_modStand, ← hv]; exact href) (by
          rw [State.exitSpan_congr (s := s) fun j => ?_]
          · exact hexit
          · rw [State.span_modStand, ← hv]
            exact State.span_modSpan_keep Span.record s i j _ fun _ => rfl)
      rw [State.modStand_modStand, ← hpop] at htail
      exact htail

end Sys2Proof.Machine
end

section
/-! PROOFS. LOAD SPAN and FLUSH SPAN (R82, R83, R102). -/

namespace Sys2Proof.Machine

variable {s t u v : State}

/-! ### LOAD SPAN (R82, R83) -/

theorem reqLoadSpan_quiet {i : Nat} {r : SpanRecord} (hi : i < 9) (hr : SpanRecord.inRange r = true) (hf : s.spanFits i r = true)
    (hs : (s.span i).state = .idle)
    (he : ∀ n ∈ [(s.span i).record.upstream, (s.span i).record.downstream, r.upstream, r.downstream],
      n = 0 ∨ (s.stand n).mode = .out ∨ (s.stand n).mode = .ready) :
    QuietFrame ((s.modSpan i fun P => P.loaded r).setModified secStands) (reqLoadSpan i r s).1 := by
  have hends : [(s.span i).record.upstream, (s.span i).record.downstream, r.upstream, r.downstream].all s.endAtRest = true := by
    refine List.all_eq_true.2 fun n hn => ?_
    unfold State.endAtRest Stand.isOut Stand.isReady
    rcases he n hn with h | h | h <;> simp [h]
  unfold reqLoadSpan
  dsimp only
  rw [if_neg (by simp [hr, hf]; omega), if_neg (by rw [hs, hends]; decide)]
  split
  · exact (State.notice_quiet _ _ _ _).setModified secStands
  · exact .refl _

/-! ### A flush (R102) -/

theorem State.spans_cleared (c : CondId) (s : State) : (s.cleared c).spans = s.spans := by
  have hfold : ∀ (l : List Nat) (w : State),
      (l.foldl (fun s e => s.modEntry e fun t => { t with state := .idle }) w).spans = w.spans := fun l => by
    induction l with
    | nil => exact fun _ => rfl
    | cons e l ih => exact fun w => ih _
  unfold State.cleared
  rw [hfold, (State.condNotice_quiet c s).rest]

theorem State.spans_lower (c : CondId) (f : State → State) (s : State) : (s.lower c f).spans = (f s).spans := by
  unfold State.lower
  dsimp only
  split
  · exact State.spans_cleared c _
  · rfl

theorem State.stands_lower (c : CondId) (f : State → State) (s : State) : (s.lower c f).stands = (f s).stands := by
  unfold State.lower
  dsimp only
  split
  · exact State.stands_cleared c _
  · rfl

theorem State.stand_of_stands (h : t.stands = s.stands) (n : Nat) : t.stand n = s.stand n := by simp only [State.stand, h]
theorem State.span_of_spans (h : t.spans = s.spans) (i : Nat) : t.span i = s.span i := by simp only [State.span, h]

theorem State.weldInSpan_iff (i : Nat) (s : State) : s.weldInSpan i = true ↔ (∃ g ∈ (s.span i).queue, g.weld = true) ∨
    ((s.span i).record.upstream = 0 ∧ (s.span i).weldPending = true) ∨
    ((s.span i).record.upstream ≠ 0 ∧ (s.stand (s.span i).record.upstream).handOn = true) := by
  unfold State.weldInSpan
  simp only [Bool.or_eq_true, List.any_eq_true, Bool.and_eq_true, beq_iff_eq, bne_iff_ne, or_assoc]

/-- What a flush leaves of a stand: the hand-on of the upstream one and the feedforward of a ROLLING downstream one are gone. -/
def Stand.afterFlush (P : Span) (n : Nat) (S : Stand) : Stand :=
  { S with
    handOn := if n ≠ 0 ∧ P.record.upstream = n then false else S.handOn
    cff := if n ≠ 0 ∧ P.record.downstream = n ∧ S.mode = .rolling ∧ (P.state = .running ∨ P.state = .emptying) then none
      else S.cff }

/-- One stand written, as every stand sees it. -/
theorem State.stand_modStand_if (n m : Nat) (f : Stand → Stand) (s : State) : (s.modStand n f).stand m =
    if m ≠ 0 ∧ n = m ∧ m ≤ 8 then f (s.stand m) else s.stand m := by
  rw [State.stand_modStand]
  by_cases hnm : n = m
  · subst hnm
    exact if_congr (by omega) rfl rfl
  · rw [if_neg fun h => hnm h.1, if_neg fun h => hnm h.2.1]

theorem State.flush_span {i : Nat} (hi : i < 9) (cause : FlushCause) (m : Nat) (s : State) :
    (s.flush i cause m).span i = (s.span i).flushed (s.weldInSpan i) ∧
      ∀ j, j ≠ i → (s.flush i cause m).span j = s.span j := by
  have hspans : (s.flush i cause m).spans = (s.modSpan i fun P => P.flushed (s.weldInSpan i)).spans := by
    unfold State.flush
    dsimp only
    split
    · rw [State.spans_modStand]
      exact (State.spans_modStand _ _ _).trans (State.spans_lower _ _ s)
    · exact (State.spans_modStand _ _ _).trans (State.spans_lower _ _ s)
  refine ⟨?_, fun j hj => ?_⟩
  · rw [State.span_of_spans hspans, State.span_modSpan_self hi]
  · rw [State.span_of_spans hspans, State.span_modSpan_other hj.symm]

theorem State.flush_stand (i : Nat) (cause : FlushCause) (m : Nat) (s : State) (n : Nat) :
    (s.flush i cause m).stand n = (s.stand n).afterFlush (s.span i) n := by
  generalize hw : (((s.lower ⟨.trackLimit, i⟩ fun s => s.modSpan i fun P => P.flushed (s.weldInSpan i)).modStand
    (s.span i).record.upstream fun S => { S with handOn := false }).flushNotice i cause m (s.span i).queue.length
      (s.weldInSpan i)) = w
  have hup : ∀ k, w.stand k = if k ≠ 0 ∧ (s.span i).record.upstream = k ∧ k ≤ 8 then { s.stand k with handOn := false }
      else s.stand k := fun k => by
    rw [← hw]
    refine (State.stand_modStand_if _ k _ _).trans ?_
    rw [State.stand_of_stands (State.stands_lower _ _ s)]
    rfl
  have houtside : ∀ k, ¬ k ≤ 8 → (s.stand k).handOn = false ∧ (s.stand k).cff = none ∧ (s.stand k).mode = .out := fun k hk => by
    rw [State.stand_outside s (by omega)]
    exact ⟨rfl, rfl, rfl⟩
  have hmode : (w.stand (s.span i).record.downstream).mode = (s.stand (s.span i).record.downstream).mode := by
    rw [hup]
    split <;> rfl
  have hflush : s.flush i cause m = if ((s.span i).state = .running ∨ (s.span i).state = .emptying) ∧
      (s.span i).record.downstream ≠ 0 ∧ (w.stand (s.span i).record.downstream).isRolling then
        w.modStand (s.span i).record.downstream fun S => { S with cff := none } else w := by
    rw [← hw]
    rfl
  have hwn : w.stand n = { s.stand n with
      handOn := if n ≠ 0 ∧ (s.span i).record.upstream = n then false else (s.stand n).handOn } := by
    rw [hup]
    by_cases hn : n ≠ 0 ∧ (s.span i).record.upstream = n
    · by_cases h8 : n ≤ 8
      · rw [if_pos ⟨hn.1, hn.2, h8⟩, if_pos hn]
      · rw [if_neg fun h => h8 h.2.2, if_pos hn, ← (houtside n h8).1]
    · rw [if_neg fun h => hn ⟨h.1, h.2.1⟩, if_neg hn]
  rw [hflush]
  unfold Stand.afterFlush
  by_cases hcond : ((s.span i).state = .running ∨ (s.span i).state = .emptying) ∧ (s.span i).record.downstream ≠ 0 ∧
      (w.stand (s.span i).record.downstream).isRolling
  · have hroll : (s.stand (s.span i).record.downstream).mode = .rolling := hmode ▸ (Stand.isRolling_iff _).1 hcond.2.2
    rw [if_pos hcond, State.stand_modStand_if]
    by_cases hn : n ≠ 0 ∧ (s.span i).record.downstream = n
    · have h8 : n ≤ 8 := by
        by_contra h8
        rw [hn.2, (houtside n h8).2.2] at hroll
        exact StandMode.noConfusion hroll
      rw [if_pos ⟨hn.1, hn.2, h8⟩, hwn, if_pos (c := n ≠ 0 ∧ (s.span i).record.downstream = n ∧
        (s.stand n).mode = .rolling ∧ _) ⟨hn.1, hn.2, hn.2 ▸ hroll, hcond.1⟩]
    · rw [if_neg fun h => hn ⟨h.1, h.2.1⟩, hwn, if_neg (c := n ≠ 0 ∧ (s.span i).record.downstream = n ∧ _) fun h => hn ⟨h.1, h.2.1⟩]
  · rw [if_neg hcond, hwn, if_neg (c := n ≠ 0 ∧ (s.span i).record.downstream = n ∧ _ ∧ _)]
    rintro ⟨h0, hd, hr, hst⟩
    refine hcond ⟨hst, by rw [hd]; exact h0, ?_⟩
    rw [Stand.isRolling_iff, hmode, hd]
    exact hr

/-- Settles O34: the two requests' work on the span, its ends and the section. -/
theorem loadAndFlushRestartTheSpan : Obligations.LoadAndFlushRestartTheSpan := by
  unfold Obligations.LoadAndFlushRestartTheSpan
  refine ⟨fun s a i r hs hi hr hf hst he => ⟨_, rfl, ?_⟩, fun s a i hs hi he => ⟨_, rfl, ?_⟩⟩
  · have hquiet := State.ask_quiet a (.loadSpan i r) s (((s.taken a.port).modSpan i fun P => P.loaded r).setModified secStands) hs
      (fun f tags => reqLoadSpan_quiet (s := (s.taken a.port).hold f tags) hi hr hf hst he) rfl
    have hloaded : ∀ P : Span, P.loaded r =
        { record := r, state := .idle, queue := [], pushAcc := 0, popAcc := 0, nextSegment := 0#16,
          stripPresent := if P.record.upstream = 0 ∧ r.upstream = 0 then P.stripPresent else false,
          weldPending := if P.record.upstream = 0 ∧ r.upstream = 0 then P.weldPending else false,
          trackLimit := false, counters := {} } := fun P => by
      unfold Span.loaded
      split
      · rfl
      · rfl
    simp only [hloaded] at hquiet
    exact hquiet
  · have hrequest : ∀ (f : Frame) (tags : List BlockTag), (((s.taken a.port).hold f tags).carryOut s.net.nextId a (.flushSpan i)).1 =
        ((s.taken a.port).hold f tags).flush i .request 0 := fun f tags => by
      change (reqFlushSpan i _).1 = _
      unfold reqFlushSpan
      rw [if_neg (by omega), if_neg (by
        change ¬ (!(s.span i).record.enabled) = true
        rw [he]; decide)]
    have hevent : EventFrame (s.taken a.port) (s.ask a (.flushSpan i)) := State.ask_event a _ s _ hs (fun f tags => by
      rw [hrequest]
      exact State.flush_event i .request 0 _) rfl
    obtain ⟨f, tags, hask⟩ : ∃ (f : Frame) (tags : List BlockTag),
        (s.ask a (.flushSpan i)).spans = (((s.taken a.port).hold f tags).flush i .request 0).spans ∧
        (s.ask a (.flushSpan i)).stands = (((s.taken a.port).hold f tags).flush i .request 0).stands :=
      ⟨_, _, by rw [← hrequest, State.ask_eq a _ s hs, State.serve_eq]; rfl,
        by rw [← hrequest, State.ask_eq a _ s hs, State.serve_eq]; rfl⟩
    obtain ⟨hspan, hother⟩ := State.flush_span hi .request 0 ((s.taken a.port).hold f tags)
    refine ⟨hevent, ⟨s.weldInSpan i, ?_, State.weldInSpan_iff i s⟩, fun j hj => ?_, fun n => ?_⟩
    · rw [State.span_of_spans hask.1, hspan]
      rfl
    · rw [State.span_of_spans hask.1, hother j hj]
      rfl
    · rw [State.stand_of_stands hask.2, State.flush_stand]
      rfl

end Sys2Proof.Machine
end

section
/-! PROOFS. Length advances: the pushes and pops of one advance (R74, R88, R93 to R95). -/

namespace Sys2Proof.Machine

variable {s t u v : State}

/-! ### What a push or a pop keeps for the next one -/

/-- What decides, beside the state of span `i`, whether it may push or pop, and what its work may find heard. -/
structure SameEnds (i : Nat) (s t : State) : Prop where
  trip : t.trip = s.trip
  modes : ∀ n, (t.stand n).mode = (s.stand n).mode
  record : (t.span i).record = (s.span i).record
  strip : (t.span i).stripPresent = (s.span i).stripPresent

theorem SameEnds.trans {i : Nat} (h : SameEnds i s t) (g : SameEnds i t u) : SameEnds i s u :=
  ⟨g.trip.trans h.trip, fun n => (g.modes n).trans (h.modes n), g.record.trans h.record, g.strip.trans h.strip⟩

theorem SameEnds.unheard {i : Nat} (h : SameEnds i s t) {c : CondId} (hr : s.refs c = []) : t.refs c = [] :=
  (State.refs_of_trip h.trip c).trans hr

theorem State.pushesAllowed_iff (i : Nat) (s : State) : s.pushesAllowed i = true ↔
    (s.span i).record.enabled = true ∧ (s.span i).state ≠ .emptying ∧
      (((s.span i).record.upstream = 0 ∧ ((s.span i).record.marker = none ∨ (s.span i).stripPresent = true)) ∨
        ((s.span i).record.upstream ≠ 0 ∧ (s.stand (s.span i).record.upstream).mode = .rolling)) := by
  unfold State.pushesAllowed
  by_cases hu : (s.span i).record.upstream = 0 <;> simp [hu, and_assoc, Stand.isRolling_iff]

theorem State.popsAllowed_iff (i : Nat) (s : State) : s.popsAllowed i = true ↔
    (s.span i).record.enabled = true ∧
      (((s.span i).record.downstream = 0 ∧ (s.span i).state = .emptying) ∨ ((s.span i).record.downstream ≠ 0 ∧
        ((s.span i).state = .running ∨ (s.span i).state = .emptying) ∧
          (s.stand (s.span i).record.downstream).mode = .rolling)) := by
  unfold State.popsAllowed
  by_cases hd : (s.span i).record.downstream = 0 <;> simp [hd, Stand.isRolling_iff]

/-- A span whose ends are the same goes on pushing, unless it is EMPTYING. -/
theorem SameEnds.pushesAllowed {i : Nat} (h : SameEnds i s t) (hs : s.pushesAllowed i = true) (ht : (t.span i).state ≠ .emptying) :
    t.pushesAllowed i = true := by
  rw [State.pushesAllowed_iff] at hs ⊢
  rw [h.record, h.strip, h.modes]
  exact ⟨hs.1, ht, hs.2.2⟩

/-- A span whose ends are the same goes on popping in the same state. -/
theorem SameEnds.popsAllowed {i : Nat} (h : SameEnds i s t) (hs : s.popsAllowed i = true)
    (ht : (t.span i).state = (s.span i).state) : t.popsAllowed i = true := by
  rw [State.popsAllowed_iff] at hs ⊢
  rw [h.record, h.modes, ht]
  exact hs

/-! ### One push (R88) -/

theorem State.gaugeFill_rest {i : Nat} (hi : i < 9) (s : State) : SameEnds i s (s.gaugeFill i) ∧
    ∃ l, (s.gaugeFill i).span i = { s.span i with queue := l } := by
  unfold State.gaugeFill
  dsimp only
  split
  · exact ⟨⟨rfl, fun _ => rfl, rfl, rfl⟩, _, rfl⟩
  split
  · split
    · exact ⟨⟨rfl, fun _ => rfl, rfl, rfl⟩, _, rfl⟩
    split
    · exact ⟨⟨rfl, fun _ => rfl, rfl, rfl⟩, _, rfl⟩
    · rename_i c _ _ _ _ k _ _ g _
      have hspan := State.span_modSpan_self hi (fun P =>
        { P with queue := P.queue.set k { g with measured := some (s.channel c).value } }) s
      split
      · exact ⟨⟨rfl, fun _ => rfl, by rw [hspan], by rw [hspan]⟩, _, hspan⟩
      · rename_i e _
        have htrim : ∀ (w : State) (n : Nat) (p : Option Nat) (x y : Int), (w.trimReport n p x y).trip = w.trip ∧
            (∀ m, ((w.trimReport n p x y).stand m).mode = (w.stand m).mode) ∧
            (w.trimReport n p x y).span i = w.span i := fun w n p x y => by
          unfold State.trimReport
          split
          · split
            · exact ⟨State.trip_modStand _ _ _, fun m => State.stand_modStand_keep Stand.mode _ _ _ _ fun _ => rfl,
                State.span_modStand _ _ _ _⟩
            · exact ⟨rfl, fun _ => rfl, rfl⟩
          · exact ⟨rfl, fun _ => rfl, rfl⟩
        obtain ⟨htrip, hmodes, hsame⟩ := htrim (s.modSpan i fun P =>
          { P with queue := P.queue.set k { g with measured := some (s.channel c).value } })
          (s.span i).record.upstream g.pass e (s.channel c).value
        exact ⟨⟨htrip, hmodes, by rw [hsame, hspan], by rw [hsame, hspan]⟩, _, hsame.trans hspan⟩
  · exact ⟨⟨rfl, fun _ => rfl, rfl, rfl⟩, _, rfl⟩

/-- A push takes one segment length from its accumulator; the pop accumulator is kept, or emptied as RUNNING begins. -/
theorem State.push_moves {i : Nat} (hi : i < 9) (href : s.refs ⟨.trackLimit, i⟩ = []) : SameEnds i s (s.push i) ∧
    ((s.push i).span i).pushAcc = (s.span i).pushAcc - (s.span i).record.segment ∧
    ((s.push i).span i).popAcc ≤ (s.span i).popAcc ∧
    ((s.span i).state ≠ .emptying → ((s.push i).span i).state ≠ .emptying) ∧
    ((s.span i).state = .running → ((s.push i).span i).state = .running ∧ ((s.push i).span i).popAcc = (s.span i).popAcc) := by
  obtain ⟨hfill, l, hspan⟩ := State.gaugeFill_rest hi (s.pushed i)
  rw [State.span_pushed hi] at hspan
  have hpushed : SameEnds i s (s.pushed i) :=
    ⟨(State.trip_modStand _ _ _).trans (State.trip_modSpan _ _ _), fun n => State.stand_pushed_keep Stand.mode (fun _ => rfl) i n s,
      by rw [State.span_pushed hi]; rfl, by rw [State.span_pushed hi]; rfl⟩
  have hends := hpushed.trans hfill
  rw [State.push_eq hi, State.settlePush_unheard (hends.unheard href)]
  generalize (((s.pushed i).gaugeFill i).stand (((s.pushed i).gaugeFill i).span i).record.downstream).isRolling = rolling
  rw [State.span_modSpan_self hi]
  have hstate : ∀ (c : Prop) [Decidable c] (x : SpanState),
      (if c then SpanState.running else if x = .idle then .filling else x) = .emptying → x = .emptying := fun c _ x => by
    by_cases hc : c <;> cases x <;> simp [hc]
  have hle : ∀ (c : Prop) [Decidable c] (x : Nat), (if c then 0 else x) ≤ x := fun c _ x => by
    by_cases hc : c <;> simp [hc]
  refine ⟨⟨hends.trip, hends.modes, by rw [State.span_modSpan_self hi]; exact hends.record,
    by rw [State.span_modSpan_self hi]; exact hends.strip⟩, ?_⟩
  rw [hspan]
  unfold Span.settled Span.settledState Span.pushed
  dsimp only
  exact ⟨rfl, hle _ _, fun h hc => h (hstate _ _ hc), fun h => by simp [h]⟩

/-! ### One pop in RUNNING (R93) -/

theorem State.deliver_rest {d : Nat} (href : s.refs ⟨.scheduleMissing, d⟩ = []) (g : Option Segment) :
    (s.deliver d g).trip = s.trip ∧ (s.deliver d g).spans = s.spans ∧
      ∀ n, ((s.deliver d g).stand n).mode = (s.stand n).mode := by
  have hstand : ∀ f : Stand → Stand, (∀ S, (f S).mode = S.mode) → (s.modStand d f).trip = s.trip ∧
      (s.modStand d f).spans = s.spans ∧ ∀ n, ((s.modStand d f).stand n).mode = (s.stand n).mode := fun f hf =>
    ⟨State.trip_modStand _ _ _, State.spans_modStand _ _ _, fun n => State.stand_modStand_keep Stand.mode _ _ _ _ hf⟩
  have hquiet : ∀ {w x : State}, QuietFrame w x → (w.trip = s.trip ∧ w.spans = s.spans ∧
      ∀ n, (w.stand n).mode = (s.stand n).mode) → x.trip = s.trip ∧ x.spans = s.spans ∧
      ∀ n, (x.stand n).mode = (s.stand n).mode := fun {w x} h hw =>
    ⟨h.trip.trans hw.1, (show x.spans = w.spans by rw [h.rest]).trans hw.2.1, fun n => by rw [h.stand]; exact hw.2.2 n⟩
  cases g with
  | none => exact hstand _ fun _ => rfl
  | some g =>
    cases hw : g.weld with
    | false => rw [State.deliver_plain hw]; exact hstand _ fun _ => rfl
    | true =>
      cases hp : (s.stand d).next with
      | some p => exact hquiet (State.deliver_switch hw hp) (hstand _ fun _ => rfl)
      | none =>
        have hmissing : s.deliver d (some g) = s.weldMissing d g := by
          unfold State.deliver
          dsimp only
          rw [if_pos hw, hp]
        have hevent := State.event_unheard (c := ⟨.scheduleMissing, d⟩) (s := s.modStand d fun S =>
          { S with cff := S.current.bind fun p => feedforward p g, handOn := true,
                   counters := { S.counters with weldsWithoutNext := bump S.counters.weldsWithoutNext } })
          (f := fun s => s.modStand d fun S => { S with scheduleMissing := true })
          (by rw [State.refs_modStand, State.refs_modStand]; exact href) (show CondKind.scheduleMissing ≠ .panel by decide)
        rw [State.modStand_modStand] at hevent
        rw [hmissing]
        unfold State.weldMissing
        dsimp only
        rw [hevent]
        exact hquiet (State.notice_quiet _ _ _ _) (hstand _ fun _ => rfl)

theorem State.deliver_ends {i d : Nat} (href : s.refs ⟨.scheduleMissing, d⟩ = []) (g : Option Segment) :
    SameEnds i s (s.deliver d g) ∧ (s.deliver d g).span i = s.span i := by
  obtain ⟨htrip, hspans, hmodes⟩ := State.deliver_rest href g
  have hspan := State.span_of_spans hspans i
  exact ⟨⟨htrip, hmodes, by rw [hspan], by rw [hspan]⟩, hspan⟩

/-- A pop in RUNNING takes one segment length from its accumulator. -/
theorem State.pop_moves {i d : Nat} (hi : i < 9) (hd : (s.span i).record.downstream = d) (h0 : d ≠ 0)
    (hst : (s.span i).state = .running) (href : s.refs ⟨.trackLimit, i⟩ = []) (hsched : s.refs ⟨.scheduleMissing, d⟩ = []) :
    SameEnds i s (s.pop i) ∧ ((s.pop i).span i).state = .running ∧
      ((s.pop i).span i).pushAcc = (s.span i).pushAcc ∧
      ((s.pop i).span i).popAcc = (s.span i).popAcc - (s.span i).record.segment := by
  have hjudged : ∀ (f : Span → Span) (g : Option Segment), (f (s.span i)).record = (s.span i).record →
      (f (s.span i)).stripPresent = (s.span i).stripPresent → (f (s.span i)).state = (s.span i).state →
      SameEnds i s (((s.modSpan i f).deliver d g).judgeTrack i) ∧
        (((s.modSpan i f).deliver d g).judgeTrack i).span i = (f (s.span i)).judged := by
    intro f g hrec hstrip hstate
    obtain ⟨hends, hspan⟩ := State.deliver_ends (s := s.modSpan i f) (i := i) hsched g
    rw [State.span_modSpan_self hi] at hspan
    have hjudge := State.judgeTrack_unheard (hends.unheard (c := ⟨.trackLimit, i⟩) href)
    have hself : (((s.modSpan i f).deliver d g).judgeTrack i).span i = (f (s.span i)).judged := by
      rw [hjudge, State.span_modSpan_self hi, hspan]
    have hkeep : ∀ P : Span, P.judged.record = P.record ∧ P.judged.stripPresent = P.stripPresent := fun P => by
      unfold Span.judged
      split <;> exact ⟨rfl, rfl⟩
    exact ⟨⟨by rw [hjudge]; exact hends.trip, by rw [hjudge]; exact hends.modes,
      by rw [hself, (hkeep _).1, hrec], by rw [hself, (hkeep _).2, hstrip]⟩, hself⟩
  have hkeep : ∀ P : Span, P.judged.state = P.state ∧ P.judged.pushAcc = P.pushAcc ∧ P.judged.popAcc = P.popAcc := fun P => by
    unfold Span.judged
    split <;> exact ⟨rfl, rfl, rfl⟩
  cases hq : (s.span i).queue with
  | nil =>
    obtain ⟨hends, hspan⟩ := hjudged Span.underflowed none rfl rfl rfl
    rw [State.pop_underflows hd hq]
    obtain ⟨hs, hp, hq⟩ := hkeep ((s.span i).underflowed)
    exact ⟨hends, by rw [hspan, hs]; exact hst, by rw [hspan, hp]; rfl, by rw [hspan, hq]; rfl⟩
  | cons g r =>
    obtain ⟨hends, hspan⟩ := hjudged (Span.popped r) (some g) rfl rfl rfl
    have hstate : (((s.modSpan i (Span.popped r)).deliver d (some g)).span i).state = .running := by
      rw [(State.deliver_ends (s := s.modSpan i (Span.popped r)) (i := i) hsched (some g)).2, State.span_modSpan_self hi]
      exact hst
    rw [State.pop_delivers hd h0 hq, State.settlePop_running hstate]
    obtain ⟨hs, hp, hq⟩ := hkeep ((s.span i).popped r)
    exact ⟨hends, by rw [hspan, hs]; exact hst, by rw [hspan, hp]; rfl, by rw [hspan, hq]; rfl⟩

/-! ### The rounds of one advance (R88, R95) -/

/-- One round of the work, by what it does. -/
theorem State.workSpan_succ {i : Nat} {pushes pops : Bool} (k : Nat)
    (hpush : pushes = true ↔ (s.span i).record.segment ≤ (s.span i).pushAcc ∧ s.pushesAllowed i = true)
    (ht : t = if pushes then s.push i else s)
    (hpop : pops = true ↔ (t.span i).record.segment ≤ (t.span i).popAcc ∧ t.popsAllowed i = true) :
    s.workSpan (k + 1) i = if pushes || pops then (if pops then t.pop i else t).workSpan k i else t := by
  have h1 : (decide ((s.span i).record.segment ≤ (s.span i).pushAcc) && s.pushesAllowed i) = pushes := by
    rw [Bool.eq_iff_iff, hpush]
    simp
  have h2 : (decide ((t.span i).record.segment ≤ (t.span i).popAcc) && t.popsAllowed i) = pops := by
    rw [Bool.eq_iff_iff, hpop]
    simp
  rw [State.workSpan, h1, ← ht, h2]
  cases pops <;> cases pushes <;> rfl

/-- Neither side holds a segment length: the work is done. -/
theorem State.workSpan_done {i : Nat} (k : Nat) (h : (s.span i).pushAcc < (s.span i).record.segment)
    (h' : (s.span i).popAcc < (s.span i).record.segment) : s.workSpan k i = s := by
  cases k with
  | zero => rfl
  | succ k =>
    exact State.workSpan_succ (pushes := false) (pops := false) k ⟨fun h => Bool.noConfusion h, fun hc => absurd hc.1 (by omega)⟩ rfl
      ⟨fun h => Bool.noConfusion h, fun hc => absurd hc.1 (by omega)⟩

theorem div_of_succ {a b n : Nat} (hb : 0 < b) (h : a / b = n + 1) : b ≤ a ∧ (a - b) / b = n := by
  have hab : b ≤ a := by
    by_contra hc
    rw [Nat.div_eq_of_lt (by omega)] at h
    omega
  exact ⟨hab, by rw [Nat.div_eq_sub_div hb hab] at h; omega⟩
/-- A side that pushes alone works a push for each whole segment length (R88). -/
theorem State.workSpan_pushes {i : Nat} (hi : i < 9) (k n : Nat) (s : State) (href : s.refs ⟨.trackLimit, i⟩ = [])
    (hseg : 0 < (s.span i).record.segment) (hpush : s.pushesAllowed i = true)
    (hpop : (s.span i).popAcc < (s.span i).record.segment) (hn : (s.span i).pushAcc / (s.span i).record.segment = n)
    (hk : n < k) : s.workSpan k i = (State.push i)^[n] s := by
  induction n generalizing s k with
  | zero => exact State.workSpan_done k ((Nat.div_eq_zero_iff_lt hseg).1 hn) hpop
  | succ n ih =>
    obtain ⟨k, rfl⟩ : ∃ j, k = j + 1 := ⟨k - 1, by omega⟩
    obtain ⟨hle, hrest⟩ := div_of_succ hseg hn
    obtain ⟨hends, hacc, hpops, hstate, _⟩ := State.push_moves hi href
    have hround := State.workSpan_succ (s := s) (i := i) (pushes := true) (pops := false) k
      ⟨fun _ => ⟨hle, hpush⟩, fun _ => rfl⟩ rfl
      ⟨fun h => Bool.noConfusion h, fun hc => absurd hc.1 (by rw [if_pos rfl, hends.record]; omega)⟩
    refine hround.trans (ih k (s.push i) (hends.unheard href) ?_ ?_ ?_ ?_ (by omega))
    · rw [hends.record]; exact hseg
    · exact hends.pushesAllowed hpush (hstate ((State.pushesAllowed_iff i s).1 hpush).2.1)
    · rw [hends.record]; omega
    · rw [hends.record, hacc]; exact hrest

/-- A side that pops alone works a pop for each whole segment length (R93). -/
theorem State.workSpan_pops {i d : Nat} (hi : i < 9) (h0 : d ≠ 0) (k n : Nat) (s : State)
    (hd : (s.span i).record.downstream = d) (href : s.refs ⟨.trackLimit, i⟩ = []) (hsched : s.refs ⟨.scheduleMissing, d⟩ = [])
    (hseg : 0 < (s.span i).record.segment) (hst : (s.span i).state = .running) (hpop : s.popsAllowed i = true)
    (hpush : (s.span i).pushAcc < (s.span i).record.segment) (hn : (s.span i).popAcc / (s.span i).record.segment = n)
    (hk : n < k) : s.workSpan k i = (State.pop i)^[n] s := by
  induction n generalizing s k with
  | zero => exact State.workSpan_done k hpush ((Nat.div_eq_zero_iff_lt hseg).1 hn)
  | succ n ih =>
    obtain ⟨k, rfl⟩ : ∃ j, k = j + 1 := ⟨k - 1, by omega⟩
    obtain ⟨hle, hrest⟩ := div_of_succ hseg hn
    obtain ⟨hends, hstate, hacc, hpops⟩ := State.pop_moves hi hd h0 hst href hsched
    have hround := State.workSpan_succ (s := s) (i := i) (pushes := false) (pops := true) k
      ⟨fun h => Bool.noConfusion h, fun hc => absurd hc.1 (by omega)⟩ rfl ⟨fun _ => ⟨hle, hpop⟩, fun _ => rfl⟩
    refine hround.trans (ih k (s.pop i) ?_ (hends.unheard href) (hends.unheard hsched) ?_ hstate ?_ ?_ ?_ (by omega))
    · rw [hends.record]; exact hd
    · rw [hends.record]; exact hseg
    · exact hends.popsAllowed hpop (hstate.trans hst.symm)
    · rw [hends.record, hacc]; exact hpush
    · rw [hends.record, hpops]; exact hrest

/-- One channel for both sides: each push before the pop that follows it (R95). -/
theorem State.workSpan_both {i d : Nat} (hi : i < 9) (h0 : d ≠ 0) (k n : Nat) (s : State)
    (hd : (s.span i).record.downstream = d) (href : s.refs ⟨.trackLimit, i⟩ = []) (hsched : s.refs ⟨.scheduleMissing, d⟩ = [])
    (hseg : 0 < (s.span i).record.segment) (hst : (s.span i).state = .running) (hpush : s.pushesAllowed i = true)
    (hpop : s.popsAllowed i = true) (heq : (s.span i).pushAcc = (s.span i).popAcc)
    (hn : (s.span i).pushAcc / (s.span i).record.segment = n) (hk : n < k) :
    s.workSpan k i = (fun s : State => (s.push i).pop i)^[n] s := by
  induction n generalizing s k with
  | zero =>
    have hlt := (Nat.div_eq_zero_iff_lt hseg).1 hn
    exact State.workSpan_done k hlt (heq ▸ hlt)
  | succ n ih =>
    obtain ⟨k, rfl⟩ : ∃ j, k = j + 1 := ⟨k - 1, by omega⟩
    obtain ⟨hle, hrest⟩ := div_of_succ hseg hn
    obtain ⟨hpushed, hacc, _, _, hrun⟩ := State.push_moves hi href
    obtain ⟨hstate, hkept⟩ := hrun hst
    obtain ⟨hpopped, hstate', hacc', hpops'⟩ := State.pop_moves hi (by rw [hpushed.record]; exact hd) h0 hstate
      (hpushed.unheard href) (hpushed.unheard hsched)
    have hends := hpushed.trans hpopped
    have hround := State.workSpan_succ (s := s) (i := i) (pushes := true) (pops := true) k ⟨fun _ => ⟨hle, hpush⟩, fun _ => rfl⟩ rfl
      ⟨fun _ => ⟨by rw [if_pos rfl, hpushed.record, hkept, ← heq]; exact hle,
        by rw [if_pos rfl]; exact hpushed.popsAllowed hpop (hstate.trans hst.symm)⟩, fun _ => rfl⟩
    refine hround.trans (ih k ((s.push i).pop i) ?_ (hends.unheard href) (hends.unheard hsched) ?_ hstate' ?_ ?_ ?_ ?_ (by omega))
    · rw [hends.record]; exact hd
    · rw [hends.record]; exact hseg
    · exact hends.pushesAllowed hpush (by rw [hstate']; decide)
    · exact hends.popsAllowed hpop (hstate'.trans hst.symm)
    · rw [hacc', hpops', hacc, hkept, hpushed.record, heq]
    · rw [hends.record, hacc', hacc]; exact hrest

/-! ### The records of the spans

An advance is handed to a span by its record, which no push or pop of another span changes. -/

/-- Every span has the record it had. -/
def SameRecords (s t : State) : Prop := ∀ j, (t.span j).record = (s.span j).record

theorem SameRecords.trans (h : SameRecords s t) (g : SameRecords t u) : SameRecords s u := fun j => (g j).trans (h j)

theorem SameRecords.of_spans (h : t.spans = s.spans) : SameRecords s t := fun j => by rw [State.span_of_spans h]

theorem EventFrame.sameRecords (h : EventFrame s t) : SameRecords s t := fun j => by
  have := congrArg Span.record (h.spans j)
  exact this

theorem SameRecords.modSpan {i : Nat} {f : Span → Span} (s : State) (h : ∀ P, (f P).record = P.record := by exact fun _ => rfl) :
    SameRecords s (s.modSpan i f) := fun _ => State.span_modSpan_keep Span.record _ _ _ _ h

theorem State.deliver_records (d : Nat) (g : Option Segment) (s : State) : SameRecords s (s.deliver d g) := by
  unfold State.deliver
  split
  · exact .of_spans (State.spans_modStand _ _ _)
  · split
    · split
      · exact .of_spans (State.spans_modStand _ _ _)
      · have hset : ∀ w : State, SameRecords w (w.event ⟨.scheduleMissing, d⟩ fun s => s.modStand d fun S =>
            { S with scheduleMissing := true }) := fun w =>
          (SameRecords.of_spans (State.spans_modStand _ _ _)).trans (State.event_event _ _ _).sameRecords
        exact ((SameRecords.of_spans (State.spans_modStand _ _ _)).trans (hset _)).trans (.of_spans rfl)
    · exact .of_spans (State.spans_modStand _ _ _)

theorem State.gaugeFill_records (i : Nat) (s : State) : SameRecords s (s.gaugeFill i) := by
  have htrim : ∀ (w : State) (n : Nat) (p : Option Nat) (x y : Int), SameRecords w (w.trimReport n p x y) := fun w n p x y => by
    unfold State.trimReport
    split
    · split
      · exact .of_spans (State.spans_modStand _ _ _)
      · exact .of_spans rfl
    · exact .of_spans rfl
  unfold State.gaugeFill
  dsimp only
  split
  · exact .of_spans rfl
  split
  · split
    · exact .of_spans rfl
    split
    · exact .of_spans rfl
    · split
      · exact .modSpan s
      · exact (SameRecords.modSpan s).trans (htrim _ _ _ _ _)
  · exact .of_spans rfl

theorem State.push_records (i : Nat) (s : State) : SameRecords s (s.push i) := by
  have hroom : SameRecords s (s.modSpan i fun P =>
      ({ P with pushAcc := P.pushAcc - P.record.segment } : Span).makeRoom (s.workingDownstream i)) :=
    .modSpan s fun _ => Span.makeRoom_record _ _
  have hsettle : ∀ w : State, SameRecords w (w.settlePush i) := fun w => by
    unfold State.settlePush
    dsimp only
    split
    · exact (SameRecords.modSpan w).trans (State.judgeTrack_event i _).sameRecords
    · exact (State.judgeTrack_event i w).sameRecords
  exact (((hroom.trans (.modSpan _)).trans (.of_spans (State.spans_modStand _ _ _))).trans
    (State.gaugeFill_records i _)).trans (hsettle _)

theorem State.settlePop_records (i : Nat) (s : State) : SameRecords s (s.settlePop i) := by
  unfold State.settlePop
  split
  · exact (State.enterIdle_event i s).sameRecords.trans (State.reportTailOut_event i _).sameRecords
  · exact (State.judgeTrack_event i s).sameRecords

theorem State.pop_records (i : Nat) (s : State) : SameRecords s (s.pop i) := by
  have htaken : SameRecords s (s.modSpan i fun P => { P with popAcc := P.popAcc - P.record.segment }) := .modSpan s
  unfold State.pop
  dsimp only
  split
  · exact ((htaken.trans (.modSpan _)).trans (State.deliver_records _ _ _)).trans (State.judgeTrack_event i _).sameRecords
  · split
    · exact (htaken.trans (.modSpan _)).trans (State.settlePop_records i _)
    · exact ((htaken.trans (.modSpan _)).trans (State.deliver_records _ _ _)).trans (State.settlePop_records i _)

theorem State.workSpan_records (k i : Nat) (s : State) : SameRecords s (s.workSpan k i) := by
  induction k generalizing s with
  | zero => exact .of_spans rfl
  | succ k ih =>
    have hpush : ∀ b : Bool, SameRecords s (if b then s.push i else s) := fun b => by
      cases b
      · exact .of_spans rfl
      · exact State.push_records i s
    have hpop : ∀ (b : Bool) (w : State), SameRecords w (if b then w.pop i else w) := fun b w => by
      cases b
      · exact .of_spans rfl
      · exact State.pop_records i w
    rw [State.workSpan]
    generalize (decide ((s.span i).record.segment ≤ (s.span i).pushAcc) && s.pushesAllowed i) = pushes
    have hpushed := hpush pushes
    generalize (if pushes then s.push i else s) = w at hpushed
    generalize (decide ((w.span i).record.segment ≤ (w.span i).popAcc) && w.popsAllowed i) = pops
    have hpopped := hpushed.trans (hpop pops w)
    split
    · exact hpopped.trans (ih _)
    · exact hpopped

/-! ### The advance (R74, R95) -/

theorem State.advanceSpan_records (c d i : Nat) (s : State) : SameRecords s (s.advanceSpan c d i) := by
  unfold State.advanceSpan
  dsimp only
  split
  · exact (SameRecords.modSpan s).trans (State.workSpan_records _ i _)
  · exact .of_spans rfl

/-- An advance by what each side of the span makes of it. -/
theorem State.advanceSpan_eq {c i : Nat} {pushes pops : Bool} (d : Nat)
    (hpush : pushes = true ↔ (s.span i).record.push = c ∧ s.pushesAllowed i = true)
    (hpop : pops = true ↔ (s.span i).record.pop = c ∧ s.popsAllowed i = true)
    (ht : t = s.modSpan i fun P => { P with pushAcc := if pushes then P.pushAcc + d else P.pushAcc,
                                            popAcc := if pops then P.popAcc + d else P.popAcc }) :
    s.advanceSpan c d i = if pushes || pops then t.workSpan ((t.span i).pushAcc / (t.span i).record.segment +
      (t.span i).popAcc / (t.span i).record.segment + 1) i else s := by
  have h1 : (decide ((s.span i).record.push = c) && s.pushesAllowed i) = pushes := by
    rw [Bool.eq_iff_iff, hpush]
    simp
  have h2 : (decide ((s.span i).record.pop = c) && s.popsAllowed i) = pops := by
    rw [Bool.eq_iff_iff, hpop]
    simp
  unfold State.advanceSpan
  dsimp only
  rw [h1, h2, ← ht]
  rfl

theorem State.advanceSpan_unnamed {c d i : Nat} (h : (s.span i).record.push ≠ c ∧ (s.span i).record.pop ≠ c) :
    s.advanceSpan c d i = s := by
  unfold State.advanceSpan
  simp [h.1, h.2]

/-- An advance whose channel one span alone names is that span's. -/
theorem State.advance_single {c d i : Nat} (hi : i < 9)
    (h : ∀ j, j < 9 → j ≠ i → (s.span j).record.push ≠ c ∧ (s.span j).record.pop ≠ c) :
    s.advance c d = s.advanceSpan c d i := by
  have hunnamed : ∀ (l : List Nat) (w : State), SameRecords s w → (∀ j ∈ l, j < 9 ∧ j ≠ i) →
      l.foldl (fun s i => s.advanceSpan c d i) w = w := fun l w hw => by
    induction l with
    | nil => exact fun _ => rfl
    | cons j l ih =>
      intro hl
      obtain ⟨hj, hji⟩ := hl j List.mem_cons_self
      rw [List.foldl_cons, State.advanceSpan_unnamed (by rw [hw j]; exact h j hj hji)]
      exact ih fun x hx => hl x (List.mem_cons_of_mem _ hx)
  obtain ⟨l, r, hsplit⟩ := List.append_of_mem (List.mem_range.2 hi)
  have hnodup := List.nodup_range (n := 9)
  have hmem : ∀ j, j ∈ l ∨ j ∈ r → j < 9 ∧ j ≠ i := fun j hj => by
    refine ⟨List.mem_range.1 (by rw [hsplit]; rcases hj with hj | hj <;> simp [hj]), ?_⟩
    rintro rfl
    rw [hsplit, List.nodup_middle] at hnodup
    exact (List.nodup_cons.1 hnodup).1 (by rcases hj with hj | hj <;> simp [hj])
  unfold State.advance
  rw [hsplit, List.foldl_append, List.foldl_cons, hunnamed l s (.of_spans rfl) fun j hj => hmem j (.inl hj),
    hunnamed r _ (State.advanceSpan_records c d i s) fun j hj => hmem j (.inr hj)]

/-- Settles O28: the sides that are open, and their rounds. -/
theorem advancesMoveTheSpan : Obligations.AdvancesMoveTheSpan := by
  unfold Obligations.AdvancesMoveTheSpan
  intro s c d i P hi hP hseg hpushAcc hpopAcc href hsched
  subst hP
  refine ⟨decide ((s.span i).record.push = c ∧ s.pushesAllowed i = true), decide ((s.span i).record.pop = c ∧ s.popsAllowed i = true),
    ?_, ?_, ?_⟩
  · rw [decide_eq_true_iff, State.pushesAllowed_iff]
  · rw [decide_eq_true_iff, State.popsAllowed_iff]
  generalize hpushes : decide ((s.span i).record.push = c ∧ s.pushesAllowed i = true) = pushes
  generalize hpops : decide ((s.span i).record.pop = c ∧ s.popsAllowed i = true) = pops
  have hpush : pushes = true ↔ (s.span i).record.push = c ∧ s.pushesAllowed i = true := by rw [← hpushes, decide_eq_true_iff]
  have hpop : pops = true ↔ (s.span i).record.pop = c ∧ s.popsAllowed i = true := by rw [← hpops, decide_eq_true_iff]
  have hdown : pops = true → (s.span i).state = .running → (s.span i).record.downstream ≠ 0 := fun h hst h0 => by
    rcases ((State.popsAllowed_iff i s).1 (hpop.1 h).2).2 with h' | h'
    · rw [hst] at h'
      exact SpanState.noConfusion h'.2
    · exact h'.1 h0
  generalize ht : (s.modSpan i fun P => { P with pushAcc := if pushes then P.pushAcc + d else P.pushAcc,
                                                 popAcc := if pops then P.popAcc + d else P.popAcc }) = t
  have hadvance := State.advanceSpan_eq d hpush hpop ht.symm
  have hspan : t.span i = { s.span i with
      pushAcc := if pushes then (s.span i).pushAcc + d else (s.span i).pushAcc
      popAcc := if pops then (s.span i).popAcc + d else (s.span i).popAcc } := by
    rw [← ht, State.span_modSpan_self hi]
  have hends : SameEnds i s t := by
    refine ⟨?_, fun n => ?_, by rw [hspan], by rw [hspan]⟩
    · rw [← ht]; rfl
    · rw [← ht]; rfl
  have hst : (t.span i).state = (s.span i).state := by rw [hspan]
  have hseg' : (t.span i).record.segment = (s.span i).record.segment := by rw [hends.record]
  have hopen : pushes = true → t.pushesAllowed i = true := fun h =>
    hends.pushesAllowed (hpush.1 h).2 (by rw [hst]; exact ((State.pushesAllowed_iff i s).1 (hpush.1 h).2).2.1)
  have hopen' : pops = true → t.popsAllowed i = true := fun h => hends.popsAllowed (hpop.1 h).2 hst
  refine ⟨fun h h' => ?_, fun h h' => ?_, fun h h' hrun => ?_, fun h h' hrun heq => ?_, fun h => State.advance_single hi h⟩
  · rw [hadvance, h, h']
    rfl
  · have hrounds := State.workSpan_pushes hi ((t.span i).pushAcc / (t.span i).record.segment +
      (t.span i).popAcc / (t.span i).record.segment + 1) (((s.span i).pushAcc + d) / (s.span i).record.segment) t
      (hends.unheard href) (hseg' ▸ hseg) (hopen h) (by rw [hspan, h']; exact hpopAcc) (by rw [hspan, h]; rfl)
      (by rw [hspan, h]; simp)
    subst h h'
    exact hadvance.trans (hrounds.trans (by rw [← ht]; rfl))
  · have hrounds := State.workSpan_pops hi (hdown h hrun) ((t.span i).pushAcc / (t.span i).record.segment +
      (t.span i).popAcc / (t.span i).record.segment + 1) (((s.span i).popAcc + d) / (s.span i).record.segment) t
      (by rw [hends.record]) (hends.unheard href) (hends.unheard hsched) (hseg' ▸ hseg) (hst.trans hrun) (hopen' h)
      (by rw [hspan, h']; exact hpushAcc) (by rw [hspan, h]; rfl) (by rw [hspan, h]; simp)
    subst h h'
    exact hadvance.trans (hrounds.trans (by rw [← ht]; rfl))
  · have hrounds := State.workSpan_both hi (hdown h' hrun) ((t.span i).pushAcc / (t.span i).record.segment +
      (t.span i).popAcc / (t.span i).record.segment + 1) (((s.span i).pushAcc + d) / (s.span i).record.segment) t
      (by rw [hends.record]) (hends.unheard href) (hends.unheard hsched) (hseg' ▸ hseg) (hst.trans hrun) (hopen h) (hopen' h')
      (by rw [hspan, h, h']; exact congrArg (· + d) heq) (by rw [hspan, h]; rfl) (by rw [hspan, h]; simp)
    subst h h'
    exact hadvance.trans (hrounds.trans (by rw [← ht]; rfl))

end Sys2Proof.Machine
end

section
/-! PROOFS. Force outcomes: a stand bites on or off, with the spans beside it (R76, R86, R87, R112, R113). -/

namespace Sys2Proof.Machine

variable {s t u v : State}

/-! ### Bite-on (R87, R112) -/

/-- The run of force outcomes that count. -/
def forceRun (counts : Bool) (run : Nat) : Nat := if counts then run + 1 else 0

theorem State.entrySpan_lt {n i : Nat} (h : s.entrySpan n = some i) : i < 9 := List.mem_range.1 (List.mem_of_find?_eq_some h)

theorem State.exitSpan_lt {n i : Nat} (h : s.exitSpan n = some i) : i < 9 := List.mem_range.1 (List.mem_of_find?_eq_some h)

theorem State.downstreamRolling_still {n : Nat} (h : ∀ i, s.entrySpan n = some i → (s.span i).state ≠ .filling) :
    s.downstreamRolling n = s := by
  unfold State.downstreamRolling
  split
  · rename_i i hi
    exact if_neg (h i hi)
  · rfl

theorem State.downstreamRolling_filling {n i : Nat} (h : s.entrySpan n = some i) (hst : (s.span i).state = .filling)
    (href : s.refs ⟨.trackLimit, i⟩ = []) : s.downstreamRolling n = s.modSpan i fun P =>
      { P with state := .running, popAcc := 0,
               trackLimit := decide (P.queue.length ≤ 2 ∨ P.record.capacity ≤ P.queue.length + 2) } := by
  unfold State.downstreamRolling
  rw [h]
  refine (if_pos hst).trans ((State.enterRunning_unheard href).trans (State.modSpan_congr ?_))
  rw [Span.atLimit_eq]

/-- A stand enters ROLLING, which has no effects of its own (R109). -/
theorem State.changeMode_rolling {n : Nat} (h1 : 1 ≤ n) (h8 : n ≤ 8) (cause : StandCause) (s : State) :
    QuietFrame (s.modStand n fun S => { S with mode := .rolling }) (s.changeMode n .rolling cause) := by
  have hquiet := State.notice_quiet .standState n
    (put8 (standModeCode (s.stand n).mode) ++ put8 (standModeCode .rolling) ++ put8 (standCauseCode cause))
    (s.modStand n fun S => { S with mode := .rolling })
  have hmode := congrArg Stand.mode (hquiet.stand n)
  rw [State.stand_modStand_self h1 h8] at hmode
  unfold State.changeMode
  dsimp only
  unfold State.settleMode
  rw [hmode]
  exact hquiet

/-- What a stand is after a bite-on (R112). -/
def Stand.bittenOn (S : Stand) : Stand :=
  { S with mode := .rolling, cfb := 0, cff := none, estimate := none, biteOnRun := 0, biteOffRun := 0,
           base := if S.isMoving then S.lastCommand else S.base,
           counters := { S.counters with biteOns := bump S.counters.biteOns } }

/-- A bite-on, but for what the entry span hears of it (R112). -/
theorem State.biteOn_eq {n : Nat} (h1 : 1 ≤ n) (h8 : n ≤ 8) (s : State) :
    ∃ w, s.biteOn n = w.downstreamRolling n ∧ QuietFrame (s.modStand n Stand.bittenOn) w := by
  have habort : QuietFrame (s.modStand n fun S => { S with base := if S.isMoving then S.lastCommand else S.base })
      (match (s.stand n).mode with
        | .moving m => (s.modStand n fun S => { S with base := S.lastCommand }).moveAborted n m.target 0
        | _ => s) := by
    split
    · rename_i m hm
      rw [State.modStand_congr (g := fun S => { S with base := S.lastCommand })
        (by rw [show (s.stand n).isMoving = true by simp [Stand.isMoving, hm]]; rfl)]
      exact State.notice_quiet _ _ _ _
    · rename_i hm
      rw [State.modStand_self (by
        have hno : (s.stand n).isMoving = false := by
          unfold Stand.isMoving
          split
          · rename_i m hm'
            exact absurd hm' (hm m)
          · rfl
        rw [hno]; rfl)]
      exact .refl s
  refine ⟨_, rfl, ?_⟩
  have hset := (habort.modStand n fun S =>
    { S with cfb := 0, cff := none, estimate := none, biteOnRun := 0, biteOffRun := 0,
             counters := { S.counters with biteOns := bump S.counters.biteOns } }).modStand n fun S => { S with mode := .rolling }
  rw [State.modStand_modStand, State.modStand_modStand] at hset
  exact hset.trans (State.changeMode_rolling h1 h8 .biteOn _)

/-! ### Bite-off (R87, R113) -/

/-- What a stand is after a bite-off (R113). -/
def Stand.bittenOff (S : Stand) : Stand :=
  { S with mode := .ready, estimate := none, biteOnRun := 0, biteOffRun := 0, followingRun := 0, following := false,
           counters := { S.counters with biteOffs := bump S.counters.biteOffs } }

/-- A stand has left ROLLING, and its exit span takes no pushes to stop (R87). -/
theorem State.leftRolling_still {n : Nat} (h : ∀ i, s.exitSpan n = some i → (s.span i).state = .idle ∨ (s.span i).state = .emptying) :
    s.leftRolling n = s := by
  cases hexit : s.exitSpan n with
  | none => exact State.leftRolling_none hexit
  | some i =>
    rw [State.leftRolling_some hexit]
    refine State.closeSpan_still ?_ ?_ 9 <;> rcases h i hexit with h | h <;> rw [h] <;> decide

/-- An exit span that held nothing, before a ROLLING stand without an exit span of its own: that stand's tail-out (R86, R113). -/
theorem State.closeSpan_tailOut {i d : Nat} (hi : i < 9) (h : (s.span i).state = .filling ∨ (s.span i).state = .running)
    (href : s.refs ⟨.trackLimit, i⟩ = []) (hq : (s.span i).queue = []) (hd : (s.span i).record.downstream = d) (h1 : 1 ≤ d)
    (h8 : d ≤ 8) (hr : (s.stand d).mode = .rolling) (hfol : s.refs ⟨.following, d⟩ = []) (hexit : s.exitSpan d = none) (k : Nat) :
    QuietFrame ((s.modSpan i fun P => { P with state := .idle, pushAcc := 0, popAcc := 0, trackLimit := false }).modStand d
      Stand.bittenOff) (s.closeSpan (k + 1) i) := by
  have hquiet := State.biteOff_quiet (s := s.modSpan i fun P =>
    { P with state := .idle, pushAcc := 0, popAcc := 0, trackLimit := false }) h1 h8 hfol .tailOut
  have hnone : ((s.modSpan i fun P =>
      { P with state := .idle, pushAcc := 0, popAcc := 0, trackLimit := false }).biteOff d .tailOut).exitSpan d = none := by
    rw [State.exitSpan_congr (s := s) fun j => by
      rw [hquiet.span, State.span_modStand]
      exact State.span_modSpan_keep Span.record s i j _ fun _ => rfl]
    exact hexit
  rw [State.closeSpan_empty hi h href hq, hd]
  dsimp only
  rw [if_pos ⟨by omega, (Stand.isRolling_iff _).2 hr⟩, hnone]
  exact hquiet
/-! ### Force outcomes (R76) -/

theorem State.countBiteOn_eq {n : Nat} {k : Nat} (counts : Bool) (hk : k = forceRun counts (s.stand n).biteOnRun) :
    s.countBiteOn n counts = if 3 ≤ k then (s.modStand n fun S => { S with biteOnRun := k }).biteOn n
      else s.modStand n fun S => { S with biteOnRun := k } := by
  subst hk
  rfl

theorem State.countBiteOff_eq {n : Nat} {k : Nat} (counts : Bool) (hk : k = forceRun counts (s.stand n).biteOffRun) :
    s.countBiteOff n counts = if 3 ≤ k then ((s.modStand n fun S => { S with biteOffRun := k }).biteOff n .biteOff).leftRolling n
      else s.modStand n fun S => { S with biteOffRun := k } := by
  subst hk
  rfl

/-- Settles O35: the run of outcomes that count, the bite and the span beside the stand that hears of it. -/
theorem threeForceOutcomesMoveTheStand : Obligations.ThreeForceOutcomesMoveTheStand := by
  unfold Obligations.ThreeForceOutcomesMoveTheStand
  intro s n v h1 h8 href
  have hrecords : ∀ (f : Stand → Stand) (w : State), QuietFrame (s.modStand n f) w → ∀ i, w.span i = s.span i := fun f w h i => by
    rw [h.span, State.span_modStand]
  refine ⟨fun hm => ?on, fun hm => ?off, fun hm => ?still⟩
  case still =>
    unfold State.forceOutcome
    dsimp only
    rcases hm with hm | hm
    · rw [hm]
    · unfold Stand.isTripped at hm
      cases hmode : (s.stand n).mode <;> simp_all [Stand.tripOf]
  case on =>
    generalize hcount : (v.any fun x => decide (((s.stand n).record.biteOn : Int) ≤ x)) = counts
    have hout : s.forceOutcome n v = s.countBiteOn n counts := by
      unfold State.forceOutcome
      dsimp only
      rcases hm with hm | hm
      · rw [hm, ← hcount]
      · unfold Stand.isMoving at hm
        cases hmode : (s.stand n).mode <;> simp_all
    refine ⟨forceRun counts (s.stand n).biteOnRun, _, rfl, rfl, ?_⟩
    generalize hk : forceRun counts (s.stand n).biteOnRun = k
    have hcounted := State.countBiteOn_eq counts hk.symm
    obtain ⟨w, hw, hquiet⟩ := State.biteOn_eq h1 h8 (s.modStand n fun S => { S with biteOnRun := k })
    rw [State.modStand_modStand] at hquiet
    have hspan := hrecords _ w hquiet
    have hentry : w.entrySpan n = s.entrySpan n := State.entrySpan_congr (fun j => by rw [hspan]) n
    refine ⟨fun h3 => ?_, fun h3 hstill => ?_, fun i h3 hi hst htrack => ?_⟩
    · rw [hout, hcounted, if_neg (by omega)]
    · rw [hout, hcounted, if_pos h3, hw, State.downstreamRolling_still fun i hi => by
        rw [hspan]; exact hstill i (hentry ▸ hi)]
      exact hquiet
    · rw [hout, hcounted, if_pos h3, hw, State.downstreamRolling_filling (hentry.trans hi) (by rw [hspan]; exact hst)
        (by rw [hquiet.refs, State.refs_modStand]; exact htrack)]
      exact hquiet.modSpan i _
  case off =>
    generalize hcount : (v.any fun x => decide (x < ((s.stand n).record.biteOff : Int))) = counts
    have hout : s.forceOutcome n v = s.countBiteOff n counts := by
      unfold State.forceOutcome
      dsimp only
      rw [hm, ← hcount]
    refine ⟨forceRun counts (s.stand n).biteOffRun, _, rfl, rfl, ?_⟩
    generalize hk : forceRun counts (s.stand n).biteOffRun = k
    have hcounted := State.countBiteOff_eq counts hk.symm
    generalize hw : (s.modStand n fun S => { S with biteOffRun := k }).biteOff n .biteOff = w at hcounted
    have hquiet : QuietFrame (s.modStand n Stand.bittenOff) w := by
      have := State.biteOff_quiet (s := s.modStand n fun S => { S with biteOffRun := k }) h1 h8
        (by rw [State.refs_modStand]; exact href) .biteOff
      rw [hw, State.modStand_modStand] at this
      exact this
    have hspan := hrecords _ w hquiet
    have hexit : ∀ m, w.exitSpan m = s.exitSpan m := State.exitSpan_congr fun j => by rw [hspan]
    have hrefs : ∀ c, w.refs c = s.refs c := fun c => by rw [hquiet.refs, State.refs_modStand]
    have hother : ∀ d, d ≠ n → w.stand d = s.stand d := fun d hd => by
      rw [hquiet.stand, State.stand_modStand_other hd.symm]
    refine ⟨fun h3 => ?_, fun h3 hstill => ?_, fun i h3 hi hst htrack => ?_⟩
    · rw [hout, hcounted, if_neg (by omega)]
    · rw [hout, hcounted, if_pos h3, State.leftRolling_still fun i hi => by rw [hspan]; exact hstill i (hexit n ▸ hi)]
      exact hquiet
    · have hlt := State.exitSpan_lt hi
      rw [hout, hcounted, if_pos h3, State.leftRolling_some ((hexit n).trans hi)]
      have hst' : (w.span i).state = .filling ∨ (w.span i).state = .running := by rw [hspan]; exact hst
      refine ⟨fun hq => ?_, fun d hq hd hdn => ⟨_, rfl, fun hdown => ?_, fun hd1 hd8 hroll hfol hend => ?_⟩⟩
      · rw [State.closeSpan_filled hlt hst' ((hrefs _).trans htrack) (by rw [hspan]; exact hq) 8]
        exact hquiet.modSpan i _
      · rw [State.closeSpan_idle hlt hst' ((hrefs _).trans htrack) (by rw [hspan]; exact hq)
          (by rw [hspan, ← hd, hother d hdn]; exact hdown) 8]
        exact hquiet.modSpan i _
      · exact ((hquiet.modSpan i _).modStand d _).trans (State.closeSpan_tailOut hlt hst' ((hrefs _).trans htrack)
          (by rw [hspan]; exact hq) (by rw [hspan]; exact hd.symm) hd1 hd8 (by rw [hother d hdn]; exact hroll)
          ((hrefs _).trans hfol) ((hexit d).trans hend) 8)


end Sys2Proof.Machine
end

section
/-! PROOFS. A STATUS at a stand: what is judged, and the GAP command that answers it (R48, R58, R59, R114 to R119). -/

namespace Sys2Proof.Machine

variable {s t u v : State}

/-! ### Command slots, and frames of the part's own making beside them -/

theorem Port.Aside.slot (g : Option GapCommand) : Port.Aside fun P => { P with commandSlot := g } where
  core _ _ h := h
  tests _ _ h := h
  slots _ _ h := ⟨h.link, h.order, fun hd => ⟨(h.disabled hd).1, .inl rfl⟩⟩
  queue _ := rfl
  sending _ := rfl

theorem QuietFrame.modPort (h : QuietFrame s t) {g : Port → Port} (hg : Port.Aside g)
    (hu : ∀ P Q : Port, Q.unqueued = P.unqueued → (g Q).unqueued = (g P).unqueued) (p : Nat) :
    QuietFrame (s.modPort p g) (t.modPort p g) where
  rest := by
    show { t with net := t.net.modPort p g } = { s with net := t.net.modPort p g }
    conv_lhs => rw [h.rest]
  net :=
    { ports := fun q => by
        rw [show (t.modPort p g).net.port q = (t.modPort p g).port q from rfl, show (s.modPort p g).net.port q =
          (s.modPort p g).port q from rfl, State.port_modPort, State.port_modPort]
        split
        · exact hu _ _ (h.net.ports p)
        · exact h.net.ports q
      queues := h.net.queues.modPort_both hg.queue p
      frames := h.net.frames.modPort_both p g
      exact := h.net.exact.modPort_both hg p }

theorem QuietFrame.slot (h : QuietFrame s t) (p : Nat) (g : Option GapCommand) :
    QuietFrame (s.modPort p fun P => { P with commandSlot := g }) (t.modPort p fun P => { P with commandSlot := g }) :=
  h.modPort (.slot g) (fun _ _ hu => congrArg (fun P : Port => { P with commandSlot := g }) hu) p

theorem State.modStand_modPort (n p : Nat) (f : Stand → Stand) (g : Port → Port) (s : State) :
    (s.modStand n f).modPort p g = (s.modPort p g).modStand n f := by
  unfold State.modStand
  split <;> rfl

theorem State.modStand_hold (n : Nat) (f : Stand → Stand) (x : Frame) (tags : List BlockTag) (s : State) :
    (s.hold x tags).modStand n f = (s.modStand n f).hold x tags := by
  unfold State.modStand
  split <;> rfl

/-- A GAP command written for a stand whose port is not DISABLED (R48, R114). -/
theorem State.writeGap_eq {n p : Nat} {x : PassRecord} (hp : (s.stand n).record.port = p) (hl : (s.port p).link ≠ .disabled)
    (hx : (s.stand n).current = some x) (c : Int) (fl : GapFlags) : s.writeGap n c fl =
      (s.modPort p fun P => { P with
        commandSlot := some ⟨c, x.id, flagsByte fl, n, BitVec.ofNat 8 (s.stand n).record.node⟩ }).modStand n fun S =>
        { S with lastCommand := some c, counters := { S.counters with gaps := bump S.counters.gaps } } := by
  subst hp
  unfold State.writeGap
  dsimp only
  rw [hx]
  refine congrArg (fun w : State => w.modStand n fun S =>
    { S with lastCommand := some c, counters := { S.counters with gaps := bump S.counters.gaps } }) ?_
  exact State.modPort_congr (if_neg hl)

/-! ### The row (R58, R59) -/

section
variable {p : Fin 12} {n : Nat} {dest source : Byte} {f : StatusFields}

theorem State.standOf_spec {q : Nat} (h : s.standOf q source = some n) :
    1 ≤ n ∧ n ≤ 8 ∧ (s.stand n).record.configured = true ∧ (s.stand n).record.port = q ∧
      (s.stand n).record.node = source.toNat := by
  have hmem := List.mem_of_find?_eq_some h
  have htrue := List.find?_some h
  simp only [Bool.and_eq_true, beq_iff_eq] at htrue
  have hn := (standNumbers_valid n).1 hmem
  exact ⟨hn.1, hn.2, htrue.1.1, htrue.1.2, htrue.2⟩

/-- A STATUS of a stand's node is handled while its frame is held, and the frame then goes on (R57, R59). -/
theorem State.status_row (h : s.Takes p source) (hr : (s.port p).record.role = .stand) (hb : s.HasBlock p)
    (hn : s.standOf p source = some n) : ∃ tags, exec (.status p dest source f) s =
      .next (((((s.modPort p fun P => { P with burst := none }).hold ⟨dest, source, .status, putStatus f⟩ tags).handleStatus
        n f)).passOn p s.net.nextId) := by
  obtain ⟨b, hb⟩ := h.arrive hb (State.statusAtRole p (statusFrameOf dest source f) f)
  refine ⟨burstTags ((s.reburst p (some b)).port p).burst, congrArg Host.Outcome.next (hb.trans ?_)⟩
  have hrole : ((s.reburst p (some b)).port p).hasRole .stand = true := by
    rw [State.reburst_port, if_pos ⟨rfl, p.isLt⟩]
    exact (Port.hasRole_iff _ _).2 hr
  have hdrop : (s.reburst p (some b)).modPort p (fun P => { P with burst := none }) = s.modPort p fun P => { P with burst := none } :=
    State.modPort_modPort s p _ _
  unfold State.statusAtRole
  rw [if_pos hrole, show (s.reburst p (some b)).standOf p (statusFrameOf dest source f).source = some n from hn]
  dsimp only
  rw [← hdrop]
  rfl

end
/-! ### What a STATUS judges (R116 to R118) -/

/-- A stand that has taken a STATUS, with DRIVE FAULT judged (R114, R117). -/
def Stand.statusTaken (f : StatusFields) (S : Stand) : Stand :=
  { S with lastActual := some f.actual, driveFault := decide (f.drive = .fault),
           counters := { S.counters with status := bump S.counters.status } }

/-- The run of failed following checks (R116). -/
def Stand.missed (S : Stand) (f : StatusFields) : Nat :=
  if (S.record.followLimit : Int) < |f.actual - f.echo| then min S.record.followCount (S.followingRun + 1) else 0

theorem Stand.follow_eq (S : Stand) (f : StatusFields) : S.follow f =
    { S with followingRun := S.missed f,
             following := decide ((S.record.followLimit : Int) < |f.actual - f.echo|) &&
               (S.following || S.missed f == S.record.followCount) } := by
  unfold Stand.follow Stand.missed
  by_cases h : (S.record.followLimit : Int) < |f.actual - f.echo|
  · simp [h]
  · simp [h]

section
variable {n : Nat} {f : StatusFields}

theorem State.handleStatus_out (h : (s.stand n).mode = .out) : s.handleStatus n f = s :=
  if_pos (by simp [Stand.isOut, h])

theorem State.handleStatus_eq (h : (s.stand n).mode ≠ .out) : s.handleStatus n f =
    ((((s.modStand n fun S =>
      { S with lastActual := some f.actual, counters := { S.counters with status := bump S.counters.status } }).judgeDrive n
        f.drive).judgeFollowing n f).judgeMove n
        f.actual).emitGap n f.actual :=
  if_neg (by simpa [Stand.isOut] using h)

/-- The judgement of DRIVE FAULT, which no entry refers to (R117). -/
theorem State.handleStatus_unheard (h : (s.stand n).mode ≠ .out) (href : s.refs ⟨.driveFault, n⟩ = []) : s.handleStatus n f =
    (((s.modStand n (Stand.statusTaken f)).judgeFollowing n f).judgeMove n f.actual).emitGap n f.actual := by
  have hdrive := State.event_unheard (c := ⟨.driveFault, n⟩) (s := s.modStand n fun S =>
      { S with lastActual := some f.actual, counters := { S.counters with status := bump S.counters.status } })
    (f := fun s => s.modStand n fun S => { S with driveFault := f.drive == .fault })
    (by rw [State.refs_modStand, State.refs_modStand]; exact href) (show CondKind.driveFault ≠ .panel by decide)
  rw [State.modStand_modStand] at hdrive
  rw [State.handleStatus_eq h]
  unfold State.judgeDrive
  rw [hdrive]
  rfl

/-- The following check, which is made in MOVING and ROLLING alone (R116). -/
theorem State.judgeFollowing_unheard (h : (s.stand n).isMoving = true ∨ (s.stand n).isRolling = true)
    (href : s.refs ⟨.following, n⟩ = []) : s.judgeFollowing n f = s.modStand n fun S => S.follow f := by
  unfold State.judgeFollowing
  rw [if_pos (by simpa using h)]
  exact State.event_unheard (by rw [State.refs_modStand]; exact href) (show CondKind.following ≠ .panel by decide)

theorem State.judgeFollowing_still (h : (s.stand n).isMoving = false) (h' : (s.stand n).isRolling = false) :
    s.judgeFollowing n f = s := if_neg (by simp [h, h'])

theorem State.judgeMove_still (h : (s.stand n).isMoving = false) (a : Int) : s.judgeMove n a = s := by
  unfold State.judgeMove
  split
  · rename_i m hm
    rw [Stand.isMoving, hm] at h
    exact Bool.noConfusion h
  · rfl

theorem Stand.isMoving_of_mode {S : Stand} {m : Move} (h : S.mode = .moving m) : S.isMoving = true := by rw [Stand.isMoving, h]

theorem Stand.isMoving_false {S : Stand} (h : ∀ m, S.mode ≠ .moving m) : S.isMoving = false := by
  unfold Stand.isMoving
  split
  · rename_i m hm
    exact absurd hm (h m)
  · rfl

end

/-! ### The ramp (R115) -/

theorem rampGap_of_reference {S : Stand} {actual last : Int} (h : S.reference actual = last) (target : Int) (limit : Nat) :
    (rampGap S target actual limit).1 = last + max (-(limit : Int)) (min limit (target - last)) ∧
      flagsByte (rampGap S target actual limit).2 = if |target - last| ≤ limit then 0#8 else 4#8 := by
  subst h
  refine ⟨by rw [← saturate_eq_max_min]; rfl, ?_⟩
  have hrate : (rampGap S target actual limit).2 =
      { rate := decide ((limit : Int) < |target - S.reference actual|) } := by
    simp only [← saturate_ne_iff, int_decide_ne]
    rfl
  rw [hrate]
  by_cases h : |target - S.reference actual| ≤ limit
  · rw [if_pos h, decide_eq_false (by omega)]
    rfl
  · rw [if_neg h, decide_eq_true (by omega)]
    rfl

/-! ### The frame of a STATUS goes on (R59) -/

section
variable {p : Fin 12} {n : Nat} {dest source : Byte} {f : StatusFields}

/-- A STATUS whose handling changes ports and stands alone: its frame goes on. -/
theorem State.status_gives (h : s.Takes p source) (hr : (s.port p).record.role = .stand) (hb : s.HasBlock p)
    (hn : s.standOf p source = some n) (hid : v.net.nextId = s.net.nextId)
    (hv : ∀ tags, ((s.modPort p fun P => { P with burst := none }).hold ⟨dest, source, .status, putStatus f⟩ tags).handleStatus n f =
      v.hold ⟨dest, source, .status, putStatus f⟩ tags) :
    ∃ t, exec (.status p dest source f) s = .next t ∧ QuietFrame v t ∧ v.Copied t p ⟨dest, source, .status, putStatus f⟩ := by
  obtain ⟨tags, hexec⟩ := State.status_row (dest := dest) (f := f) h hr hb hn
  rw [hv, ← hid, State.passOn_hold] at hexec
  exact ⟨_, hexec, State.spread_quiet _ _ _ v, State.spread_copied _ _ _ v⟩

/-- A STATUS whose handling sends notices. -/
theorem State.status_gives_quiet (h : s.Takes p source) (hr : (s.port p).record.role = .stand) (hb : s.HasBlock p)
    (hn : s.standOf p source = some n) (hid : v.net.nextId = s.net.nextId)
    (hv : ∀ tags, QuietFrame (v.hold ⟨dest, source, .status, putStatus f⟩ tags)
      (((s.modPort p fun P => { P with burst := none }).hold ⟨dest, source, .status, putStatus f⟩ tags).handleStatus n f)) :
    ∃ t, exec (.status p dest source f) s = .next t ∧ QuietFrame v t := by
  obtain ⟨tags, hexec⟩ := State.status_row (dest := dest) (f := f) h hr hb hn
  rw [← hid] at hexec
  exact ⟨_, hexec, (hv tags).passOn p⟩

theorem State.nextId_modStand (m : Nat) (g : Stand → Stand) (w : State) : (w.modStand m g).net.nextId = w.net.nextId := by
  rw [State.net_modStand]

/-- A command given while the frame of the STATUS is held, its burst over. -/
theorem State.given_hold (p n : Nat) (x : Frame) (tags : List BlockTag) (g : Option GapCommand) (A : Stand → Stand) (s : State) :
    (((s.modPort p fun P => { P with burst := none }).hold x tags).modPort p fun P => { P with commandSlot := g }).modStand n A =
      ((s.modPort p fun P => { P with burst := none, commandSlot := g }).modStand n A).hold x tags := by
  rw [← State.modStand_hold, ← State.modPort_modPort s p (fun P => { P with burst := none }) fun P => { P with commandSlot := g }]
  rfl

/-- What the handling of a STATUS reads of its port. -/
theorem State.link_held (h : s.Takes p source) (x : Frame) (tags : List BlockTag) :
    (((s.modPort p fun P => { P with burst := none }).hold x tags).port p).link ≠ .disabled := by
  have hlink : ((s.modPort p fun P => { P with burst := none }).port p).link = (s.port p).link :=
    Net.port_modPort_keep Port.link s.net p p _ fun _ => rfl
  rw [show ((s.modPort p fun P => { P with burst := none }).hold x tags).port p =
    (s.modPort p fun P => { P with burst := none }).port p from rfl, hlink, h.up]
  decide

/-- `w` is `s` to the handling of a STATUS at port `p`. -/
structure State.SameStands (s w : State) (p : Nat) : Prop where
  stand : ∀ n, w.stand n = s.stand n
  channel : ∀ c, w.channel c = s.channel c
  refs : ∀ c, w.refs c = s.refs c
  link : (w.port p).link ≠ .disabled

theorem State.Takes.sameStands (h : s.Takes p source) (x : Frame) (tags : List BlockTag) :
    s.SameStands ((s.modPort p fun P => { P with burst := none }).hold x tags) p :=
  ⟨fun _ => rfl, fun _ => rfl, fun _ => rfl, State.link_held h x tags⟩

/-- A STATUS whose handling gives one command. -/
theorem State.status_commands {g : Option GapCommand} {A : Stand → Stand} (h : s.Takes p source)
    (hr : (s.port p).record.role = .stand) (hb : s.HasBlock p) (hn : s.standOf p source = some n)
    (hv : v = (s.modPort p fun P => { P with burst := none, commandSlot := g }).modStand n A)
    (hgive : ∀ w : State, s.SameStands w p →
      w.handleStatus n f = (w.modPort p fun P => { P with commandSlot := g }).modStand n A) :
    ∃ t, exec (.status p dest source f) s = .next t ∧ QuietFrame v t ∧ v.Copied t p ⟨dest, source, .status, putStatus f⟩ := by
  subst hv
  refine State.status_gives h hr hb hn (by rw [State.nextId_modStand]; rfl) fun tags => ?_
  rw [← State.given_hold]
  exact hgive _ (h.sameStands _ _)

/-- A STATUS whose handling gives one command and sends notices. -/
theorem State.status_commands_quiet {g : Option GapCommand} {A : Stand → Stand} (h : s.Takes p source)
    (hr : (s.port p).record.role = .stand) (hb : s.HasBlock p) (hn : s.standOf p source = some n)
    (hv : v = (s.modPort p fun P => { P with burst := none, commandSlot := g }).modStand n A)
    (hgive : ∀ w : State, s.SameStands w p →
      QuietFrame ((w.modPort p fun P => { P with commandSlot := g }).modStand n A) (w.handleStatus n f)) :
    ∃ t, exec (.status p dest source f) s = .next t ∧ QuietFrame v t := by
  subst hv
  refine State.status_gives_quiet h hr hb hn (by rw [State.nextId_modStand]; rfl) fun tags => ?_
  rw [← State.given_hold]
  exact hgive _ (h.sameStands _ _)

end

/-! ### The command of a STATUS (R114, R115, R127) -/

section
variable {n p : Nat} {f : StatusFields} {x : PassRecord}

/-- A stand that has been given a command. -/
def Stand.commanded (c : Int) (S : Stand) : Stand :=
  { S with lastCommand := some c, counters := { S.counters with gaps := bump S.counters.gaps } }

/-- The GAP command of stand `n` on pass `x`. -/
def Stand.gapCommand (S : Stand) (n : Nat) (x : PassRecord) (c : Int) (flags : Byte) : GapCommand :=
  ⟨c, x.id, flags, n, BitVec.ofNat 8 S.record.node⟩

/-- The writing of a command after one change of the stand. -/
theorem State.writeGap_modStand {A : Stand → Stand} (h1 : 1 ≤ n) (h8 : n ≤ 8) (hA : (A (s.stand n)).record = (s.stand n).record)
    (hp : (s.stand n).record.port = p) (hl : (s.port p).link ≠ .disabled) (hx : (A (s.stand n)).current = some x) (c : Int)
    (fl : GapFlags) : (s.modStand n A).writeGap n c fl =
      (s.modPort p fun P => { P with commandSlot := some ((s.stand n).gapCommand n x c (flagsByte fl)) }).modStand n fun S =>
        (A S).commanded c := by
  have hself : (s.modStand n A).stand n = A (s.stand n) := State.stand_modStand_self h1 h8 A s
  rw [State.writeGap_eq (p := p) (x := x) (by rw [hself, hA]; exact hp) (by rw [State.port_modStand]; exact hl)
    (by rw [hself]; exact hx), hself, hA, State.modStand_modPort, State.modStand_modStand]
  rfl

theorem State.emitGap_ready {b : Int} (hm : (s.stand n).mode = .ready) (hb : (s.stand n).base = some b) (a : Int) :
    s.emitGap n a = s.writeGap n
      (rampGap (s.stand n) (clampTo (s.stand n).record.limLo (s.stand n).record.limHi b) a (s.stand n).record.rateStep).1
      (rampGap (s.stand n) (clampTo (s.stand n).record.limLo (s.stand n).record.limHi b) a (s.stand n).record.rateStep).2 := by
  unfold State.emitGap State.baseOf
  dsimp only
  rw [hm, hb]

theorem State.emitGap_moving {m : Move} (hm : (s.stand n).mode = .moving m) (a : Int) : s.emitGap n a = s.writeGap n
    (rampGap (s.stand n) m.target a (s.stand n).record.moveStep).1 (rampGap (s.stand n) m.target a (s.stand n).record.moveStep).2 := by
  unfold State.emitGap
  dsimp only
  rw [hm]

theorem State.emitGap_rolling {b : Int} (hm : (s.stand n).mode = .rolling) (hb : (s.stand n).base = some b)
    (hx : (s.stand n).current = some x) (a : Int) : s.emitGap n a =
      (s.modStand n fun S => { S with cfb := (computeGap (s.stand n) x b a (s.forceOf n)).cfb,
                                      estimate := (computeGap (s.stand n) x b a (s.forceOf n)).estimate }).writeGap n
        (computeGap (s.stand n) x b a (s.forceOf n)).command (computeGap (s.stand n) x b a (s.forceOf n)).flags := by
  unfold State.emitGap State.baseOf
  dsimp only
  rw [hm, hx]
  dsimp only
  rw [hb]

theorem State.emitGap_tripped (h : (s.stand n).isTripped = true) (a : Int) : s.emitGap n a = s := by
  unfold State.emitGap
  dsimp only
  split <;> simp_all [Stand.isTripped, Stand.tripOf]

end


end Sys2Proof.Machine
end

section
/-! PROOFS. A STATUS at an OUT, a TRIPPED and a READY stand (R114, R115, R117). -/

namespace Sys2Proof.Machine

variable {s t u v : State}

section
variable {n p : Nat} {f : StatusFields} {x : PassRecord}

theorem Stand.isTripped_still {S : Stand} (h : S.isTripped = true) : S.mode ≠ .out ∧ S.isMoving = false ∧ S.isRolling = false := by
  cases hm : S.mode <;> simp_all [Stand.isTripped, Stand.tripOf, Stand.isMoving, Stand.isRolling]

theorem Stand.heldAs.isTripped {S T : Stand} (h : S.heldAs T) (hS : S.isTripped = true) : T.isTripped = true := by
  have htripped : ∀ {R : Stand}, R.isTripped = true ↔ ∃ a, R.mode = .tripped a := fun {R} => by
    cases hm : R.mode <;> simp [Stand.isTripped, Stand.tripOf, hm]
  obtain ⟨a, ha⟩ := htripped.1 hS
  rcases h with h | ⟨h, -⟩ | ⟨-, b, h, -⟩
  · exact htripped.2 ⟨a, h.trans ha⟩
  · rw [ha] at h
    exact StandMode.noConfusion h
  · exact htripped.2 ⟨b, h⟩

/-- At a TRIPPED stand nothing follows the judgement of DRIVE FAULT (R114). -/
theorem State.handleStatus_tripped (h1 : 1 ≤ n) (h8 : n ≤ 8) (h : (s.stand n).isTripped = true) :
    EventFrame (s.modStand n (Stand.statusTaken f)) (s.handleStatus n f) ∧
      (s.refs ⟨.driveFault, n⟩ = [] → s.handleStatus n f = s.modStand n (Stand.statusTaken f)) := by
  have hrest : ∀ w : State, (w.stand n).isTripped = true → ((w.judgeFollowing n f).judgeMove n f.actual).emitGap n f.actual = w :=
    fun w hw => by
      obtain ⟨-, hmove, hroll⟩ := Stand.isTripped_still hw
      rw [State.judgeFollowing_still hmove hroll, State.judgeMove_still hmove, State.emitGap_tripped hw]
  have hself : ((s.modStand n (Stand.statusTaken f)).stand n).isTripped = true := by
    rw [State.stand_modStand_self h1 h8]
    exact h
  obtain ⟨hout, -, -⟩ := Stand.isTripped_still h
  refine ⟨?_, fun href => by rw [State.handleStatus_unheard hout href, hrest _ hself]⟩
  have hdrive := State.event_event ⟨.driveFault, n⟩ (fun s => s.modStand n fun S => { S with driveFault := f.drive == .fault })
    (s.modStand n fun S =>
      { S with lastActual := some f.actual, counters := { S.counters with status := bump S.counters.status } })
  rw [State.modStand_modStand] at hdrive
  rw [State.handleStatus_eq hout]
  have heq := hrest _ ((hdrive.held n).isTripped hself)
  unfold State.judgeDrive
  rw [heq]
  exact hdrive

/-- A READY stand with a base answers a STATUS by a ramp of one rate step (R115). -/
theorem State.handleStatus_ready {b : Int} (h1 : 1 ≤ n) (h8 : n ≤ 8) (hm : (s.stand n).mode = .ready)
    (hb : (s.stand n).base = some b) (hx : (s.stand n).current = some x) (hp : (s.stand n).record.port = p)
    (hl : (s.port p).link ≠ .disabled) (href : s.refs ⟨.driveFault, n⟩ = []) {g : Int × GapFlags}
    (hg : g = rampGap (s.stand n) (clampTo (s.stand n).record.limLo (s.stand n).record.limHi b) f.actual (s.stand n).record.rateStep) :
    s.handleStatus n f = (s.modPort p fun P =>
      { P with commandSlot := some ((s.stand n).gapCommand n x g.1 (flagsByte g.2)) }).modStand n fun S =>
        (S.statusTaken f).commanded g.1 := by
  have hself : (s.modStand n (Stand.statusTaken f)).stand n = (s.stand n).statusTaken f := State.stand_modStand_self h1 h8 _ s
  have hmove : ((s.modStand n (Stand.statusTaken f)).stand n).isMoving = false := by
    rw [hself]
    exact Stand.isMoving_false fun m hm' => by
      rw [show ((s.stand n).statusTaken f).mode = (s.stand n).mode from rfl, hm] at hm'
      exact StandMode.noConfusion hm'
  have hroll : ((s.modStand n (Stand.statusTaken f)).stand n).isRolling = false := by
    rw [hself]
    simp [Stand.isRolling, Stand.statusTaken, hm]
  have hemit := State.emitGap_ready (s := s.modStand n (Stand.statusTaken f)) (n := n) (b := b) (by rw [hself]; exact hm)
    (by rw [hself]; exact hb) f.actual
  rw [State.handleStatus_unheard (by rw [hm]; decide) href, State.judgeFollowing_still hmove hroll, State.judgeMove_still hmove,
    hemit, hself]
  refine (State.writeGap_modStand h1 h8 rfl hp hl hx _ _).trans ?_
  rw [hg]
  rfl

end

/-- Settles O36: nothing, the judgement alone, or the ramp of a READY stand. -/
theorem statusByOutTrippedAndReadyStands : Obligations.StatusByOutTrippedAndReadyStands := by
  unfold Obligations.StatusByOutTrippedAndReadyStands
  refine ⟨fun s b p dest source f n h hr hb hn hbv => ⟨fun hm => ?out, fun hm => ?tripped⟩,
    fun s p dest source f n b x h hr hb hn hm hbase hx hlim href => ?ready⟩
  all_goals obtain ⟨h1, h8, -, hport, -⟩ := State.standOf_spec hn
  case out =>
    subst hbv
    exact State.status_gives h hr hb hn rfl fun tags => State.handleStatus_out hm
  case tripped =>
    subst hbv
    obtain ⟨tags, hexec⟩ := State.status_row (dest := dest) (f := f) h hr hb hn
    obtain ⟨hevent, hquiet⟩ := State.handleStatus_tripped (f := f) (s := (s.modPort p fun P => { P with burst := none }).hold
      ⟨dest, source, .status, putStatus f⟩ tags) h1 h8 hm
    rw [State.modStand_hold] at hevent hquiet
    generalize hv : (s.modPort p fun P => { P with burst := none }).modStand n (Stand.statusTaken f) = v at hevent hquiet
    have hid : s.net.nextId = v.net.nextId := by rw [← hv, State.nextId_modStand]; rfl
    refine ⟨v, _, hv.symm, hexec, ?_, fun href => ?_⟩
    · rw [hid]
      exact hevent.passOn p
    · rw [hquiet href, hid, State.passOn_hold]
      exact ⟨State.spread_quiet _ _ _ v, State.spread_copied _ _ _ v⟩
  case ready =>
    generalize hg : rampGap (s.stand n) (clampTo (s.stand n).record.limLo (s.stand n).record.limHi b) f.actual
      (s.stand n).record.rateStep = g
    obtain ⟨hcommand, hflags⟩ := rampGap_of_reference (actual := f.actual) rfl
      (clampTo (s.stand n).record.limLo (s.stand n).record.limHi b) (s.stand n).record.rateStep
    rw [hg, clampTo_eq_max_min hlim] at hcommand hflags
    generalize hv : (s.modPort p fun P =>
      { P with burst := none, commandSlot := some ((s.stand n).gapCommand n x g.1 (flagsByte g.2)) }).modStand n (fun S =>
        (S.statusTaken f).commanded g.1) = v
    obtain ⟨t, hexec, hquiet, hcopied⟩ := State.status_commands (dest := dest) (f := f) h hr hb hn hv.symm fun w hw => by
      rw [← hw.stand] at hm hbase hx hport hg ⊢
      exact State.handleStatus_ready h1 h8 hm hbase hx hport hw.link ((hw.refs _).trans href) hg.symm
    refine ⟨v, t, (s.stand n).reference f.actual, _, _, _, hexec, fun c hc => Stand.reference_of_lastCommand hc _, fun hc => ?_, rfl, rfl,
      rfl, ?_, hquiet, hcopied⟩
    · rw [Stand.reference, hc]
      exact clampTo_eq_max_min hlim _
    · rw [← hv, ← hflags, ← hcommand]
      rfl

end Sys2Proof.Machine
end

section
/-! PROOFS. A STATUS at a ROLLING and a MOVING stand, and the end of a move by its timer (R114 to R119, R127, R128). -/

namespace Sys2Proof.Machine

variable {s t u v : State}

/-! ### A ROLLING stand (R127, R128) -/

/-- A stand that has taken a STATUS with the following check (R114, R116, R117). -/
def Stand.statusChecked (f : StatusFields) (S : Stand) : Stand := (S.statusTaken f).follow f

theorem Stand.statusChecked_eq (f : StatusFields) (S : Stand) : S.statusChecked f =
    { S with
      lastActual := some f.actual, driveFault := decide (f.drive = .fault), followingRun := S.missed f,
      following := decide ((S.record.followLimit : Int) < |f.actual - f.echo|) &&
        (S.following || S.missed f == S.record.followCount)
      counters := { S.counters with status := bump S.counters.status } } := by
  unfold Stand.statusChecked
  rw [Stand.follow_eq]
  rfl

/-- The computation reads nothing that a STATUS has judged. -/
theorem computeGap_statusChecked (f : StatusFields) (S : Stand) (x : PassRecord) (b a : Int) (F : Option Int) :
    computeGap (S.statusChecked f) x b a F = computeGap S x b a F := by
  rw [Stand.statusChecked_eq]
  rfl

section
variable {n p : Nat} {f : StatusFields} {x : PassRecord}

/-- A STATUS in MOVING or ROLLING as far as the following check. -/
theorem State.handleStatus_checked (h1 : 1 ≤ n) (h8 : n ≤ 8) (h : (s.stand n).isMoving = true ∨ (s.stand n).isRolling = true)
    (href : s.refs ⟨.driveFault, n⟩ = []) (href' : s.refs ⟨.following, n⟩ = []) :
    s.handleStatus n f = ((s.modStand n (Stand.statusChecked f)).judgeMove n f.actual).emitGap n f.actual := by
  have hout : (s.stand n).mode ≠ .out := fun hm => by
    rcases h with h | h <;> simp [Stand.isMoving, Stand.isRolling, hm] at h
  have hself : (s.modStand n (Stand.statusTaken f)).stand n = (s.stand n).statusTaken f := State.stand_modStand_self h1 h8 _ s
  rw [State.handleStatus_unheard hout href, State.judgeFollowing_unheard (by rw [hself]; exact h)
    (by rw [State.refs_modStand]; exact href'), State.modStand_modStand]
  rfl

theorem State.forceOf_eq (n : Nat) (s : State) : s.forceOf n =
    if (s.channel (s.stand n).record.force).record.enabled = true ∧ (s.channel (s.stand n).record.force).record.type = .force ∧
        ((s.channel (s.stand n).record.force).state = .valid ∨ (s.channel (s.stand n).record.force).state = .suspect) then
      some (s.channel (s.stand n).record.force).value else none := by
  unfold State.forceOf
  dsimp only
  exact if_congr (Channel.usable_iff _ _) rfl rfl

/-- A ROLLING stand answers a STATUS by one computation (R127). -/
theorem State.handleStatus_rolling {b : Int} {G : Computation} (h1 : 1 ≤ n) (h8 : n ≤ 8) (hm : (s.stand n).mode = .rolling)
    (hb : (s.stand n).base = some b) (hx : (s.stand n).current = some x) (hp : (s.stand n).record.port = p)
    (hl : (s.port p).link ≠ .disabled) (href : s.refs ⟨.driveFault, n⟩ = []) (href' : s.refs ⟨.following, n⟩ = [])
    (hG : G = computeGap (s.stand n) x b f.actual (s.forceOf n)) : s.handleStatus n f = (s.modPort p fun P =>
      { P with commandSlot := some ((s.stand n).gapCommand n x G.command (flagsByte G.flags)) }).modStand n fun S =>
        ({ S.statusChecked f with cfb := G.cfb, estimate := G.estimate } : Stand).commanded G.command := by
  have hself : (s.modStand n (Stand.statusChecked f)).stand n = (s.stand n).statusChecked f := State.stand_modStand_self h1 h8 _ s
  have hchecked := Stand.statusChecked_eq f (s.stand n)
  have hmode : ((s.stand n).statusChecked f).mode = .rolling := by rw [hchecked]; exact hm
  have hbase : ((s.stand n).statusChecked f).base = some b := by rw [hchecked]; exact hb
  have hpass : ((s.stand n).statusChecked f).current = some x := by rw [hchecked]; exact hx
  have hrec : ((s.stand n).statusChecked f).record = (s.stand n).record := by rw [hchecked]
  have hforce : (s.modStand n (Stand.statusChecked f)).forceOf n = s.forceOf n := by
    rw [State.forceOf_eq, State.forceOf_eq, hself, hrec]
    simp only [State.channel_modStand]
  have hemit := State.emitGap_rolling (s := s.modStand n (Stand.statusChecked f)) (by rw [hself]; exact hmode)
    (by rw [hself]; exact hbase) (by rw [hself]; exact hpass) f.actual
  rw [hself, hforce, computeGap_statusChecked, ← hG, State.modStand_modStand] at hemit
  rw [State.handleStatus_checked h1 h8 (.inr ((Stand.isRolling_iff _).2 hm)) href href',
    State.judgeMove_still (by rw [hself]; exact Stand.isMoving_false fun m h => by rw [hmode] at h; exact StandMode.noConfusion h),
    hemit]
  exact State.writeGap_modStand (A := fun S => { S.statusChecked f with cfb := G.cfb, estimate := G.estimate }) h1 h8 hrec hp hl
    hpass _ _

end

/-- Settles O38: the computation, its command and what the stand keeps of it. -/
theorem rollingStatusComputesTheGap : Obligations.RollingStatusComputesTheGap := by
  unfold Obligations.RollingStatusComputesTheGap
  intro s p dest source f n b x h hr hb hn hm hbase hx href href'
  obtain ⟨h1, h8, -, hport, -⟩ := State.standOf_spec hn
  generalize hF : s.forceOf n = F
  generalize hG : computeGap (s.stand n) x b f.actual F = G
  generalize hv : (s.modPort p fun P => { P with
    burst := none, commandSlot := some ((s.stand n).gapCommand n x G.command (flagsByte G.flags)) }).modStand n (fun S =>
      ({ S.statusChecked f with cfb := G.cfb, estimate := G.estimate } : Stand).commanded G.command) = v
  obtain ⟨t, hexec, hquiet, hcopied⟩ := State.status_commands (dest := dest) (f := f) h hr hb hn hv.symm fun w hw => by
    have hforce : w.forceOf n = F := by
      rw [← hF, State.forceOf_eq, State.forceOf_eq]
      simp only [hw.stand, hw.channel]
    rw [← hw.stand] at hm hbase hx hport hG ⊢
    exact State.handleStatus_rolling h1 h8 hm hbase hx hport hw.link ((hw.refs _).trans href) ((hw.refs _).trans href')
      (by rw [hforce, hG])
  have hgive : ({ (s.stand n).statusChecked f with cfb := G.cfb, estimate := G.estimate } : Stand).commanded G.command =
      { s.stand n with
        cfb := G.cfb, estimate := G.estimate, lastActual := some f.actual, driveFault := decide (f.drive = .fault)
        followingRun := (s.stand n).missed f
        following := decide (((s.stand n).record.followLimit : Int) < |f.actual - f.echo|) &&
          ((s.stand n).following || (s.stand n).missed f == (s.stand n).record.followCount)
        lastCommand := some G.command
        counters := { (s.stand n).counters with
          status := bump (s.stand n).counters.status, gaps := bump (s.stand n).counters.gaps } } := by
    rw [Stand.statusChecked_eq]
    rfl
  refine ⟨v, t, _, F, _, hexec, rfl, ?_, rfl, ?_, hquiet, hcopied⟩
  · rw [← hF, State.forceOf_eq]
  · rw [← hv, hG]
    refine State.modStand_congr ?_
    exact hgive
/-! ### A MOVING stand (R115, R118) -/

section
variable {n p : Nat} {f : StatusFields} {x : PassRecord} {m : Move}

/-- The in-position run after a STATUS (R118). -/
def Stand.inPosition (S : Stand) (m : Move) (a : Int) : Nat := if |a - m.target| ≤ S.record.band then m.run + 1 else 0

theorem State.judgeMove_moving (hm : (s.stand n).mode = .moving m) (a : Int) : s.judgeMove n a =
    if 3 ≤ (s.stand n).inPosition m a then s.moveDone n m.target a
    else s.modStand n fun S => { S with mode := .moving { m with run := (s.stand n).inPosition m a } } := by
  unfold State.judgeMove
  rw [hm]
  rfl

/-- A move that goes on: the command ramps at the move step (R115). -/
theorem State.handleStatus_moving {g : Int × GapFlags} {run : Nat} (h1 : 1 ≤ n) (h8 : n ≤ 8)
    (hm : (s.stand n).mode = .moving m) (hx : (s.stand n).current = some x) (hp : (s.stand n).record.port = p)
    (hl : (s.port p).link ≠ .disabled) (href : s.refs ⟨.driveFault, n⟩ = []) (href' : s.refs ⟨.following, n⟩ = [])
    (hrun : run = (s.stand n).inPosition m f.actual) (h3 : run < 3)
    (hg : g = rampGap (s.stand n) m.target f.actual (s.stand n).record.moveStep) : s.handleStatus n f = (s.modPort p fun P =>
      { P with commandSlot := some ((s.stand n).gapCommand n x g.1 (flagsByte g.2)) }).modStand n fun S =>
        ({ S.statusChecked f with mode := .moving { m with run := run } } : Stand).commanded g.1 := by
  have hchecked := Stand.statusChecked_eq f (s.stand n)
  have hself : (s.modStand n (Stand.statusChecked f)).stand n = (s.stand n).statusChecked f := State.stand_modStand_self h1 h8 _ s
  have hjudge := State.judgeMove_moving (s := s.modStand n (Stand.statusChecked f)) (by rw [hself, hchecked]; exact hm) f.actual
  have hpos : ((s.stand n).statusChecked f).inPosition m f.actual = run := by rw [hrun, hchecked]; rfl
  rw [hself, hpos, if_neg (by omega), State.modStand_modStand] at hjudge
  rw [State.handleStatus_checked h1 h8 (.inl (Stand.isMoving_of_mode hm)) href href', hjudge]
  have hmoved := State.stand_modStand_self h1 h8 (fun S => { S.statusChecked f with mode := .moving { m with run := run } }) s
  rw [State.emitGap_moving (m := { m with run := run }) (by rw [hmoved]), hmoved]
  have hramp : rampGap { (s.stand n).statusChecked f with mode := .moving { m with run := run } } m.target f.actual
      ({ (s.stand n).statusChecked f with mode := .moving { m with run := run } } : Stand).record.moveStep = g := by
    rw [hg, hchecked]
    rfl
  rw [hramp]
  exact State.writeGap_modStand (A := fun S => { S.statusChecked f with mode := .moving { m with run := run } }) h1 h8
    (by rw [hchecked]) hp hl (by rw [hchecked]; exact hx) _ _

/-- What a stand is after the STATUS that ends its move (R118). -/
def Stand.moved (f : StatusFields) (target : Int) (S : Stand) : Stand :=
  { S with mode := .ready, base := some target, lastActual := some f.actual, driveFault := decide (f.drive = .fault),
           followingRun := 0, following := false,
           counters := { S.counters with status := bump S.counters.status, movesDone := bump S.counters.movesDone } }

/-- The end of a move, but for its command (R118). -/
theorem State.moveDone_quiet (h1 : 1 ≤ n) (h8 : n ≤ 8) (href : s.refs ⟨.following, n⟩ = []) (target a : Int) :
    QuietFrame (s.modStand n (Stand.moved f target)) ((s.modStand n (Stand.statusChecked f)).moveDone n target a) := by
  have hready := State.changeMode_ready (s := (s.modStand n (Stand.statusChecked f)).modStand n fun S =>
    { S with base := some target, counters := { S.counters with movesDone := bump S.counters.movesDone } }) h1 h8
    (by rw [State.refs_modStand, State.refs_modStand]; exact href) .moveDone
  rw [State.modStand_modStand, State.modStand_modStand] at hready
  simp only [Stand.statusChecked_eq] at hready
  exact hready.trans (State.notice_quiet _ _ _ _)

/-- The third STATUS in position ends the move; its command ramps at the rate step (R115, R118). -/
theorem State.handleStatus_moved {g : Int × GapFlags} (h1 : 1 ≤ n) (h8 : n ≤ 8) (hm : (s.stand n).mode = .moving m)
    (hx : (s.stand n).current = some x) (hp : (s.stand n).record.port = p) (hl : (s.port p).link ≠ .disabled)
    (hlo : (s.stand n).record.limLo ≤ m.target) (hhi : m.target ≤ (s.stand n).record.limHi)
    (href : s.refs ⟨.driveFault, n⟩ = []) (href' : s.refs ⟨.following, n⟩ = []) (h3 : 3 ≤ (s.stand n).inPosition m f.actual)
    (hg : g = rampGap (s.stand n) m.target f.actual (s.stand n).record.rateStep) :
    QuietFrame ((s.modPort p fun P =>
      { P with commandSlot := some ((s.stand n).gapCommand n x g.1 (flagsByte g.2)) }).modStand n fun S =>
        (S.moved f m.target).commanded g.1) (s.handleStatus n f) := by
  have hchecked := Stand.statusChecked_eq f (s.stand n)
  have hself : (s.modStand n (Stand.statusChecked f)).stand n = (s.stand n).statusChecked f := State.stand_modStand_self h1 h8 _ s
  have hjudge := State.judgeMove_moving (s := s.modStand n (Stand.statusChecked f)) (by rw [hself, hchecked]; exact hm) f.actual
  have hpos : ((s.stand n).statusChecked f).inPosition m f.actual = (s.stand n).inPosition m f.actual := by rw [hchecked]; rfl
  have hdone := State.moveDone_quiet (f := f) h1 h8 href' m.target f.actual
  rw [hself, hpos, if_pos h3] at hjudge
  rw [State.handleStatus_checked h1 h8 (.inl (Stand.isMoving_of_mode hm)) href href', hjudge]
  generalize (s.modStand n (Stand.statusChecked f)).moveDone n m.target f.actual = w at hdone
  have hmoved : w.stand n = (s.stand n).moved f m.target := by rw [hdone.stand, State.stand_modStand_self h1 h8]
  have hlink : (w.port p).link ≠ .disabled := by
    have := congrArg Port.link (hdone.net.ports p)
    rw [show (w.port p).link = _ from this, show ((s.modStand n (Stand.moved f m.target)).net.port p).unqueued.link =
      ((s.modStand n (Stand.moved f m.target)).port p).link from rfl, State.port_modStand]
    exact hl
  have hramp : rampGap ((s.stand n).moved f m.target) (clampTo ((s.stand n).moved f m.target).record.limLo
      ((s.stand n).moved f m.target).record.limHi m.target) f.actual ((s.stand n).moved f m.target).record.rateStep = g := by
    refine (congrArg (fun b => rampGap ((s.stand n).moved f m.target) b f.actual (s.stand n).record.rateStep)
      (clampTo_of_mem hlo hhi)).trans ?_
    rw [hg]
    rfl
  rw [State.emitGap_ready (b := m.target) (by rw [hmoved]; rfl) (by rw [hmoved]; rfl), hmoved, hramp,
    State.writeGap_eq (p := p) (x := x) (by rw [hmoved]; exact hp) hlink (by rw [hmoved]; exact hx), hmoved]
  have hgiven := (hdone.slot p (some ((s.stand n).gapCommand n x g.1 (flagsByte g.2)))).modStand n (Stand.commanded g.1)
  rw [State.modStand_modPort, State.modStand_modStand] at hgiven
  exact hgiven


end

/-! ### The move timer (R119) -/

/-- A stand enters a state other than OUT: what follows is an event's (R109). -/
theorem State.changeMode_settles {n : Nat} (h1 : 1 ≤ n) (h8 : n ≤ 8) {k : StandMode} (hk : k ≠ .out) (cause : StandCause)
    (s : State) : EventFrame (s.modStand n fun S => { S with mode := k }) (s.changeMode n k cause) := by
  refine (State.notice_quiet .standState n
    (put8 (standModeCode (s.stand n).mode) ++ put8 (standModeCode k) ++ put8 (standCauseCode cause)) _).event.trans
    (State.settleMode_event n _ ?_)
  rw [State.stand_notice, State.stand_modStand_self h1 h8]
  exact hk

theorem EventFrame.refs (h : EventFrame s t) (c : CondId) : t.refs c = s.refs c := by
  unfold State.refs
  simp only [h.entries]

/-- A stand whose move its timer has failed (R119). -/
def Stand.timedOut (S : Stand) : Stand :=
  { S with moveFailed := true, base := S.lastCommand, counters := { S.counters with movesFailed := bump S.counters.movesFailed } }

/-- The end of a move by its timer, before the entries that refer to MOVE FAILED proceed (R119). -/
theorem State.moveTimeout_eq {n : Nat} {m : Move} {x : Int} (h1 : 1 ≤ n) (h8 : n ≤ 8) (hm : (s.stand n).mode = .moving m)
    (hx : (s.stand n).lastActual = some x) : ∃ (w : State) (es : List Nat), QuietFrame (s.modStand n Stand.timedOut) w ∧
      (s.refs ⟨.moveFailed, n⟩ = [] → es = []) ∧ s.moveTimeout n =
        ((w.changeMode n .ready .moveFailed).notice .moveFailed n (putInt m.target ++ putInt x)).proceed es := by
  generalize hraised : (!s.level ⟨.moveFailed, n⟩) = raised
  generalize hset : (s.modStand n fun S => { S with moveFailed := true }) = w
  generalize hnoted : (if raised then w.condNotice ⟨.moveFailed, n⟩ else w) = u
  have hquiet : QuietFrame w u := by
    rw [← hnoted]
    split
    · exact State.condNotice_quiet _ _
    · exact .refl _
  generalize hv : (u.modStand n fun S =>
    { S with base := S.lastCommand, counters := { S.counters with movesFailed := bump S.counters.movesFailed } }) = v
  have hout : QuietFrame (s.modStand n Stand.timedOut) v := by
    have := hquiet.modStand n fun S =>
      { S with base := S.lastCommand, counters := { S.counters with movesFailed := bump S.counters.movesFailed } }
    rwa [← hset, State.modStand_modStand, hv] at this
  have hready := State.changeMode_settles h1 h8 (k := .ready) (by decide) .moveFailed v
  have hlast : ((v.changeMode n .ready .moveFailed).stand n).lastActual = some x := by
    have hcore := congrArg Stand.lastActual (hready.stands n)
    rw [show ((v.changeMode n .ready .moveFailed).stand n).lastActual = _ from hcore,
      State.stand_modStand_self h1 h8, hout.stand, State.stand_modStand_self h1 h8]
    exact hx
  generalize hy : (v.changeMode n .ready .moveFailed).notice .moveFailed n (putInt m.target ++ putInt x) = y
  have hrefs : y.refs ⟨.moveFailed, n⟩ = s.refs ⟨.moveFailed, n⟩ := by
    rw [← hy, State.refs_notice, hready.refs, State.refs_modStand, hout.refs, State.refs_modStand]
  refine ⟨v, if raised then y.refs ⟨.moveFailed, n⟩ else [], hout, fun href => by rw [hrefs, href, ite_self], ?_⟩
  have htimeout : s.moveTimeout n = if raised then y.proceed (y.refs ⟨.moveFailed, n⟩) else y := by
    unfold State.moveTimeout
    rw [hm]
    dsimp only
    rw [hraised, hset, hnoted, hv]
    unfold State.lastActualOf
    rw [hlast]
    dsimp only
    rw [hy]
  rw [htimeout, hy]
  cases raised <;> rfl

/-- Settles O37: the checks, the in-position run and the ramps; the base and the state that the timer leaves. -/
theorem movesEndInPositionOrByTime : Obligations.MovesEndInPositionOrByTime := by
  unfold Obligations.MovesEndInPositionOrByTime
  refine ⟨fun s p dest source f n m x c h hr hb hn hm hx hc hlo hhi href href' => ?status, fun s n => ⟨fun hm => ?still,
    fun m x hm hx => ?timeout⟩⟩
  case status =>
    obtain ⟨h1, h8, -, hport, -⟩ := State.standOf_spec hn
    have hramp := rampGap_of_reference (Stand.reference_of_lastCommand hc f.actual) m.target
    generalize hrun : (s.stand n).inPosition m f.actual = run
    by_cases h3 : run < 3
    · generalize hg : rampGap (s.stand n) m.target f.actual (s.stand n).record.moveStep = g
      obtain ⟨hcommand, hflags⟩ := hramp (s.stand n).record.moveStep
      rw [hg] at hcommand hflags
      generalize hv : (s.modPort p fun P => { P with
        burst := none, commandSlot := some ((s.stand n).gapCommand n x g.1 (flagsByte g.2)) }).modStand n (fun S =>
          ({ S.statusChecked f with mode := .moving { m with run := run } } : Stand).commanded g.1) = v
      obtain ⟨t, hexec, hquiet, hcopied⟩ := State.status_commands (dest := dest) (f := f) h hr hb hn hv.symm fun w hw => by
        rw [← hw.stand] at hm hx hport hrun hg ⊢
        exact State.handleStatus_moving h1 h8 hm hx hport hw.link ((hw.refs _).trans href) ((hw.refs _).trans href') hrun.symm h3 hg.symm
      refine ⟨t, run, hexec, hrun.symm, fun _ => ⟨v, _, _, (s.stand n).missed f, rfl, rfl, rfl, ?_, hquiet, hcopied⟩, fun h => by omega⟩
      rw [← hv, ← hcommand, ← hflags]
      refine State.modStand_congr ?_
      dsimp only
      rw [Stand.statusChecked_eq]
      rfl
    · generalize hg : rampGap (s.stand n) m.target f.actual (s.stand n).record.rateStep = g
      obtain ⟨hcommand, hflags⟩ := hramp (s.stand n).record.rateStep
      rw [hg] at hcommand hflags
      obtain ⟨t, hexec, hquiet⟩ := State.status_commands_quiet (dest := dest) (f := f)
          (g := some ((s.stand n).gapCommand n x g.1 (flagsByte g.2))) (A := fun S => (S.moved f m.target).commanded g.1)
          h hr hb hn rfl fun w hw => by
        rw [← hw.stand] at hm hx hport hrun hg hlo hhi ⊢
        exact State.handleStatus_moved h1 h8 hm hx hport hw.link hlo hhi ((hw.refs _).trans href) ((hw.refs _).trans href')
          (by omega) hg.symm
      refine ⟨t, run, hexec, hrun.symm, fun h => absurd h h3, fun _ => ⟨_, _, rfl, rfl, ?_⟩⟩
      rw [← hcommand, ← hflags]
      exact hquiet
  case still =>
    refine congrArg Host.Outcome.next ?_
    unfold State.moveTimeout
    split
    · rename_i m hm'
      exact absurd hm' (hm m)
    · rfl
  case timeout =>
    have h1 : 1 ≤ (n : Nat) + 1 := by omega
    have h8 : (n : Nat) + 1 ≤ 8 := by omega
    obtain ⟨w, es, hquiet, hes, htimeout⟩ := State.moveTimeout_eq h1 h8 hm hx
    refine ⟨_, congrArg Host.Outcome.next htimeout, ?_, fun href href' => ?_⟩
    · have hfailed := EventFrame.modStand (s.modStand (n + 1) fun S =>
        { S with mode := .ready, base := S.lastCommand,
                 counters := { S.counters with movesFailed := bump S.counters.movesFailed } }) (n + 1)
        (fun S => { S with moveFailed := true }) rfl (.of_mode rfl)
      have hready := (hquiet.modStand (n + 1) fun S => { S with mode := .ready }).event.trans
        (State.changeMode_settles h1 h8 (by decide) .moveFailed w)
      rw [State.modStand_modStand] at hfailed hready
      exact ((hfailed.trans hready).trans (State.notice_quiet _ _ _ _).event).trans (State.proceed_event _ _)
    · have hready := (hquiet.modStand (n + 1) fun S => { S with mode := .ready, followingRun := 0, following := false }).trans
        (State.changeMode_ready h1 h8 (by rw [hquiet.refs, State.refs_modStand]; exact href) .moveFailed)
      rw [State.modStand_modStand] at hready
      rw [hes href']
      exact hready.trans (State.notice_quiet _ _ _ _)

end Sys2Proof.Machine
end

section
/-! PROOFS. Requests on one stand: passes, the record, HOLD (R106, R107, R124, R140, R149, R150). -/

namespace Sys2Proof.Machine

variable {s t u v : State}

/-! ### A change of one stand beside events -/

/-- A change of one stand that events do not see: made on both sides of events, it leaves them events. -/
structure Stand.Aside (g : Stand → Stand) : Prop where
  core : ∀ S T : Stand, T.core = S.core → (g T).core = (g S).core
  mode : ∀ S : Stand, (g S).mode = S.mode

theorem Stand.heldAs.congr {S T S' T' : Stand} (h : S.heldAs T) (hS : S'.mode = S.mode) (hT : T'.mode = T.mode) : S'.heldAs T' := by
  unfold Stand.heldAs at *
  rw [hS, hT]
  exact h

theorem EventFrame.modStand_both (h : EventFrame s t) {g : Stand → Stand} (hg : Stand.Aside g) (n : Nat) :
    EventFrame (s.modStand n g) (t.modStand n g) := by
  by_cases hn : n = 0
  · subst hn; exact h
  · have hwrite : ∀ w : State, w.modStand n g = { w with stands := (w.modStand n g).stands } := fun w => by
      simp [State.modStand, hn]
    have hcore : ∀ m, ((t.modStand n g).stand m).core = ((s.modStand n g).stand m).core := fun m => by
      rw [State.stand_modStand, State.stand_modStand]
      split
      · exact hg.core _ _ (h.stands n)
      · exact h.stands m
    have hheld : ∀ m, ((s.modStand n g).stand m).heldAs ((t.modStand n g).stand m) := fun m => by
      rw [State.stand_modStand, State.stand_modStand]
      split
      · exact (h.held n).congr (hg.mode _) (hg.mode _)
      · exact h.held m
    rw [hwrite s, hwrite t] at hcore hheld ⊢
    exact { h with stands := hcore, held := hheld }

/-- `t` is `s` after events that have left every stand as it was. -/
structure StandsFrame (s t : State) : Prop where
  event : EventFrame s t
  stands : t.stands = s.stands

theorem StandsFrame.refl (s : State) : StandsFrame s s := ⟨.refl s, rfl⟩

theorem StandsFrame.trans (h : StandsFrame s t) (g : StandsFrame t u) : StandsFrame s u :=
  ⟨h.event.trans g.event, g.stands.trans h.stands⟩

theorem QuietFrame.stands (h : QuietFrame s t) : t.stands = s.stands := by rw [h.rest]

theorem QuietFrame.standsFrame (h : QuietFrame s t) : StandsFrame s t := ⟨h.event, h.stands⟩

theorem StandsFrame.stand (h : StandsFrame s t) (n : Nat) : t.stand n = s.stand n := State.stand_of_stands h.stands n

theorem StandsFrame.setModified (h : StandsFrame s t) (k : Nat) : StandsFrame (s.setModified k) (t.setModified k) :=
  ⟨h.event.setModified k, h.stands⟩

theorem State.stands_modStand_congr (h : t.stands = s.stands) (n : Nat) (g : Stand → Stand) :
    (t.modStand n g).stands = (s.modStand n g).stands := by
  have hstand : t.stand n = s.stand n := State.stand_of_stands h n
  unfold State.modStand
  split
  · exact h
  · dsimp only
    rw [hstand, h]

theorem StandsFrame.modStand (h : StandsFrame s t) {g : Stand → Stand} (hg : Stand.Aside g) (n : Nat) :
    StandsFrame (s.modStand n g) (t.modStand n g) :=
  ⟨h.event.modStand_both hg n, State.stands_modStand_congr h.stands n g⟩

/-- What may clear a condition is a change and then events (R155). -/
theorem State.lower_after (c : CondId) (f : State → State) (s : State) : StandsFrame (f s) (s.lower c f) := by
  refine ⟨?_, State.stands_lower c f s⟩
  unfold State.lower
  dsimp only
  split
  · exact State.cleared_event c _
  · exact .refl _

/-- A condition of a stand is cleared after events. -/
theorem StandsFrame.lower (h : StandsFrame s t) {g : Stand → Stand} (hg : Stand.Aside g) (c : CondId) (n : Nat) :
    StandsFrame (s.modStand n g) (t.lower c fun s => s.modStand n g) :=
  (h.modStand hg n).trans (State.lower_after c (fun s => s.modStand n g) t)

theorem Stand.Aside.moveFailed : Stand.Aside fun S => { S with moveFailed := false } := ⟨fun _ _ h => h, fun _ => rfl⟩

theorem Stand.Aside.following : Stand.Aside fun S => { S with following := false } := ⟨fun _ _ h => h, fun _ => rfl⟩

theorem Stand.Aside.hold : Stand.Aside fun S => { S with hold := false } :=
  ⟨fun _ _ h => congrArg (fun S : Stand => { S with hold := false }) h, fun _ => rfl⟩

theorem Stand.Aside.driveFault : Stand.Aside fun S => { S with driveFault := false } :=
  ⟨fun _ _ h => congrArg (fun S : Stand => { S with driveFault := false }) h, fun _ => rfl⟩

theorem Stand.Aside.scheduleMissing : Stand.Aside fun S => { S with scheduleMissing := false } :=
  ⟨fun _ _ h => congrArg (fun S : Stand => { S with scheduleMissing := false }) h, fun _ => rfl⟩

/-- A stand whose HOLD has ended (R149). -/
def Stand.released (S : Stand) : Stand :=
  { S with hold := false, holdTimer := if S.hold then none else S.holdTimer, sequence := if S.hold then none else S.sequence }

theorem Stand.Aside.released : Stand.Aside Stand.released where
  core S T h := by
    have := congrArg Stand.released h
    exact this
  mode _ := rfl

theorem Stand.Aside.error : Stand.Aside fun S => { S with error := none } :=
  ⟨fun _ _ h => congrArg (fun S : Stand => { S with error := none }) h, fun _ => rfl⟩

theorem Stand.released_clear {S : Stand} (h : S.hold = false) : S.released = S := by
  unfold Stand.released
  rw [h, ← h]
  obtain ⟨⟩ := S
  subst h
  rfl

/-- The end of a HOLD (R149). -/
theorem State.endHold_after (n : Nat) (cause : HoldCause) (s : State) :
    StandsFrame (s.modStand n Stand.released) (s.endHold n cause) := by
  unfold State.endHold
  by_cases hh : (s.stand n).hold = true
  · have hcleared : s.modStand n Stand.released = s.modStand n fun S => { S with hold := false, holdTimer := none, sequence := none } :=
      State.modStand_congr (by unfold Stand.released; rw [hh]; rfl)
    rw [if_pos hh, hcleared]
    exact (State.lower_after _ (fun s => s.modStand n fun S => { S with hold := false, holdTimer := none, sequence := none }) s).trans
      (State.notice_quiet _ _ _ _).standsFrame
  · rw [if_neg hh, State.modStand_self (Stand.released_clear (by simpa using hh))]
    exact .refl s

/-! ### A request and the stands -/

/-- The stands after a request are those that its owner leaves. -/
theorem State.stands_ask {a : Arrival} {r : Request} (hs : s.Hears a) : ∃ f tags, (s.ask a r).stands =
    (((s.taken a.port).hold f tags).carryOut s.net.nextId a r).1.stands := by
  refine ⟨manageFrame s.part.own a (requestCode r) (encodeRequest r), burstTags (s.port a.port).burst, ?_⟩
  rw [State.ask_eq a r s hs, State.serve_eq]
  generalize State.carryOut _ _ _ _ = y
  exact (State.reply_quiet a (requestCode r) y.2 y.1).stands

/-- A request whose owner leaves events behind that change no stand. -/
theorem State.ask_stands {a : Arrival} {r : Request} (hs : s.Hears a) (hv : v.net.nextId = s.net.nextId)
    (h : ∀ f tags, StandsFrame (v.hold f tags) (((s.taken a.port).hold f tags).carryOut s.net.nextId a r).1) :
    StandsFrame v (s.ask a r) := by
  obtain ⟨f, tags, hstands⟩ := State.stands_ask (r := r) hs
  exact ⟨State.ask_event a r s v hs (fun f tags => (h f tags).event) hv, hstands.trans (h f tags).stands⟩

theorem State.setModified_hold (k : Nat) (f : Frame) (tags : List BlockTag) (s : State) :
    (s.hold f tags).setModified k = (s.setModified k).hold f tags := rfl

theorem State.nextId_taken (p : Fin 12) (n : Nat) (A : Stand → Stand) (s : State) :
    ((s.taken p).modStand n A).net.nextId = s.net.nextId := by
  rw [State.nextId_modStand]
  rfl

/-! ### HOLD (R149, R150) -/

theorem standNumber_of {n : Nat} (h1 : 1 ≤ n) (h8 : n ≤ 8) : ¬ (!standNumber n) = true := by
  simp [standNumber_iff, h1, h8]

/-- A request that ends the HOLD of a stand in service (R150). -/
theorem reqClearHold_eq {n : Nat} (h1 : 1 ≤ n) (h8 : n ≤ 8) (hc : (s.stand n).record.configured = true) (ho : (s.stand n).mode ≠ .out) :
    reqClearHold n s = ((s.endHold n .clearHold).modStand n fun S => { S with error := none },
      .done (putBool (s.stand n).hold ++ putBool (s.stand n).error.isSome)) := by
  unfold reqClearHold
  dsimp only
  rw [if_neg (standNumber_of h1 h8), if_neg (by simpa [Stand.isOut] using ⟨hc, ho⟩)]

theorem State.clearHold_after {a : Arrival} {n : Nat} (hs : s.Hears a) (h1 : 1 ≤ n) (h8 : n ≤ 8)
    (hc : (s.stand n).record.configured = true) (ho : (s.stand n).mode ≠ .out) :
    StandsFrame ((s.taken a.port).modStand n fun S =>
      { S with hold := false, error := none, holdTimer := if S.hold then none else S.holdTimer,
               sequence := if S.hold then none else S.sequence }) (s.ask a (.clearHold n)) := by
  refine State.ask_stands hs (State.nextId_taken _ _ _ s) fun f tags => ?_
  have hend := (State.endHold_after n .clearHold ((s.taken a.port).hold f tags)).modStand .error n
  rw [State.modStand_modStand] at hend
  rw [← State.modStand_hold]
  refine (congrArg (StandsFrame _) (congrArg Prod.fst (reqClearHold_eq (s := (s.taken a.port).hold f tags) h1 h8 hc ho))).mpr ?_
  exact hend

/-- Settles O45: the end of a HOLD, and the error record that CLEAR HOLD empties. -/
theorem holdEndsByRequestOrByTime : Obligations.HoldEndsByRequestOrByTime := by
  unfold Obligations.HoldEndsByRequestOrByTime
  refine ⟨fun s a n hs h1 h8 hc ho => ⟨s.ask a (.clearHold n), _, rfl, rfl, ?_⟩, fun s n hn hh => ⟨_, _, rfl, rfl, ?_⟩⟩
  · have hask := State.clearHold_after hs h1 h8 hc ho
    exact ⟨hask.event, hask.stand n⟩
  · have hend := State.endHold_after (n + 1) .time s
    rw [State.modStand_congr (g := fun S => { S with hold := false, holdTimer := none, sequence := none })
      (by unfold Stand.released; rw [hh]; rfl)] at hend
    have hexpiry : s.holdExpiry (n + 1) = s.endHold (n + 1) .time := if_pos hn
    rw [hexpiry]
    exact ⟨hend.event, hend.stand _⟩
/-! ### Passes (R107, R124) -/

theorem reqSwitchPass_eq {n : Nat} {x : PassRecord} (h1 : 1 ≤ n) (h8 : n ≤ 8) (ho : (s.stand n).mode ≠ .out)
    (hx : (s.stand n).next = some x) : (reqSwitchPass n s).1 = (((s.modStand n fun S => S.takeNext x).lower ⟨.scheduleMissing, n⟩
      fun s => s.modStand n fun S => { S with scheduleMissing := false }).switchNotice n (passId (s.stand n).current) x.id 1
        none).setModified secStands := by
  unfold reqSwitchPass
  dsimp only
  rw [if_neg (standNumber_of h1 h8), hx]
  dsimp only
  rw [if_neg (by simpa [Stand.isOut] using ho)]

theorem reqLoadPassCurrent_eq {n : Nat} {x : PassRecord} (h1 : 1 ≤ n) (h8 : n ≤ 8) (hr : PassRecord.inRange (s.stand n).record x = true)
    (hc : (s.stand n).record.configured = true) (hm : (s.stand n).mode = .ready) : (reqLoadPassCurrent n x s).1 =
      (s.modStand n fun S => { S with current := some x, base := some x.preset, cfb := 0, cff := none, trim := 0 }).setModified
        secStands := by
  unfold reqLoadPassCurrent
  rw [if_neg (by simp [standNumber_iff, h1, h8, hr]), if_neg (by simp [hc, Stand.isReady, hm])]

theorem reqLoadPassNext_eq {n : Nat} {x : PassRecord} (h1 : 1 ≤ n) (h8 : n ≤ 8) (hr : PassRecord.inRange (s.stand n).record x = true)
    (hc : (s.stand n).record.configured = true) (ho : (s.stand n).mode ≠ .out) : (reqLoadPassNext n x s).1 =
      (s.modStand n fun S => { S with next := some x }).lower ⟨.scheduleMissing, n⟩ fun s =>
        s.modStand n fun S => { S with scheduleMissing := false } := by
  unfold reqLoadPassNext
  rw [if_neg (by simp [standNumber_iff, h1, h8, hr]), if_neg (by simpa [Stand.isOut] using ⟨hc, ho⟩)]

/-- Settles O41: each request's work on the stand, and SCHEDULE MISSING cleared. -/
theorem passRequestsReplaceThePass : Obligations.PassRequestsReplaceThePass := by
  unfold Obligations.PassRequestsReplaceThePass
  intro s a n x hs h1 h8 ho
  refine ⟨fun hx => ⟨_, _, rfl, rfl, ?switch⟩, fun hc hr hm => ⟨_, rfl, ?current⟩, fun hc hr => ⟨_, _, rfl, rfl, ?next⟩⟩
  case switch =>
    have hask := State.ask_stands (r := .switchPass n) (v := ((s.taken a.port).modStand n fun S =>
      { S with current := some x, next := none, base := some x.preset, cfb := 0, cff := none, trim := 0, scheduleMissing := false,
               counters := { S.counters with switches := bump S.counters.switches } }).setModified secStands) hs
        (State.nextId_taken _ _ _ s) fun f tags => by
      rw [← State.setModified_hold, ← State.modStand_hold]
      generalize hw : (s.taken a.port).hold f tags = w
      have hswitch := reqSwitchPass_eq (s := w) h1 h8 (by rw [← hw]; exact ho) (by rw [← hw]; exact hx)
      have hlower := (StandsFrame.refl (w.modStand n fun S => S.takeNext x)).lower .scheduleMissing ⟨.scheduleMissing, n⟩ n
      rw [State.modStand_modStand] at hlower
      refine (congrArg (StandsFrame _) hswitch).mpr ?_
      exact (hlower.trans (State.notice_quiet _ _ _ _).standsFrame).setModified secStands
    exact ⟨hask.event, hask.stand n⟩
  case current =>
    refine State.ask_quiet a (.loadPassCurrent n x) s _ hs (fun f tags => ?_) (State.nextId_taken _ _ _ s)
    rw [← State.setModified_hold, ← State.modStand_hold]
    generalize hw : (s.taken a.port).hold f tags = w
    refine (congrArg (QuietFrame _) (reqLoadPassCurrent_eq h1 h8 (by rw [← hw]; exact hr) (by rw [← hw]; exact hc)
      (by rw [← hw]; exact hm))).mpr (.refl _)
  case next =>
    have hask := State.ask_stands (r := .loadPassNext n x) (v := (s.taken a.port).modStand n fun S =>
      { S with next := some x, scheduleMissing := false }) hs (State.nextId_taken _ _ _ s) fun f tags => by
      rw [← State.modStand_hold]
      generalize hw : (s.taken a.port).hold f tags = w
      have hnext := reqLoadPassNext_eq (s := w) h1 h8 (by rw [← hw]; exact hr) (by rw [← hw]; exact hc) (by rw [← hw]; exact ho)
      have hlower := (StandsFrame.refl (w.modStand n fun S => { S with next := some x })).lower .scheduleMissing
        ⟨.scheduleMissing, n⟩ n
      rw [State.modStand_modStand] at hlower
      exact (congrArg (StandsFrame _) hnext).mpr hlower
    exact ⟨hask.event, hask.stand n⟩

/-! ### The record (R106, R140) -/

theorem Stand.loaded_eq (S : Stand) (r : StandRecord) (x : Option PassRecord) : S.loaded r x = { S with
    record := r
    current := match x with | some p => some p | none => S.current
    cfb := match x with | some p => max (-(p.corrLimit : Int)) (min p.corrLimit S.cfb) | none => S.cfb
    trim := match x with | some p => max (-(p.trimLimit : Int)) (min p.trimLimit S.trim) | none => S.trim } := by
  unfold Stand.loaded
  cases x with
  | none => rfl
  | some p => simp only [saturate_eq_max_min]

theorem State.standPorts_held (a : Arrival) (f : Frame) (tags : List BlockTag) (r : StandRecord) (s : State) :
    (s.held a f tags).standPorts r = s.standPorts r := by
  unfold State.standPorts Port.hasRole
  simp only [s.port_held a f tags Port.record fun _ => rfl]

theorem State.standFits_held (a : Arrival) (f : Frame) (tags : List BlockTag) (n : Nat) (r : StandRecord) (s : State) :
    (s.held a f tags).standFits n r = s.standFits n r := by
  unfold State.standFits
  rw [State.standPorts_held]
  rfl

theorem reqLoadStand_configured {n : Nat} {r : StandRecord} {x : Option PassRecord} (hr : s.standLoadRange n r x = true)
    (hm : (s.stand n).mode = .out) (hc : r.configured = true) (hf : s.standFits n r = true) :
    (reqLoadStand n r x s).1 = (s.modStand n fun S => S.loaded r x).setModified secStands := by
  unfold reqLoadStand
  rw [if_neg (by simp [hr]), if_neg (by simp [Stand.isOut, hm]), if_pos hc, if_pos hf]

theorem reqLoadStand_unconfigured {n : Nat} {r : StandRecord} {x : Option PassRecord} (hr : s.standLoadRange n r x = true)
    (hm : (s.stand n).mode = .out) (hc : r.configured = false) : (reqLoadStand n r x s).1 =
      ((s.modStand n fun S => { S with record := r, current := none, next := none }).clearStandConditions n).setModified
        secStands := by
  unfold reqLoadStand
  rw [if_neg (by simp [hr]), if_neg (by simp [Stand.isOut, hm]), if_neg (by simp [hc])]

/-- Each condition of a stand cleared (R106). -/
theorem State.clearStandConditions_after (n : Nat) (s : State) : StandsFrame (s.modStand n fun S =>
    { S with moveFailed := false, following := false, hold := false, driveFault := false, scheduleMissing := false })
      (s.clearStandConditions n) := by
  have hlower := (((((StandsFrame.refl s).lower .moveFailed ⟨.moveFailed, n⟩ n).lower .following ⟨.following, n⟩ n).lower .hold
    ⟨.hold, n⟩ n).lower .driveFault ⟨.driveFault, n⟩ n).lower .scheduleMissing ⟨.scheduleMissing, n⟩ n
  simp only [State.modStand_modStand] at hlower
  exact hlower

/-- Settles O42: the record and its pass, or the stand emptied and its conditions cleared. -/
theorem loadStandTakesTheRecord : Obligations.LoadStandTakesTheRecord := by
  unfold Obligations.LoadStandTakesTheRecord
  intro s a n r x hs h1 h8 hr hm
  refine ⟨fun hc hf => ⟨_, rfl, ?configured⟩, fun hc => ⟨_, _, rfl, rfl, ?unconfigured⟩⟩
  case configured =>
    refine State.ask_quiet a (.loadStand n r x) s _ hs (fun f tags => ?_) (State.nextId_taken _ _ _ s)
    rw [← State.setModified_hold, ← State.modStand_hold]
    generalize hw : (s.taken a.port).hold f tags = w
    have hload := reqLoadStand_configured (s := w) (by rw [← hw]; exact hr) (by rw [← hw]; exact hm) hc (by rw [← hw, State.standFits_held]; exact hf)
    simp only [Stand.loaded_eq] at hload
    exact (congrArg (QuietFrame _) hload).mpr (.refl _)
  case unconfigured =>
    have hask := State.ask_stands (r := .loadStand n r x) (v := ((s.taken a.port).modStand n fun S =>
      { S with record := r, current := none, next := none, moveFailed := false, following := false, hold := false,
               driveFault := false, scheduleMissing := false }).setModified secStands) hs (State.nextId_taken _ _ _ s) fun f tags => by
      rw [← State.setModified_hold, ← State.modStand_hold]
      generalize hw : (s.taken a.port).hold f tags = w
      have hload := reqLoadStand_unconfigured (s := w) (by rw [← hw]; exact hr) (by rw [← hw]; exact hm) hc
      have hclear := (State.clearStandConditions_after n (w.modStand n fun S =>
        { S with record := r, current := none, next := none })).setModified secStands
      rw [State.modStand_modStand] at hclear
      exact (congrArg (StandsFrame _) hload).mpr hclear
    exact ⟨hask.event, hask.stand n⟩


end Sys2Proof.Machine
end

section
/-! PROOFS. Admission and bypass of a stand (R109 to R111, R149, R166). -/

namespace Sys2Proof.Machine

variable {s t u v : State}

/-! ### A stand TRIPPED with a class no less severe than one (R160, R166) -/

/-- The stand is TRIPPED with class `c` or a more severe one. -/
def Stand.TrippedBy (c : Severity) (S : Stand) : Prop := ∃ T, S.mode = .tripped T ∧ severityRank c ≤ severityRank T.cls

theorem Stand.heldAs.trippedBy {S T : Stand} {c : Severity} (h : S.heldAs T) (hS : S.TrippedBy c) : T.TrippedBy c := by
  obtain ⟨a, ha, hc⟩ := hS
  rcases h with h | ⟨h, -⟩ | ⟨-, b, hb, hab⟩
  · exact ⟨a, h.trans ha, hc⟩
  · rw [ha] at h
    exact StandMode.noConfusion h
  · exact ⟨b, hb, le_trans hc (hab a ha)⟩

theorem Stand.tripOf_eq_some {S : Stand} {T : Trip} : S.tripOf = some T ↔ S.mode = .tripped T := by
  unfold Stand.tripOf
  cases S.mode <;> simp

theorem Stand.inService_iff {S : Stand} : S.inService = true ↔ S.record.configured = true ∧ S.mode ≠ .out := by
  unfold Stand.inService Stand.isOut
  simp

/-- A firing whose mask names a stand in service leaves it TRIPPED with its class or a more severe one (R160). -/
theorem State.fire_trippedBy {n : Nat} {mask : Byte} (e : Nat) (c : Severity) (cause : Cause) (h1 : 1 ≤ n) (h8 : n ≤ 8)
    (hm : inMask mask n = true) (hs : (s.stand n).inService = true) : ((s.fire e (some c) mask cause).stand n).TrippedBy c := by
  have htarget := (s.mem_targets mask n).2 ⟨⟨h1, h8⟩, hm, hs⟩
  have htrips := State.fire_trips e c mask cause s n
  by_cases hacted : n ∈ s.actedBy c mask
  · rw [if_pos hacted] at htrips
    exact ⟨_, Stand.tripOf_eq_some.1 htrips, le_refl _⟩
  · rw [if_neg hacted] at htrips
    have hno := fun h => hacted ((s.mem_actedBy c mask n).2 ⟨htarget, h⟩)
    cases htrip : (s.stand n).tripOf with
    | none => exact absurd (.inl htrip) hno
    | some T =>
      refine ⟨T, Stand.tripOf_eq_some.1 (htrips.trans htrip), ?_⟩
      by_contra hlt
      exact hno (.inr (by simpa [Stand.upgradable, htrip] using hlt))

/-- A stand is in service after events if it was before. -/
theorem EventFrame.inService (h : EventFrame s t) {n : Nat} (hs : (s.stand n).inService = true) : (t.stand n).inService = true := by
  have hrec : (t.stand n).record = (s.stand n).record := by
    have := congrArg Stand.record (h.stands n)
    exact this
  rw [Stand.inService, (h.held n).isOut, hrec]
  exact hs

/-! ### The actions of an admission (R166) -/

/-- The FIRED entries of a stop class that name the stand (R166). -/
def State.firedAt (s : State) (n : Nat) : List Nat := (List.range 64).filter fun e =>
  (s.entry e).record.cls.isSome && inMask (s.entry e).record.mask n && (s.entry e).state == .fired

theorem State.admissionActions_eq (n : Nat) (s : State) : s.admissionActions n = s.unmappedPanels.foldl
    (fun s p => s.panelAction p (maskOf n)) ((s.firedAt n).foldl
      (fun s e => s.fire e (s.entry e).record.cls (maskOf n) (.cond (s.entry e).record.cond)) s) := rfl

theorem State.admissionActions_none {n : Nat} (h : s.firedAt n = []) (hp : s.unmappedPanels = []) : s.admissionActions n = s := by
  rw [State.admissionActions_eq, h, hp]
  rfl

/-- A FIRED entry of a stop class that names the admitted stand trips it (R166). -/
theorem State.admissionActions_trips {n e : Nat} {c : Severity} (h1 : 1 ≤ n) (h8 : n ≤ 8) (hs : (s.stand n).inService = true)
    (he : e ∈ s.firedAt n) (hc : (s.entry e).record.cls = some c) : ((s.admissionActions n).stand n).TrippedBy c := by
  have hfold := fun (l : List Nat) (w : State) => EventFrame.foldl
    (fun s e => s.fire e (s.entry e).record.cls (maskOf n) (.cond (s.entry e).record.cond)) l
    (fun s e _ => State.fire_event _ _ _ _ s) w
  obtain ⟨l, r, hsplit⟩ := List.append_of_mem he
  have hself : inMask (maskOf n) n = true := by rw [inMask_maskOf n n h1 h8]; simp
  rw [State.admissionActions_eq, hsplit, List.foldl_append, List.foldl_cons]
  have hbefore := hfold l s
  generalize l.foldl (fun s e => s.fire e (s.entry e).record.cls (maskOf n) (.cond (s.entry e).record.cond)) s = w at hbefore
  have htrip := State.fire_trippedBy e c (.cond (w.entry e).record.cond) h1 h8 hself (hbefore.inService hs)
  rw [show (w.entry e).record.cls = some c by rw [hbefore.entries]; exact hc]
  have hafter := (hfold r (w.fire e (some c) (maskOf n) (.cond (w.entry e).record.cond))).trans
    (.foldl (fun s p => s.panelAction p (maskOf n)) s.unmappedPanels (fun s p _ => State.fire_event _ _ _ _ s) _)
  exact (hafter.held n).trippedBy htrip

/-! ### Admission (R110) -/

/-- A stand enters READY with FOLLOWING clear (R109). -/
theorem State.changeMode_ready_clear {n : Nat} (h1 : 1 ≤ n) (h8 : n ≤ 8) (hf : (s.stand n).following = false) (cause : StandCause) :
    QuietFrame (s.modStand n fun S => { S with mode := .ready, followingRun := 0, following := false })
      (s.changeMode n .ready cause) := by
  generalize hw : (s.modStand n fun S => { S with mode := .ready }).notice .standState n
    (put8 (standModeCode (s.stand n).mode) ++ put8 (standModeCode .ready) ++ put8 (standCauseCode cause)) = w
  have hquiet : QuietFrame (s.modStand n fun S => { S with mode := .ready }) w := by rw [← hw]; exact State.notice_quiet _ _ _ _
  have hstand : w.stand n = { s.stand n with mode := .ready } := by rw [hquiet.stand, State.stand_modStand_self h1 h8]
  have hsettle : s.changeMode n .ready cause = w.modStand n fun S => { S with followingRun := 0, following := false } := by
    unfold State.changeMode
    dsimp only
    rw [hw]
    unfold State.settleMode
    rw [hstand]
    have hlevel : w.level ⟨.following, n⟩ = false := by
      show (w.stand n).following = false
      rw [hstand]
      exact hf
    refine if_neg ?_
    rw [hlevel]
    simp
  rw [hsettle]
  have := hquiet.modStand n fun S => { S with followingRun := 0, following := false }
  rwa [State.modStand_modStand] at this

theorem reqAdmit_eq {n : Nat} {x : PassRecord} (h1 : 1 ≤ n) (h8 : n ≤ 8) (hm : (s.stand n).mode = .out)
    (hc : (s.stand n).record.configured = true) (hx : (s.stand n).current = some x)
    (hp : s.standPorts (s.stand n).record = true) : (reqAdmit n s).1 =
      ((s.modStand n fun S => S.admitted x).changeMode n .ready .admission).admissionActions n := by
  unfold reqAdmit
  dsimp only
  rw [if_neg (standNumber_of h1 h8), hx]
  dsimp only
  rw [if_neg (by simp [Stand.isOut, hm, hc, hp])]

theorem QuietFrame.firedAt (h : QuietFrame s t) (n : Nat) : t.firedAt n = s.firedAt n := by
  unfold State.firedAt
  simp only [h.entry]

theorem QuietFrame.unmappedPanels (h : QuietFrame s t) : t.unmappedPanels = s.unmappedPanels := by
  have hpanel : ∀ p, (t.port p).panel = (s.port p).panel := fun p => by
    have := congrArg Port.panel (h.net.ports p)
    exact this
  unfold State.unmappedPanels
  simp only [hpanel, h.refs]

theorem State.firedAt_modStand (m : Nat) (f : Stand → Stand) (n : Nat) (s : State) : (s.modStand m f).firedAt n = s.firedAt n := by
  unfold State.firedAt
  simp only [State.entry_modStand]

theorem State.unmappedPanels_modStand (m : Nat) (f : Stand → Stand) (s : State) :
    (s.modStand m f).unmappedPanels = s.unmappedPanels := by
  unfold State.unmappedPanels
  simp only [State.port_modStand, State.refs_modStand]

/-- A stand in READY by its admission (R110). -/
def Stand.readied (x : PassRecord) (S : Stand) : Stand :=
  { S.admitted x with mode := .ready, followingRun := 0, following := false }

/-- An admission, before the entries that are FIRED act on the stand (R110, R166). -/
theorem State.admit_after {n : Nat} {x : PassRecord} (h1 : 1 ≤ n) (h8 : n ≤ 8) (hm : (s.stand n).mode = .out)
    (hc : (s.stand n).record.configured = true) (hx : (s.stand n).current = some x)
    (hp : s.standPorts (s.stand n).record = true) (hf : (s.stand n).following = false) :
    ∃ w, QuietFrame (s.modStand n (Stand.readied x)) w ∧ (reqAdmit n s).1 = w.admissionActions n := by
  have hready := State.changeMode_ready_clear (s := s.modStand n fun S => S.admitted x) h1 h8
    (by rw [State.stand_modStand_self h1 h8]; exact hf) .admission
  rw [State.modStand_modStand] at hready
  exact ⟨_, hready, reqAdmit_eq h1 h8 hm hc hx hp⟩
theorem State.unmappedPanels_held (a : Arrival) (f : Frame) (tags : List BlockTag) (s : State) :
    (s.held a f tags).unmappedPanels = s.unmappedPanels := by
  unfold State.unmappedPanels
  simp only [s.port_held a f tags Port.panel fun _ => rfl]
  rfl

/-! ### Bypass (R111) -/

/-- A stand in OUT, its runs and the conditions of its state cleared (R109). -/
def Stand.putOut (S : Stand) : Stand :=
  { S with mode := .out, followingRun := 0, biteOnRun := 0, biteOffRun := 0, following := false, driveFault := false }

/-- A stand enters OUT (R109). -/
theorem State.changeMode_out {n : Nat} (h1 : 1 ≤ n) (h8 : n ≤ 8) (cause : StandCause) (s : State) :
    StandsFrame (s.modStand n Stand.putOut) (s.changeMode n .out cause) := by
  have hquiet := State.notice_quiet .standState n
    (put8 (standModeCode (s.stand n).mode) ++ put8 (standModeCode .out) ++ put8 (standCauseCode cause))
    (s.modStand n fun S => { S with mode := .out })
  have hmode := congrArg Stand.mode (hquiet.stand n)
  rw [State.stand_modStand_self h1 h8] at hmode
  have hruns : Stand.Aside fun S => { S with followingRun := 0, biteOnRun := 0, biteOffRun := 0, following := false } :=
    ⟨fun _ _ h => h, fun _ => rfl⟩
  have hlower := (hquiet.standsFrame.lower hruns ⟨.following, n⟩ n).lower .driveFault ⟨.driveFault, n⟩ n
  rw [State.modStand_modStand, State.modStand_modStand] at hlower
  unfold State.changeMode
  dsimp only
  unfold State.settleMode
  rw [hmode]
  exact hlower

theorem StandsFrame.slot (h : StandsFrame s t) (p : Nat) (g : Option GapCommand) :
    StandsFrame (s.modPort p fun P => { P with commandSlot := g }) (t.modPort p fun P => { P with commandSlot := g }) :=
  ⟨h.event.modPort_both (.slot g) p, h.stands⟩

theorem reqBypass_eq {n p : Nat} (h1 : 1 ≤ n) (h8 : n ≤ 8) (hm : (s.stand n).mode = .ready) (hp : (s.stand n).record.port = p) :
    (reqBypass n s).1 = (((s.changeMode n .out .bypass).modPort p fun P => { P with commandSlot := none }).lower ⟨.moveFailed, n⟩
      fun s => s.modStand n fun S => { S with moveFailed := false }).endHold n .bypass := by
  have hport : ((s.changeMode n .out .bypass).stand n).record.port = p := by
    rw [(State.changeMode_out h1 h8 .bypass s).stand, State.stand_modStand_self h1 h8]
    exact hp
  unfold reqBypass
  rw [if_neg (standNumber_of h1 h8), if_neg (by simp [Stand.isReady, hm])]
  dsimp only
  rw [hport]
  rfl

/-- A stand after a bypass (R111, R149). -/
def Stand.bypassed (S : Stand) : Stand :=
  { S with mode := .out, biteOnRun := 0, biteOffRun := 0, followingRun := 0, following := false, moveFailed := false,
           driveFault := false, hold := false, holdTimer := if S.hold then none else S.holdTimer,
           sequence := if S.hold then none else S.sequence }

theorem reqBypass_after {n p : Nat} (h1 : 1 ≤ n) (h8 : n ≤ 8) (hm : (s.stand n).mode = .ready) (hp : (s.stand n).record.port = p) :
    StandsFrame ((s.modPort p fun P => { P with commandSlot := none }).modStand n Stand.bypassed) (reqBypass n s).1 := by
  have hend := ((((State.changeMode_out h1 h8 .bypass s).slot p none).lower .moveFailed ⟨.moveFailed, n⟩ n).modStand .released n).trans
    (State.endHold_after n .bypass _)
  rw [State.modStand_modPort, State.modStand_modStand, State.modStand_modStand] at hend
  rw [reqBypass_eq h1 h8 hm hp]
  exact hend

/-! ### Ports that events and replies leave alone -/

theorem State.port_cleared (c : CondId) (s : State) (q : Nat) : ((s.cleared c).port q).unqueued = (s.port q).unqueued := by
  have hfold : ∀ (l : List Nat) (w : State),
      (l.foldl (fun s e => s.modEntry e fun t => { t with state := .idle }) w).net = w.net := fun l => by
    induction l with
    | nil => exact fun _ => rfl
    | cons e l ih => exact fun w => ih _
  unfold State.cleared
  have hquiet := (State.condNotice_quiet c s).net.ports q
  rw [State.port, hfold]
  exact hquiet

theorem State.port_lower (c : CondId) (f : State → State) (s : State) (q : Nat) :
    ((s.lower c f).port q).unqueued = ((f s).port q).unqueued := by
  unfold State.lower
  dsimp only
  split
  · exact State.port_cleared c _ q
  · rfl

theorem State.port_endHold (n : Nat) (cause : HoldCause) (s : State) (q : Nat) :
    ((s.endHold n cause).port q).unqueued = (s.port q).unqueued := by
  unfold State.endHold
  split
  · exact ((State.notice_quiet _ _ _ _).net.ports q).trans ((State.port_lower _ _ s q).trans (by rw [State.port_modStand]))
  · rfl

/-- The ports after a request are those that its owner leaves, but for the reply queued. -/
theorem State.ports_ask {a : Arrival} {r : Request} (hs : s.Hears a) : ∃ f tags, ∀ q, ((s.ask a r).port q).unqueued =
    ((((s.taken a.port).hold f tags).carryOut s.net.nextId a r).1.port q).unqueued := by
  refine ⟨manageFrame s.part.own a (requestCode r) (encodeRequest r), burstTags (s.port a.port).burst, fun q => ?_⟩
  rw [State.ask_eq a r s hs, State.serve_eq]
  generalize State.carryOut _ _ _ _ = y
  exact (State.reply_quiet a (requestCode r) y.2 y.1).net.ports q

theorem reqBypass_slot {n p : Nat} (h1 : 1 ≤ n) (h8 : n ≤ 8) (hm : (s.stand n).mode = .ready) (hp : (s.stand n).record.port = p) :
    ((reqBypass n s).1.port p).commandSlot = none := by
  have hport := (State.port_endHold n .bypass (((s.changeMode n .out .bypass).modPort p fun P =>
    { P with commandSlot := none }).lower ⟨.moveFailed, n⟩ fun s => s.modStand n fun S => { S with moveFailed := false }) p).trans
    (State.port_lower _ _ _ p)
  rw [reqBypass_eq h1 h8 hm hp]
  have := congrArg Port.commandSlot hport
  refine Eq.trans this ?_
  rw [State.port_modStand, Port.unqueued, State.port_modPort]
  by_cases h12 : p < 12
  · rw [if_pos ⟨rfl, h12⟩]
  · rw [if_neg fun h => h12 h.2, State.port_outside _ h12]
    rfl

/-- Settles O40: the admission and what then acts on the stand; the bypass and its port. -/
theorem admitAndBypassMoveTheStand : Obligations.AdmitAndBypassMoveTheStand := by
  unfold Obligations.AdmitAndBypassMoveTheStand
  refine ⟨fun s a n x hs h1 h8 hm hc hx hp hf => ⟨_, rfl, ?event, fun hnone hpanels => ?quiet, fun e c he hst hcls hmask => ?trips⟩,
    fun s a n hs h1 h8 hm => ⟨_, rfl, ?bypass⟩⟩
  case bypass =>
    have hcarry : ∀ (f : Frame) (tags : List BlockTag), (((s.taken a.port).hold f tags).carryOut s.net.nextId a (.bypass n)).1 =
      (reqBypass n ((s.taken a.port).hold f tags)).1 := fun _ _ => rfl
    have hask := State.ask_stands (r := .bypass n) (v := ((s.taken a.port).modPort (s.stand n).record.port fun P =>
      { P with commandSlot := none }).modStand n Stand.bypassed) hs (by rw [State.nextId_modStand]; rfl) fun f tags => by
      rw [← State.modStand_hold, hcarry]
      exact reqBypass_after (s := (s.taken a.port).hold f tags) h1 h8 hm rfl
    refine ⟨?_, ?_, ?_⟩
    · refine EventFrame.trans ?_ hask.event
      have := EventFrame.modStand (((s.taken a.port).modPort (s.stand n).record.port fun P => { P with commandSlot := none }).modStand n
        fun S => { S with mode := .out, driveFault := false, hold := false, holdTimer := if S.hold then none else S.holdTimer,
                          sequence := if S.hold then none else S.sequence }) n (fun S =>
          { S with biteOnRun := 0, biteOffRun := 0, followingRun := 0, following := false, moveFailed := false }) rfl (.of_mode rfl)
      rwa [State.modStand_modStand] at this
    · rw [hask.stand, State.stand_modStand_self h1 h8]
      rfl
    · obtain ⟨f, tags, hports⟩ := State.ports_ask (r := .bypass n) hs
      have hslot := congrArg Port.commandSlot (hports (s.stand n).record.port)
      refine Eq.trans hslot ?_
      rw [hcarry]
      exact reqBypass_slot (s := (s.taken a.port).hold f tags) h1 h8 hm rfl
  all_goals
    have hadmit := fun (f : Frame) (tags : List BlockTag) => State.admit_after (s := (s.taken a.port).hold f tags) h1 h8 hm hc hx
      ((State.standPorts_held a f tags _ s).trans hp) hf
    have hcarry : ∀ (f : Frame) (tags : List BlockTag), (((s.taken a.port).hold f tags).carryOut s.net.nextId a (.admitStand n)).1 =
      (reqAdmit n ((s.taken a.port).hold f tags)).1 := fun _ _ => rfl
  case event =>
    refine State.ask_event a (.admitStand n) s _ hs (fun f tags => ?_) (State.nextId_taken _ _ _ s)
    obtain ⟨w, hquiet, hreq⟩ := hadmit f tags
    rw [← State.modStand_hold, hcarry, hreq]
    have hrest := EventFrame.modStand (((s.taken a.port).hold f tags).modStand n fun S =>
      { S with mode := .ready, base := some x.preset, cfb := 0, trim := 0, sequence := none }) n (fun S =>
        { S with cff := none, estimate := none, biteOnRun := 0, followingRun := 0, following := false }) rfl (.of_mode rfl)
    rw [State.modStand_modStand] at hrest
    exact (hrest.trans hquiet.event).trans (State.admissionActions_event n w)
  case quiet =>
    obtain ⟨f, tags, hstands⟩ := State.stands_ask (r := .admitStand n) hs
    obtain ⟨w, hquiet, hreq⟩ := hadmit f tags
    have hfired : w.firedAt n = [] := by
      rw [hquiet.firedAt, State.firedAt_modStand]
      refine List.filter_eq_nil_iff.2 fun e he hno => ?_
      simp only [Bool.and_eq_true, beq_iff_eq] at hno
      obtain ⟨⟨hcls, hmask⟩, hst⟩ := hno
      rcases hnone e (List.mem_range.1 he) hst with h | h
      · exact Bool.noConfusion ((congrArg Option.isSome h).symm.trans hcls)
      · exact Bool.noConfusion (h.symm.trans hmask)
    have hmapped : w.unmappedPanels = [] := by
      rw [hquiet.unmappedPanels, State.unmappedPanels_modStand, ← hpanels]
      exact State.unmappedPanels_held a f tags s
    rw [State.stand_of_stands hstands, hcarry, hreq, State.admissionActions_none hfired hmapped, hquiet.stand,
      State.stand_modStand_self h1 h8]
    show (s.stand n).readied x = _
    unfold Stand.readied Stand.admitted
    rw [← hf]
  case trips =>
    obtain ⟨f, tags, hstands⟩ := State.stands_ask (r := .admitStand n) hs
    obtain ⟨w, hquiet, hreq⟩ := hadmit f tags
    have hservice : (w.stand n).inService = true := by
      rw [hquiet.stand, State.stand_modStand_self h1 h8, Stand.inService_iff]
      exact ⟨hc, fun h => StandMode.noConfusion h⟩
    have hfired : e ∈ w.firedAt n := by
      rw [hquiet.firedAt, State.firedAt_modStand]
      refine List.mem_filter.2 ⟨List.mem_range.2 he, ?_⟩
      show ((s.entry e).record.cls.isSome && inMask (s.entry e).record.mask n && (s.entry e).state == .fired) = true
      simp [hst, hcls, hmask]
    have hentry : (w.entry e).record.cls = some c := by rw [hquiet.entry, State.entry_modStand]; exact hcls
    rw [State.stand_of_stands hstands, hcarry, hreq]
    exact State.admissionActions_trips h1 h8 hservice hfired hentry

end Sys2Proof.Machine
end

section
/-! PROOFS. Setpoints at their stand (R118, R142 to R148). -/

namespace Sys2Proof.Machine

variable {s t u v : State}

/-! ### The sequence (R144) -/

theorem judgeSequence_passed {q : Option Byte} {x : Byte} (h : q = none ∨ q = some x) : judgeSequence q x = (some (x + 1), .passed) := by
  rcases h with rfl | rfl
  · rfl
  · exact if_pos rfl

theorem byte_succ_ne (x : Byte) : x ≠ x + 1 := fun h => by
  have := congrArg BitVec.toNat h
  rw [BitVec.toNat_add] at this
  have hlt := x.isLt
  simp at this
  omega

theorem judgeSequence_duplicate {q : Option Byte} {x : Byte} (h : q = some (x + 1)) : judgeSequence q x = (q, .duplicate) := by
  subst h
  exact (if_neg (byte_succ_ne x)).trans (if_pos rfl)

theorem judgeSequence_error {q : Option Byte} {e x : Byte} (h : q = some e) (h' : x ≠ e) (h'' : x + 1 ≠ e) :
    judgeSequence q x = (none, .error e) := by
  subst h
  exact (if_neg h').trans (if_neg h'')

/-! ### What a stand makes of a setpoint (R142, R147) -/

theorem Stand.refusal_isSome {S : Stand} {k : SetpointKind} :
    (∃ c, S.refusal k = some c) ↔ S.isTripped = true ∨ S.hold = true ∨ S.isMoving = true ∨ (k = .move ∧ S.mode ≠ .ready) := by
  have hready : S.isReady = false ↔ S.mode ≠ .ready := by simp [Stand.isReady]
  unfold Stand.refusal
  cases S.isTripped
  · cases S.hold
    · cases S.isMoving
      · by_cases hk : k = .move <;> cases hr : S.isReady <;> simp_all
      · simp
    · simp
  · simp

theorem Stand.refusal_none {S : Stand} {k : SetpointKind} (hh : S.hold = false) (hm : S.mode = .ready ∨ (k ≠ .move ∧ S.mode = .rolling)) :
    S.refusal k = none := by
  by_contra hsome
  obtain ⟨c, hc⟩ := Option.ne_none_iff_exists'.1 hsome
  have := Stand.refusal_isSome.1 ⟨c, hc⟩
  rcases hm with hm | ⟨hk, hm⟩ <;> simp_all [Stand.isTripped, Stand.tripOf, Stand.isMoving]

section
variable {n : Nat} {f : SetpointFields} {k : SetpointKind}

theorem State.takeSetpoint_ignored (hn : n = f.stand + 1) (h : (s.stand n).inService = false) : s.takeSetpoint f =
    s.modStand n fun S => { S with setpoints := { S.setpoints with ignored := bump S.setpoints.ignored } } := by
  subst hn
  exact if_pos (by rw [h]; rfl)

theorem State.takeSetpoint_held (hn : n = f.stand + 1) (h : (s.stand n).inService = true) (hh : (s.stand n).hold = true) :
    s.takeSetpoint f = s.applySetpoint n f := by
  subst hn
  exact (if_neg (by rw [h]; decide)).trans (if_pos hh)

section
variable (hn : n = f.stand + 1) (h : (s.stand n).inService = true) (hh : (s.stand n).hold = false)
include hn h hh

theorem State.takeSetpoint_passed {q : Option Byte} (hj : judgeSequence (s.stand n).sequence f.sequence = (q, .passed)) :
    s.takeSetpoint f = (s.modStand n fun S => { S with sequence := q }).applySetpoint n f := by
  subst hn
  unfold State.takeSetpoint
  dsimp only
  rw [if_neg (by rw [h]; decide), if_neg (by rw [hh]; decide), hj]

theorem State.takeSetpoint_duplicate {q : Option Byte} (hj : judgeSequence (s.stand n).sequence f.sequence = (q, .duplicate)) :
    s.takeSetpoint f = s.countSetpoint n fun c => { c with duplicates := bump c.duplicates } := by
  subst hn
  unfold State.takeSetpoint
  dsimp only
  rw [if_neg (by rw [h]; decide), if_neg (by rw [hh]; decide), hj]

theorem State.takeSetpoint_error {q : Option Byte} {e : Byte}
    (hj : judgeSequence (s.stand n).sequence f.sequence = (q, .error e)) : s.takeSetpoint f = s.sequenceError n f e := by
  subst hn
  unfold State.takeSetpoint
  dsimp only
  rw [if_neg (by rw [h]; decide), if_neg (by rw [hh]; decide), hj]

end

theorem State.applySetpoint_accepted (h : (s.stand n).refusal f.kind = none) : s.applySetpoint n f = s.acceptSetpoint n f.kind f.value := by
  unfold State.applySetpoint
  rw [h]

theorem State.applySetpoint_refused {c : RefusalCause} (h : (s.stand n).refusal f.kind = some c) : QuietFrame (s.modStand n fun S =>
    { S with setpoints := { S.setpoints with refused := bump S.setpoints.refused } }) (s.applySetpoint n f) := by
  unfold State.applySetpoint
  rw [h]
  exact State.notice_quiet _ _ _ _

/-- A stand that has accepted a setpoint (R148, R154). -/
def Stand.accepting (S : Stand) : Stand := { S with setpoints := { S.setpoints with accepted := bump S.setpoints.accepted } }

theorem State.acceptSetpoint_preset (x : Int) : s.acceptSetpoint n .preset x = s.modStand n fun S =>
    { S.accepting with base := some (clampTo (s.stand n).record.limLo (s.stand n).record.limHi x) } :=
  State.modStand_modStand n Stand.accepting (fun S =>
    { S with base := some (clampTo (s.stand n).record.limLo (s.stand n).record.limHi x) }) s

theorem State.acceptSetpoint_trim {b : Int} (h1 : 1 ≤ n) (h8 : n ≤ 8) (hb : (s.stand n).base = some b) (x : Int) :
    s.acceptSetpoint n .trim x = s.modStand n fun S =>
      { S.accepting with base := some (clampTo (s.stand n).record.limLo (s.stand n).record.limHi (b + x)) } := by
  have hbase : (s.modStand n Stand.accepting).baseOf n = (s.modStand n Stand.accepting, b) := by
    unfold State.baseOf
    rw [State.stand_modStand_self h1 h8, show (s.stand n).accepting.base = some b from hb]
  refine Eq.trans ?_ (State.modStand_modStand n Stand.accepting (fun S =>
    { S with base := some (clampTo (s.stand n).record.limLo (s.stand n).record.limHi (b + x)) }) s)
  exact congrArg (fun r : State × Int => r.1.modStand n fun S =>
    { S with base := some (clampTo (s.stand n).record.limLo (s.stand n).record.limHi (r.2 + x)) }) hbase

/-- A stand enters MOVING, which has no effects of its own (R109). -/
theorem State.changeMode_moving (h1 : 1 ≤ n) (h8 : n ≤ 8) (m : Move) (cause : StandCause) (s : State) :
    QuietFrame (s.modStand n fun S => { S with mode := .moving m }) (s.changeMode n (.moving m) cause) := by
  have hquiet := State.notice_quiet .standState n
    (put8 (standModeCode (s.stand n).mode) ++ put8 (standModeCode (.moving m)) ++ put8 (standCauseCode cause))
    (s.modStand n fun S => { S with mode := .moving m })
  have hmode := congrArg Stand.mode (hquiet.stand n)
  rw [State.stand_modStand_self h1 h8] at hmode
  unfold State.changeMode
  dsimp only
  unfold State.settleMode
  rw [hmode]
  exact hquiet

/-- A stand whose positioning move has started (R118). -/
def Stand.starting (x : Int) (S : Stand) : Stand :=
  { S.accepting with mode := .moving ⟨clampTo S.record.limLo S.record.limHi x, S.record.moveTime, 0⟩, moveFailed := false }

theorem State.acceptSetpoint_move (h1 : 1 ≤ n) (h8 : n ≤ 8) (x : Int) :
    StandsFrame (s.modStand n (Stand.starting x)) (s.acceptSetpoint n .move x) ∧
      ((s.stand n).moveFailed = false → QuietFrame (s.modStand n (Stand.starting x)) (s.acceptSetpoint n .move x)) := by
  generalize hw : s.modStand n Stand.accepting = w
  have hself : w.stand n = (s.stand n).accepting := by rw [← hw]; exact State.stand_modStand_self h1 h8 _ s
  have hmoving := State.changeMode_moving h1 h8
    ⟨clampTo (w.stand n).record.limLo (w.stand n).record.limHi x, (w.stand n).record.moveTime, 0⟩ .moveStart w
  have hstart : s.modStand n (Stand.starting x) = (w.modStand n fun S => { S with
      mode := .moving ⟨clampTo (w.stand n).record.limLo (w.stand n).record.limHi x, (w.stand n).record.moveTime, 0⟩ }).modStand n
        fun S => { S with moveFailed := false } := by
    rw [hself, ← hw, State.modStand_modStand, State.modStand_modStand]
    exact State.modStand_congr rfl
  have haccept : s.acceptSetpoint n .move x = w.startMove n x := by rw [← hw]; rfl
  rw [hstart, haccept]
  refine ⟨hmoving.standsFrame.lower .moveFailed ⟨.moveFailed, n⟩ n, fun hf => ?_⟩
  unfold State.startMove
  dsimp only
  generalize w.changeMode n _ _ = y at hmoving
  have hlevel : y.level ⟨.moveFailed, n⟩ = false := by
    show (y.stand n).moveFailed = false
    rw [hmoving.stand, State.stand_modStand_self h1 h8, hself]
    exact hf
  rw [show y.lower ⟨.moveFailed, n⟩ (fun s => s.modStand n fun S => { S with moveFailed := false }) =
    y.modStand n fun S => { S with moveFailed := false } from if_neg (by rw [hlevel]; simp)]
  exact hmoving.modStand n _

end
/-! ### Sequence errors (R145, R146) -/

section
variable {n : Nat} {f : SetpointFields}

/-- A stand that a sequence error has left unsynchronized (R145, R146). -/
def Stand.unsynchronized (err : ErrorRecord) (S : Stand) : Stand :=
  { S with sequence := none, error := some err, setpoints := { S.setpoints with errors := bump S.setpoints.errors } }

/-- The record of an error beside the one that the stand holds (R146). -/
def Stand.errorWith (S : Stand) (e : ErrorRecord) : ErrorRecord :=
  match S.error with | none => e | some old => { old with multiple := true }

theorem Stand.errorWith_empty {S : Stand} (h : S.error = none) (e : ErrorRecord) : S.errorWith e = e := by
  unfold Stand.errorWith
  rw [h]

theorem Stand.errorWith_full {S : Stand} {old : ErrorRecord} (h : S.error = some old) (e : ErrorRecord) :
    S.errorWith e = { old with multiple := true } := by
  unfold Stand.errorWith
  rw [h]

theorem Stand.writeError_eq (S : Stand) (e : ErrorRecord) : S.writeError e = { S with error := some (S.errorWith e) } := by
  unfold Stand.writeError Stand.errorWith
  cases S.error <;> rfl

theorem Stand.held_eq (S : Stand) : S.held =
    { S with hold := true, holdTimer := if S.record.holdMode = .persistent then some S.record.holdTime else S.holdTimer } := by
  unfold Stand.held
  cases S.record.holdMode <;> rfl

/-- A sequence error at a stand, whose HOLD is clear (R145). -/
theorem State.sequenceError_after {e : Byte} (h1 : 1 ≤ n) (h8 : n ≤ 8) :
    EventFrame (s.modStand n fun S => if S.isTripped then
        S.unsynchronized (S.errorWith ⟨n, e, f.sequence, f.kind, f.value, s.time, false, false⟩)
      else (S.unsynchronized (S.errorWith ⟨n, e, f.sequence, f.kind, f.value, s.time, false, false⟩)).held)
      (s.sequenceError n f e) := by
  generalize herr : (s.stand n).errorWith ⟨n, e, f.sequence, f.kind, f.value, s.time, false, false⟩ = err
  have hmarked : ((s.modStand n fun S => { S with sequence := none }).countSetpoint n fun c => { c with errors := bump c.errors }).modStand
      n (fun S => S.writeError ⟨n, e, f.sequence, f.kind, f.value,
        ((s.modStand n fun S => { S with sequence := none }).countSetpoint n fun c => { c with errors := bump c.errors }).time,
        false, false⟩) = s.modStand n (Stand.unsynchronized err) := by
    unfold State.countSetpoint
    rw [State.time_modStand, State.time_modStand, State.modStand_modStand, State.modStand_modStand]
    refine State.modStand_congr ?_
    rw [Stand.writeError_eq, ← herr]
    rfl
  have htrip : ((s.modStand n (Stand.unsynchronized err)).stand n).isTripped = (s.stand n).isTripped := by
    rw [State.stand_modStand_self h1 h8]
    rfl
  unfold State.sequenceError
  dsimp only
  rw [hmarked, htrip]
  cases ht : (s.stand n).isTripped with
  | true =>
    rw [State.modStand_congr (g := Stand.unsynchronized err) (by rw [if_pos ht, herr])]
    exact (State.notice_quiet _ _ _ _).event
  | false =>
    rw [State.modStand_congr (g := fun S => (S.unsynchronized err).held) (by rw [if_neg (by rw [ht]; decide), herr])]
    have hhold := State.event_event ⟨.hold, n⟩ (fun s => s.modStand n Stand.held) (s.modStand n (Stand.unsynchronized err))
    rw [State.modStand_modStand] at hhold
    exact hhold.trans (State.notice_quiet _ _ _ _).event

end

theorem QuietFrame.drop (h : QuietFrame s t) (p : Nat) : QuietFrame (s.drop p) (t.drop p) :=
  h.modPort .drop (fun _ _ hu => congrArg (fun P : Port => { P with burst := none }) hu) p

theorem StandsFrame.drop (h : StandsFrame s t) (p : Nat) : StandsFrame (s.drop p) (t.drop p) := ⟨h.event.drop p, h.stands⟩

theorem State.drop_modStand (p n : Nat) (A : Stand → Stand) (s : State) :
    (s.modStand n A).drop p = (s.modPort p fun P => { P with burst := none }).modStand n A := State.modStand_modPort n p A _ s

/-- Settles O43: the stand's own checks, then the sequence, then what the setpoint does. -/
theorem setpointsAreAcceptedOrSorted : Obligations.SetpointsAreAcceptedOrSorted := by
  unfold Obligations.SetpointsAreAcceptedOrSorted
  intro s v p source f n S h hr hn hS hv
  subst hS hv
  have h1 : 1 ≤ n := by omega
  have h8 : n ≤ 8 := by omega
  have hexec : exec (.setpoint ⟨p, source⟩ f) s = .next ((s.takeSetpoint f).drop p) := congrArg Host.Outcome.next (h.consume hr _)
  rw [hexec]
  refine ⟨fun hc hh hm hq hlim => ?accepted, fun hout => ?ignored, fun hc ho hh hq => ?duplicate, fun hc ho hq href => ?refused,
    fun x hc ho hh hq hx hx' => ?error⟩
  case accepted =>
    have hservice : (s.stand n).inService = true := Stand.inService_iff.2 ⟨hc, by rcases hm with hm | hm <;> rw [hm] <;> decide⟩
    have htake := State.takeSetpoint_passed hn hservice hh (judgeSequence_passed hq)
    generalize hw : (s.modStand n fun S => { S with sequence := some (f.sequence + 1) }) = w at htake
    have hself : w.stand n = { s.stand n with sequence := some (f.sequence + 1) } := by
      rw [← hw]; exact State.stand_modStand_self h1 h8 _ s
    have happly : (f.kind = .move → (s.stand n).mode = .ready) → s.takeSetpoint f = w.acceptSetpoint n f.kind f.value := fun hk => by
      rw [htake, State.applySetpoint_accepted]
      refine Stand.refusal_none (by rw [hself]; exact hh) ?_
      rw [hself]
      rcases hm with hm | hm
      · exact .inl hm
      · exact .inr ⟨fun hmove => by rw [hk hmove] at hm; exact StandMode.noConfusion hm, hm⟩
    refine ⟨fun hk => ?_, fun b hk hb => ?_, fun hk hready => ⟨_, _, rfl, rfl, ?_⟩⟩
    · rw [happly (by rw [hk]; exact fun h => SetpointKind.noConfusion h), hk, State.acceptSetpoint_preset, hself, ← hw,
        State.modStand_modStand, clampTo_eq_max_min hlim, State.drop_modStand]
      refine congrArg Host.Outcome.next (State.modStand_congr rfl)
    · rw [happly (by rw [hk]; exact fun h => SetpointKind.noConfusion h), hk,
        State.acceptSetpoint_trim h1 h8 (b := b) (by rw [hself]; exact hb), hself, ← hw,
        State.modStand_modStand, clampTo_eq_max_min hlim, State.drop_modStand]
      refine congrArg Host.Outcome.next (State.modStand_congr rfl)
    · have hmove := (State.acceptSetpoint_move (s := w) h1 h8 f.value).1.drop p
      rw [← hk, ← happly fun _ => hready, ← hw, State.modStand_modStand, State.drop_modStand] at hmove
      have hgoal : ((s.modPort p fun P => { P with burst := none }).modStand n fun S =>
          { S with mode := .moving ⟨max S.record.limLo (min S.record.limHi f.value), S.record.moveTime, 0⟩,
                   sequence := some (f.sequence + 1), moveFailed := false,
                   setpoints := { S.setpoints with accepted := bump S.setpoints.accepted } }) =
          (s.modPort p fun P => { P with burst := none }).modStand n fun S =>
            ({ S with sequence := some (f.sequence + 1) } : Stand).starting f.value := by
        refine State.modStand_congr ?_
        rw [show (s.modPort p fun P => { P with burst := none }).stand n = s.stand n from rfl, ← clampTo_eq_max_min hlim]
        rfl
      rw [hgoal]
      exact ⟨hmove.event, hmove.stand n⟩
  case ignored =>
    have hservice : (s.stand n).inService = false := by
      rw [Bool.eq_false_iff, ne_eq, Stand.inService_iff]
      rcases hout with hout | hout <;> simp [hout]
    rw [State.takeSetpoint_ignored hn hservice, State.drop_modStand]
  case duplicate =>
    rw [State.takeSetpoint_duplicate hn (Stand.inService_iff.2 ⟨hc, ho⟩) hh (judgeSequence_duplicate hq)]
    exact congrArg Host.Outcome.next (State.drop_modStand p n _ s)
  case refused =>
    have hservice := Stand.inService_iff.2 ⟨hc, ho⟩
    obtain ⟨c, hcause⟩ := Stand.refusal_isSome.2 href
    refine ⟨_, rfl, ?_⟩
    have hread : (s.modPort p fun P => { P with burst := none }).stand n = s.stand n := rfl
    cases hh : (s.stand n).hold with
    | true =>
      have hrefused := (State.applySetpoint_refused hcause).drop p
      rw [State.drop_modStand, ← State.takeSetpoint_held hn hservice hh] at hrefused
      refine (State.modStand_congr ?_ : _ = (s.modPort p fun P => { P with burst := none }).modStand n fun S =>
        { S with setpoints := { S.setpoints with refused := bump S.setpoints.refused } }) ▸ hrefused
      rw [hread, if_pos hh]
    | false =>
      have hpassed : (s.stand n).sequence = none ∨ (s.stand n).sequence = some f.sequence := by
        rcases hq with hq | hq | hq
        · rw [hh] at hq; exact Bool.noConfusion hq
        · exact .inl hq
        · exact .inr hq
      have htake := State.takeSetpoint_passed hn hservice hh (judgeSequence_passed hpassed)
      have hrefused := (State.applySetpoint_refused (s := s.modStand n fun S => { S with sequence := some (f.sequence + 1) })
        (c := c) (f := f) (n := n) (by rw [State.stand_modStand_self h1 h8]; exact hcause)).drop p
      rw [State.modStand_modStand, State.drop_modStand, ← htake] at hrefused
      refine (State.modStand_congr ?_ : _ = (s.modPort p fun P => { P with burst := none }).modStand n fun S =>
        { S with sequence := some (f.sequence + 1),
                 setpoints := { S.setpoints with refused := bump S.setpoints.refused } }) ▸ hrefused
      rw [hread, if_neg (by rw [hh]; decide)]
  case error =>
    have htake := State.takeSetpoint_error hn (Stand.inService_iff.2 ⟨hc, ho⟩) hh (judgeSequence_error hq hx hx')
    have herror := (State.sequenceError_after (s := s) (f := f) (e := x) h1 h8).drop p
    rw [← htake, State.drop_modStand] at herror
    refine ⟨_, (s.stand n).errorWith ⟨n, x, f.sequence, f.kind, f.value, s.time, false, false⟩, rfl,
      fun h => Stand.errorWith_empty h _, fun old h => Stand.errorWith_full h _, ?_⟩
    refine (State.modStand_congr ?_ : _ = (s.modPort p fun P => { P with burst := none }).modStand n fun S => if S.isTripped then
        S.unsynchronized (S.errorWith ⟨n, x, f.sequence, f.kind, f.value, s.time, false, false⟩)
      else (S.unsynchronized (S.errorWith ⟨n, x, f.sequence, f.kind, f.value, s.time, false, false⟩)).held) ▸ herror
    rw [show (s.modPort p fun P => { P with burst := none }).stand n = s.stand n from rfl]
    cases ht : (s.stand n).isTripped with
    | true =>
      rw [if_pos rfl, if_neg fun h => Bool.noConfusion h.1]
      show _ = (s.stand n).unsynchronized _
      unfold Stand.unsynchronized
      rw [hh]
      rfl
    | false =>
      simp only [Bool.false_eq_true, if_false, true_and]
      rw [Stand.held_eq]
      rfl


end Sys2Proof.Machine
end

section
/-! PROOFS. Group frames at their masked stands (R151 to R153). -/

namespace Sys2Proof.Machine

variable {s t u v : State}

/-! ### Stands written one after another -/

/-- The stands of a list written, each by a function of its own. -/
def State.writeStands (g : Nat → Stand → Stand) (l : List Nat) (s : State) : State := l.foldl (fun s n => s.modStand n (g n)) s

theorem State.writeStands_rest (g : Nat → Stand → Stand) (l : List Nat) (s : State) :
    s.writeStands g l = { s with stands := (s.writeStands g l).stands } := by
  induction l generalizing s with
  | nil => rfl
  | cons n l ih =>
    have hfirst : s.modStand n (g n) = { s with stands := (s.modStand n (g n)).stands } := by
      unfold State.modStand
      split <;> rfl
    show (s.modStand n (g n)).writeStands g l = { s with stands := ((s.modStand n (g n)).writeStands g l).stands }
    rw [ih (s.modStand n (g n)), hfirst]

theorem State.stand_writeStands {g : Nat → Stand → Stand} {l : List Nat} (hl : l.Nodup) (hv : ∀ n ∈ l, 1 ≤ n ∧ n ≤ 8) (s : State)
    (m : Nat) : (s.writeStands g l).stand m = if m ∈ l then g m (s.stand m) else s.stand m := by
  induction l generalizing s with
  | nil => rfl
  | cons n l ih =>
    obtain ⟨hn, hl⟩ := List.nodup_cons.1 hl
    obtain ⟨h1, h8⟩ := hv n List.mem_cons_self
    refine (ih hl (fun k hk => hv k (List.mem_cons_of_mem n hk)) (s.modStand n (g n))).trans ?_
    by_cases hm : m = n
    · subst hm
      rw [if_neg hn, if_pos List.mem_cons_self, State.stand_modStand_self h1 h8]
    · rw [State.stand_modStand_other (Ne.symm hm)]
      simp [hm]

theorem maskedStands_nodup (mask : Byte) : (maskedStands mask).Nodup := standNumbers_nodup.filter _

theorem mem_maskedStands {mask : Byte} {n : Nat} : n ∈ maskedStands mask ↔ (1 ≤ n ∧ n ≤ 8) ∧ inMask mask n = true := by
  unfold maskedStands
  rw [List.mem_filter, standNumbers_valid]

/-! ### A passed frame at its stands (R153) -/

/-- What a passed GROUP frame makes of one masked stand (R147, R148, R153). -/
def Stand.grouped (f : GroupFields) (S : Stand) : Stand :=
  if S.inService = false then { S with setpoints := { S.setpoints with ignored := bump S.setpoints.ignored } }
  else if (S.refusal (groupSetpoint f.kind)).isSome then { S with setpoints := { S.setpoints with refused := bump S.setpoints.refused } }
  else match f.kind with
    | .trim => { S.accepting with base := some (clampTo S.record.limLo S.record.limHi (S.base.getD 0 + f.value)) }
    | .move => S.starting f.value

section
variable {n : Nat} {f : GroupFields}

/-- The stand has a base, unless it is not in service, and its MOVE FAILED is clear. -/
def Stand.takesGroup (S : Stand) : Prop := S.moveFailed = false ∧ (S.inService = true → S.base ≠ none)

theorem State.groupApplyAt_quiet (h1 : 1 ≤ n) (h8 : n ≤ 8) (ht : (s.stand n).takesGroup) :
    QuietFrame (s.modStand n (Stand.grouped f)) (s.groupApplyAt f n).1 := by
  unfold State.groupApplyAt
  cases hs : (s.stand n).inService with
  | false =>
    rw [State.modStand_congr (f := Stand.grouped f)
      (g := fun S => { S with setpoints := { S.setpoints with ignored := bump S.setpoints.ignored } }) (if_pos hs)]
    exact .refl _
  | true =>
    rw [if_neg (by decide)]
    cases hr : (s.stand n).refusal (groupSetpoint f.kind) with
    | some c =>
      rw [State.modStand_congr (f := Stand.grouped f)
        (g := fun S => { S with setpoints := { S.setpoints with refused := bump S.setpoints.refused } })
        ((if_neg (by rw [hs]; decide)).trans (if_pos (by rw [hr]; rfl)))]
      exact .refl _
    | none =>
      have hgrouped : (s.stand n).grouped f = match f.kind with
          | .trim => { (s.stand n).accepting with
              base := some (clampTo (s.stand n).record.limLo (s.stand n).record.limHi ((s.stand n).base.getD 0 + f.value)) }
          | .move => (s.stand n).starting f.value :=
        (if_neg (by rw [hs]; decide)).trans (if_neg (by rw [hr]; decide))
      obtain ⟨hf, hb⟩ := ht
      cases hk : f.kind with
      | trim =>
        obtain ⟨b, hb⟩ := Option.ne_none_iff_exists'.1 (hb hs)
        rw [hk, hb] at hgrouped
        rw [State.modStand_congr (f := Stand.grouped f) (g := fun S =>
          { S.accepting with base := some (clampTo (s.stand n).record.limLo (s.stand n).record.limHi (b + f.value)) }) hgrouped]
        rw [← State.acceptSetpoint_trim h1 h8 hb]
        exact .refl _
      | move =>
        rw [hk] at hgrouped
        rw [State.modStand_congr (f := Stand.grouped f) (g := Stand.starting f.value) hgrouped]
        exact (State.acceptSetpoint_move h1 h8 f.value).2 hf

theorem QuietFrame.writeStands (h : QuietFrame s t) (g : Nat → Stand → Stand) (l : List Nat) :
    QuietFrame (s.writeStands g l) (t.writeStands g l) := by
  induction l generalizing s t with
  | nil => exact h
  | cons n l ih => exact ih (h.modStand n (g n))

theorem State.groupApply_quiet {l : List Nat} (hl : l.Nodup) (hv : ∀ n ∈ l, 1 ≤ n ∧ n ≤ 8) (s : State)
    (ht : ∀ n ∈ l, (s.stand n).takesGroup) : QuietFrame (s.writeStands (fun _ => Stand.grouped f) l) (s.groupApply f l).1 := by
  induction l generalizing s with
  | nil => exact .refl s
  | cons n l ih =>
    obtain ⟨hn, hl⟩ := List.nodup_cons.1 hl
    obtain ⟨h1, h8⟩ := hv n List.mem_cons_self
    have hfirst := State.groupApplyAt_quiet (f := f) h1 h8 (ht n List.mem_cons_self)
    have hrest := ih hl (fun k hk => hv k (List.mem_cons_of_mem n hk)) (s.groupApplyAt f n).1 fun k hk => by
      rw [hfirst.stand, State.stand_modStand_other fun h : n = k => hn (h ▸ hk)]
      exact ht k (List.mem_cons_of_mem n hk)
    exact (hfirst.writeStands (fun _ => Stand.grouped f) l).trans hrest

theorem State.groupRefusedNotice_quiet (l : List (Nat × RefusalCause)) (s : State) : QuietFrame s (s.groupRefusedNotice f l) := by
  unfold State.groupRefusedNotice
  split
  · exact .refl s
  · exact State.notice_quiet _ _ _ _

/-! ### A group sequence error at its stands (R152) -/

theorem State.groupMarked_eq (e : Byte) (l : List Nat) (s : State) :
    s.groupMarked f e l = s.writeStands (Stand.groupError f e s.time) l := by
  unfold State.groupMarked
  generalize ht : s.time = time
  induction l generalizing s with
  | nil => rfl
  | cons n l ih =>
    refine Eq.trans ?_ (ih (s.modStand n (Stand.groupError f e time n)) ((State.time_modStand _ n _).trans ht))
    rw [List.foldl_cons, ht]

theorem Stand.groupError_ignored {S : Stand} (h : S.inService = false) (e : Byte) (time : Quad) (n : Nat) :
    S.groupError f e time n = { S with setpoints := { S.setpoints with ignored := bump S.setpoints.ignored } } := by
  unfold Stand.groupError
  rw [h]
  rfl

theorem Stand.groupError_marked {S : Stand} (h : S.inService = true) (e : Byte) (time : Quad) (n : Nat) :
    S.groupError f e time n = { S with
      error := some (S.errorWith ⟨n, e, f.sequence, groupSetpoint f.kind, f.value, time, true, false⟩)
      hold := if S.isTripped then S.hold else true
      holdTimer := if S.isTripped = false ∧ S.record.holdMode = .persistent then some S.record.holdTime else S.holdTimer
      setpoints := { S.setpoints with errors := bump S.setpoints.errors } } := by
  generalize herr : S.errorWith ⟨n, e, f.sequence, groupSetpoint f.kind, f.value, time, true, false⟩ = err
  have hmarked : ({ S with setpoints := { S.setpoints with errors := bump S.setpoints.errors } } : Stand).writeError
      ⟨n, e, f.sequence, groupSetpoint f.kind, f.value, time, true, false⟩ =
      { S with error := some err, setpoints := { S.setpoints with errors := bump S.setpoints.errors } } := by
    rw [Stand.writeError_eq, ← herr]
    rfl
  unfold Stand.groupError
  dsimp only
  rw [if_neg (by rw [h]; decide), hmarked, Stand.held_eq,
    show ({ S with error := some err, setpoints := { S.setpoints with errors := bump S.setpoints.errors } } : Stand).isTripped =
      S.isTripped from rfl]
  cases S.isTripped <;> simp

theorem State.groupHolds_event (e : Byte) (before : State) (l : List Nat) (s : State) : EventFrame s (State.groupHolds f e before l s) := by
  unfold State.groupHolds
  exact .foldl _ _ (fun s n _ => (State.changed_event _ _ s).trans (State.notice_quiet _ _ _ _).event) s

theorem State.groupHolds_quiet (e : Byte) (before : State) (l : List Nat) (s : State) (h : ∀ n, s.refs ⟨.hold, n⟩ = []) :
    QuietFrame s (State.groupHolds f e before l s) := by
  unfold State.groupHolds
  generalize l.filter _ = ns
  induction ns generalizing s with
  | nil => exact .refl s
  | cons n ns ih =>
    have hfirst : QuietFrame s ((s.changed ⟨.hold, n⟩ (before.stand n).hold).holdNotice n true .groupSequence e f.sequence) := by
      rw [State.changed_unreferenced (h n) CondKind.noConfusion]
      exact State.notice_quiet _ _ _ _
    exact hfirst.trans (ih _ fun k => (hfirst.refs _).trans (h k))

end

theorem State.refs_writeStands (g : Nat → Stand → Stand) (l : List Nat) (s : State) (c : CondId) :
    (s.writeStands g l).refs c = s.refs c := by
  rw [State.writeStands_rest]
  rfl

theorem Stand.grouped_ignored {S : Stand} {f : GroupFields} (h : S.inService = false) :
    S.grouped f = { S with setpoints := { S.setpoints with ignored := bump S.setpoints.ignored } } := if_pos h

theorem Stand.grouped_refused {S : Stand} {f : GroupFields} (h : S.inService = true)
    (hr : ∃ c, S.refusal (groupSetpoint f.kind) = some c) :
    S.grouped f = { S with setpoints := { S.setpoints with refused := bump S.setpoints.refused } } := by
  obtain ⟨c, hr⟩ := hr
  exact (if_neg (by rw [h]; decide)).trans (if_pos (by rw [hr]; rfl))

theorem Stand.grouped_move {S : Stand} {f : GroupFields} (h : S.inService = true) (hr : S.refusal (groupSetpoint f.kind) = none)
    (hk : f.kind = .move) : S.grouped f = S.starting f.value := by
  refine ((if_neg (by rw [h]; decide)).trans (if_neg (by rw [hr]; decide))).trans ?_
  rw [hk]

theorem Stand.grouped_trim {S : Stand} {f : GroupFields} (h : S.inService = true) (hr : S.refusal (groupSetpoint f.kind) = none)
    (hk : f.kind = .trim) :
    S.grouped f = { S.accepting with base := some (clampTo S.record.limLo S.record.limHi (S.base.getD 0 + f.value)) } := by
  refine ((if_neg (by rw [h]; decide)).trans (if_neg (by rw [hr]; decide))).trans ?_
  rw [hk]

theorem groupSetpoint_move {k : GroupKind} : groupSetpoint k = .move ↔ k = .move := by cases k <;> decide

theorem Stand.inService_false_iff {S : Stand} : S.inService = false ↔ S.record.configured = false ∨ S.mode = .out := by
  rw [← Bool.not_eq_true, Stand.inService_iff, not_and_or, not_not, Bool.not_eq_true]

theorem all_unconfigured_iff {mask : Byte} : ((maskedStands mask).all fun n => !(s.stand n).record.configured) = true ↔
    ∀ n, 1 ≤ n → n ≤ 8 → inMask mask n = true → (s.stand n).record.configured = false := by
  rw [List.all_eq_true]
  constructor
  · intro h n h1 h8 hm
    simpa using h n (mem_maskedStands.2 ⟨⟨h1, h8⟩, hm⟩)
  · intro h n hn
    obtain ⟨⟨h1, h8⟩, hm⟩ := mem_maskedStands.1 hn
    rw [h n h1 h8 hm]
    rfl

theorem State.takeGroup_none {p : Nat} {f : GroupFields}
    (h : ∀ n, 1 ≤ n → n ≤ 8 → inMask f.mask n = true → (s.stand n).record.configured = false) :
    s.takeGroup p f = { s with net := s.net.count p .malformed } := if_pos (all_unconfigured_iff.2 h)

section
variable {p : Nat} {f : GroupFields} (hsome : ∃ n, 1 ≤ n ∧ n ≤ 8 ∧ inMask f.mask n = true ∧ (s.stand n).record.configured = true)
include hsome

theorem not_all_unconfigured : ¬ ((maskedStands f.mask).all fun n => !(s.stand n).record.configured) = true := fun h => by
  obtain ⟨n, h1, h8, hm, hc⟩ := hsome
  rw [all_unconfigured_iff.1 h n h1 h8 hm] at hc
  exact Bool.noConfusion hc

theorem State.takeGroup_duplicate {q : Option Byte} (h : judgeSequence s.group.sequence f.sequence = (q, .duplicate)) :
    s.takeGroup p f = { s with group := { s.group with duplicates := bump s.group.duplicates } } := by
  unfold State.takeGroup
  dsimp only
  rw [if_neg (not_all_unconfigured hsome), h]

theorem State.takeGroup_passed {q : Option Byte} (h : judgeSequence s.group.sequence f.sequence = (q, .passed)) (w : State)
    (hw : w = { s with group := { s.group with sequence := q, accepted := bump s.group.accepted } }) :
    s.takeGroup p f = (w.groupApply f (maskedStands f.mask)).1.groupRefusedNotice f (w.groupApply f (maskedStands f.mask)).2 := by
  unfold State.takeGroup
  dsimp only
  rw [if_neg (not_all_unconfigured hsome), h, hw]

theorem State.takeGroup_error {q : Option Byte} {e : Byte} (h : judgeSequence s.group.sequence f.sequence = (q, .error e)) :
    s.takeGroup p f = { s with group := { s.group with sequence := q, errors := bump s.group.errors } }.groupErrors f e
      (maskedStands f.mask) := by
  unfold State.takeGroup
  dsimp only
  rw [if_neg (not_all_unconfigured hsome), h]

end

/-- Settles O44: the mask, then the group's own sequence, then the masked stands one by one. -/
theorem groupFrameActsStandByStand : Obligations.GroupFrameActsStandByStand := by
  unfold Obligations.GroupFrameActsStandByStand
  intro s w p source f h hr hw
  have hexec : exec (.group ⟨p, source⟩ f) s = .next ((s.takeGroup p f).drop p) := congrArg Host.Outcome.next (h.consume hr _)
  have hlist : ∀ n ∈ maskedStands f.mask, 1 ≤ n ∧ n ≤ 8 := fun n hn => (mem_maskedStands.1 hn).1
  have hmember : ∀ n, 1 ≤ n → n ≤ 8 → (n ∈ maskedStands f.mask ↔ inMask f.mask n = true) := fun n h1 h8 =>
    ⟨fun hn => (mem_maskedStands.1 hn).2, fun hm => mem_maskedStands.2 ⟨⟨h1, h8⟩, hm⟩⟩
  refine ⟨fun hnone => ?_, fun hsome => ⟨fun hq => ?_, fun hq hstands => ?_, fun x hx hne hne' => ?_⟩⟩
  case refine_1 =>
    rw [hexec, State.takeGroup_none hnone, hw, State.modPort_modPort]
    exact congrArg Host.Outcome.next (State.modPort_modPort s p _ fun P => { P with burst := none })
  case refine_2 =>
    rw [hexec, State.takeGroup_duplicate hsome (judgeSequence_duplicate hq), hw]
    rfl
  case refine_3 =>
    generalize hg : ({ s with group := { s.group with sequence := some (f.sequence + 1), accepted := bump s.group.accepted } } :
      State) = g
    have hread : ∀ n, g.stand n = s.stand n := fun n => by rw [← hg]; rfl
    have htakes : ∀ n ∈ maskedStands f.mask, (g.stand n).takesGroup := fun n hn => by
      obtain ⟨h1, h8⟩ := hlist n hn
      obtain ⟨-, hfailed, hbase⟩ := hstands n h1 h8
      rw [hread]
      exact ⟨hfailed, fun hservice hnone => (Stand.inService_iff.1 hservice).2 (hbase hnone)⟩
    have hquiet := ((State.groupApply_quiet (f := f) (maskedStands_nodup f.mask) hlist g htakes).trans
      (State.groupRefusedNotice_quiet (f := f) (g.groupApply f (maskedStands f.mask)).2 _)).drop p
    rw [← State.takeGroup_passed hsome (judgeSequence_passed hq) g hg.symm] at hquiet
    generalize (s.takeGroup p f).drop p = t at hexec hquiet
    have hts : t.stands = (g.writeStands (fun _ => Stand.grouped f) (maskedStands f.mask)).stands := by rw [hquiet.rest]; rfl
    have hstand : ∀ n, t.stand n = if n ∈ maskedStands f.mask then (s.stand n).grouped f else s.stand n := fun n => by
      rw [hquiet.stand, ← hread]
      exact State.stand_writeStands (maskedStands_nodup f.mask) hlist g n
    refine ⟨t, hexec, ?_, fun n h1 h8 => ⟨_, rfl, fun hm => ?_, fun hm => ?_⟩⟩
    · rw [State.writeStands_rest, ← hts, ← hg] at hquiet
      rw [hw]
      exact hquiet
    · rw [hstand, if_neg fun hn => by rw [(hmember n h1 h8).1 hn] at hm; exact Bool.noConfusion hm]
    · rw [hstand, if_pos ((hmember n h1 h8).2 hm)]
      obtain ⟨hlim, hfailed, -⟩ := hstands n h1 h8
      refine ⟨fun hout => Stand.grouped_ignored (Stand.inService_false_iff.2 hout), fun hc ho => ?_⟩
      have hservice := Stand.inService_iff.2 ⟨hc, ho⟩
      refine ⟨fun href => Stand.grouped_refused hservice (Stand.refusal_isSome.2 ?_), fun hready hhold => ?_⟩
      · rw [groupSetpoint_move]
        exact href
      · have hnone : (s.stand n).refusal (groupSetpoint f.kind) = none := by
          refine Stand.refusal_none hhold (hready.imp_right fun ⟨hk, hmode⟩ => ⟨fun hmove => ?_, hmode⟩)
          rw [groupSetpoint_move.1 hmove] at hk
          exact GroupKind.noConfusion hk
        refine ⟨fun hk => ?_, fun b hk hb => ?_⟩
        · rw [Stand.grouped_move hservice hnone hk, ← clampTo_eq_max_min hlim, hfailed]
          rfl
        · rw [Stand.grouped_trim hservice hnone hk, ← clampTo_eq_max_min hlim, hb]
          rfl
  case refine_4 =>
    generalize hg : ({ s with group := { s.group with sequence := none, errors := bump s.group.errors } } : State) = g
    have hread : ∀ n, g.stand n = s.stand n := fun n => by rw [← hg]; rfl
    have htime : g.time = s.time := by rw [← hg]
    have hrefs : ∀ c, g.refs c = s.refs c := fun c => by rw [← hg]; rfl
    generalize hv : (g.groupMarked f x (maskedStands f.mask)).drop p = v
    have hmarked : g.groupMarked f x (maskedStands f.mask) = _ := State.groupMarked_eq x (maskedStands f.mask) g
    have htake : s.takeGroup p f = g.groupErrors f x (maskedStands f.mask) := by
      rw [← hg]
      exact State.takeGroup_error hsome (judgeSequence_error hx hne hne')
    have hevent : EventFrame (g.groupMarked f x (maskedStands f.mask)) (s.takeGroup p f) := by
      rw [htake]
      exact (State.groupHolds_event x g _ _).trans (State.groupRefusedNotice_quiet _ _).event
    have hquiet : (∀ n, s.refs ⟨.hold, n⟩ = []) → QuietFrame (g.groupMarked f x (maskedStands f.mask)) (s.takeGroup p f) := by
      intro hn
      rw [htake]
      refine (State.groupHolds_quiet x g _ _ fun n => ?_).trans (State.groupRefusedNotice_quiet _ _)
      rw [hmarked, State.refs_writeStands, hrefs]
      exact hn n
    have hstand : ∀ n, v.stand n = if n ∈ maskedStands f.mask then (s.stand n).groupError f x s.time n else s.stand n := fun n => by
      rw [← hv, hmarked, ← hread, ← htime]
      exact State.stand_writeStands (maskedStands_nodup f.mask) hlist g n
    refine ⟨_, v, hexec, ?_, hv ▸ hevent.drop p, fun hn => hv ▸ (hquiet hn).drop p, fun n h1 h8 =>
      ⟨s.stand n, (s.stand n).errorWith ⟨n, x, f.sequence, groupSetpoint f.kind, f.value, s.time, true, false⟩, rfl,
        fun hempty => Stand.errorWith_empty hempty _, fun old hold => Stand.errorWith_full hold _, fun hm => ?_,
        fun hm => ⟨fun hout => ?_, fun hc ho => ?_⟩⟩⟩
    · rw [hw, ← hv, hmarked, State.writeStands_rest, ← hg]
      rfl
    · rw [hstand, if_neg fun hn => by rw [(hmember n h1 h8).1 hn] at hm; exact Bool.noConfusion hm]
    · rw [hstand, if_pos ((hmember n h1 h8).2 hm)]
      exact Stand.groupError_ignored (Stand.inService_false_iff.2 hout) _ _ _
    · rw [hstand, if_pos ((hmember n h1 h8).2 hm)]
      exact Stand.groupError_marked (Stand.inService_iff.2 ⟨hc, ho⟩) _ _ _

end Sys2Proof.Machine
end

section
/-! PROOFS. Firings of a stop class: commands, flushes, orders and the log record (R120, R160, R161, R163, R168). -/

namespace Sys2Proof.Machine

variable {s t u v : State}

/-! ### What acting on the stands of a list leaves alone -/

/-- No log record has been made and no firing counted, and no stand has taken another record or pass; a command has changed at
the stands of `l` and in the command slots of their ports alone. -/
structure CommandFrame (l : List Nat) (s t : State) : Prop where
  log : t.trip.log = s.trip.log
  nextRecord : t.trip.nextRecord = s.trip.nextRecord
  firings : t.trip.firings = s.trip.firings
  evicted : t.trip.evicted = s.trip.evicted
  records : ∀ n, (t.stand n).record = (s.stand n).record
  passes : ∀ n, (t.stand n).current = (s.stand n).current
  links : ∀ q, (t.port q).link = (s.port q).link
  commands : ∀ n, n ∉ l → (t.stand n).lastCommand = (s.stand n).lastCommand
  slots : ∀ q, (∀ n ∈ l, (s.stand n).record.port ≠ q) → (t.port q).commandSlot = (s.port q).commandSlot

section
variable {l l' : List Nat}

theorem CommandFrame.refl (l : List Nat) (s : State) : CommandFrame l s s :=
  ⟨rfl, rfl, rfl, rfl, fun _ => rfl, fun _ => rfl, fun _ => rfl, fun _ _ => rfl, fun _ _ => rfl⟩

theorem CommandFrame.trans (h : CommandFrame l s t) (g : CommandFrame l t u) : CommandFrame l s u where
  log := g.log.trans h.log
  nextRecord := g.nextRecord.trans h.nextRecord
  firings := g.firings.trans h.firings
  evicted := g.evicted.trans h.evicted
  records n := (g.records n).trans (h.records n)
  passes n := (g.passes n).trans (h.passes n)
  links q := (g.links q).trans (h.links q)
  commands n hn := (g.commands n hn).trans (h.commands n hn)
  slots q hq := (g.slots q fun n hn => by rw [h.records]; exact hq n hn).trans (h.slots q hq)

theorem CommandFrame.mono (h : CommandFrame l s t) (hl : l ⊆ l') : CommandFrame l' s t :=
  { h with commands := fun n hn => h.commands n fun hm => hn (hl hm), slots := fun q hq => h.slots q fun n hn => hq n (hl hn) }

theorem CommandFrame.foldl {α : Type} {g : State → α → State} {as : List α} (h : ∀ s, ∀ a ∈ as, CommandFrame l s (g s a)) (s : State) :
    CommandFrame l s (as.foldl g s) := by
  induction as generalizing s with
  | nil => exact .refl l s
  | cons a as ih =>
    exact (h s a List.mem_cons_self).trans (ih (fun s b hb => h s b (List.mem_cons_of_mem a hb)) (g s a))

theorem CommandFrame.modStand {f : Stand → Stand} (hf : ∀ S : Stand, (f S).record = S.record ∧ (f S).current = S.current ∧
    (f S).lastCommand = S.lastCommand) (n : Nat) (s : State) : CommandFrame [] s (s.modStand n f) where
  log := congrArg TripUnit.log (State.trip_modStand s n f)
  nextRecord := congrArg TripUnit.nextRecord (State.trip_modStand s n f)
  firings := congrArg TripUnit.firings (State.trip_modStand s n f)
  evicted := congrArg TripUnit.evicted (State.trip_modStand s n f)
  records m := State.stand_modStand_keep Stand.record s n m f fun S => (hf S).1
  passes m := State.stand_modStand_keep Stand.current s n m f fun S => (hf S).2.1
  links _ := by rw [State.port, State.port, State.net_modStand]
  commands m _ := State.stand_modStand_keep Stand.lastCommand s n m f fun S => (hf S).2.2
  slots _ _ := by rw [State.port, State.port, State.net_modStand]

end

theorem CommandFrame.modPort {f : Port → Port} (hf : ∀ P : Port, (f P).link = P.link ∧ (f P).commandSlot = P.commandSlot) (p : Nat)
    (s : State) : CommandFrame [] s (s.modPort p f) where
  log := rfl
  nextRecord := rfl
  firings := rfl
  evicted := rfl
  records _ := rfl
  passes _ := rfl
  links q := State.port_modPort_keep Port.link s p q f fun P => (hf P).1
  commands _ _ := rfl
  slots q _ := State.port_modPort_keep Port.commandSlot s p q f fun P => (hf P).2

theorem QuietFrame.commands (h : QuietFrame s t) : CommandFrame [] s t where
  log := by rw [h.rest]
  nextRecord := by rw [h.rest]
  firings := by rw [h.rest]
  evicted := by rw [h.rest]
  records n := by rw [h.stand]
  passes n := by rw [h.stand]
  links q := h.net.port Port.link (fun _ => rfl) q
  commands n _ := by rw [h.stand]
  slots q _ := h.net.port Port.commandSlot (fun _ => rfl) q

theorem State.notice_commands (k : NoticeKind) (x : Nat) (b : List Byte) (s : State) : CommandFrame [] s (s.notice k x b) :=
  (State.notice_quiet k x b s).commands

theorem CommandFrame.modEntry (e : Nat) (f : TripEntry → TripEntry) (s : State) : CommandFrame [] s (s.modEntry e f) :=
  ⟨rfl, rfl, rfl, rfl, fun _ => rfl, fun _ => rfl, fun _ => rfl, fun _ _ => rfl, fun _ _ => rfl⟩

theorem State.cleared_commands (c : CondId) (s : State) : CommandFrame [] s (s.cleared c) := by
  unfold State.cleared
  exact (State.condNotice_quiet c s).commands.trans (.foldl (fun s e _ => .modEntry e _ s) _)

theorem State.lower_commands {f : State → State} (c : CondId) (h : CommandFrame [] s (f s)) : CommandFrame [] s (s.lower c f) := by
  unfold State.lower
  dsimp only
  split
  · exact h.trans (State.cleared_commands c _)
  · exact h

/-- A change of a stand that touches none of the fields a CommandFrame speaks of. -/
theorem CommandFrame.aside {f : Stand → Stand} (n : Nat) (s : State)
    (hf : ∀ S : Stand, (f S).record = S.record ∧ (f S).current = S.current ∧ (f S).lastCommand = S.lastCommand := by
      exact fun _ => ⟨rfl, rfl, rfl⟩) : CommandFrame [] s (s.modStand n f) := .modStand hf n s

theorem CommandFrame.modSpan (i : Nat) (f : Span → Span) (s : State) : CommandFrame [] s (s.modSpan i f) :=
  ⟨rfl, rfl, rfl, rfl, fun _ => rfl, fun _ => rfl, fun _ => rfl, fun _ _ => rfl, fun _ _ => rfl⟩

theorem State.settleMode_commands (n : Nat) (s : State) : CommandFrame [] s (s.settleMode n) := by
  unfold State.settleMode
  split
  · exact State.lower_commands _ (.aside n s)
  · exact (State.lower_commands _ (.aside n s)).trans (State.lower_commands _ (.aside n _))
  · exact (State.lower_commands _ (.aside n s)).trans (State.lower_commands _ (.aside n _))
  · exact .refl _ s
  · exact .refl _ s

theorem State.changeMode_commands (n : Nat) (m : StandMode) (cause : StandCause) (s : State) :
    CommandFrame [] s (s.changeMode n m cause) := by
  unfold State.changeMode
  exact ((CommandFrame.aside n s).trans (State.notice_commands _ _ _ _)).trans (State.settleMode_commands n _)

theorem State.closeSpan_commands (k i : Nat) (s : State) : CommandFrame [] s (s.closeSpan k i) := by
  induction k generalizing s i with
  | zero => exact .refl _ s
  | succ k ih =>
    unfold State.closeSpan
    split
    · have hclosed : CommandFrame [] s (s.enterEmptying i) := State.lower_commands _ (.modSpan i _ s)
      dsimp only
      split
      · have hidle : CommandFrame [] s ((s.enterEmptying i).enterIdle i) := hclosed.trans (.modSpan i _ _)
        split
        · have hleft : CommandFrame [] s (((s.enterEmptying i).enterIdle i).biteOff
              ((((s.enterEmptying i).enterIdle i).span i).record.downstream) .tailOut) :=
            (hidle.trans (.aside _ _)).trans (State.changeMode_commands _ _ _ _)
          split
          · exact hleft.trans (ih _ _)
          · exact hleft
        · exact hidle
      · exact hclosed
    · exact .refl _ s

theorem State.leaveMode_commands (n : Nat) (old : StandMode) (s : State) : CommandFrame [] s (s.leaveMode n old) := by
  unfold State.leaveMode State.leftRolling
  split
  · split
    · exact State.closeSpan_commands _ _ s
    · exact .refl _ s
  · exact State.notice_commands _ _ _ s
  · exact .refl _ s
  · exact .refl _ s
  · exact .refl _ s

theorem State.flush_commands (i : Nat) (cause : FlushCause) (n : Nat) (s : State) : CommandFrame [] s (s.flush i cause n) := by
  unfold State.flush
  dsimp only
  have hflushed : CommandFrame [] s (s.lower ⟨.trackLimit, i⟩ fun s' => s'.modSpan i fun P => P.flushed (s.weldInSpan i)) :=
    State.lower_commands _ (.modSpan i _ s)
  have hnotice := fun b => (hflushed.trans (.aside (f := fun S => { S with handOn := false }) (s.span i).record.upstream _)).trans
    (State.notice_commands .trackFlush i b _)
  split
  · exact (hnotice _).trans (.aside _ _)
  · exact hnotice _

theorem State.abortTest_commands (p : Nat) (s : State) : CommandFrame [] s (s.abortTest p) := by
  unfold State.abortTest
  dsimp only
  split
  · exact .refl _ s
  · exact (State.lower_commands _ (.modPort (f := Port.leaveTest) (fun _ => ⟨rfl, rfl⟩) p s)).trans (State.notice_commands _ _ _ _)

theorem State.writeOrder_commands (p : Nat) (o : StopOrder) (s : State) : CommandFrame [] s (s.writeOrder p o) := by
  unfold State.writeOrder
  dsimp only
  have htest := State.abortTest_commands p s
  split
  · exact htest
  · refine htest.trans (CommandFrame.trans (t := (s.abortTest p).modPort p fun P => if P.link = .disabled then P
      else { P with stopSlot := some (match P.stopSlot with | none => o | some old => mergeOrders old o) }) ?_
        ⟨rfl, rfl, rfl, rfl, fun _ => rfl, fun _ => rfl, fun _ => rfl, fun _ _ => rfl, fun _ _ => rfl⟩)
    refine .modPort (fun P => ?_) p _
    split <;> exact ⟨rfl, rfl⟩

theorem State.writeOrders_commands (n : Nat) (cls : Severity) (mask : Byte) (e : Nat) (count : Byte) (s : State) :
    CommandFrame [] s (s.writeOrders n cls mask e count) := by
  unfold State.writeOrders
  exact .foldl (fun s _ _ => State.writeOrder_commands _ _ s) s

/-! ### The commands of a stop (R120) -/

section
variable {n : Nat}

theorem CommandFrame.slot {p : Nat} {f : Port → Port} (hp : (s.stand n).record.port = p) (hf : ∀ P : Port, (f P).link = P.link) :
    CommandFrame [n] s (s.modPort p f) where
  log := rfl
  nextRecord := rfl
  firings := rfl
  evicted := rfl
  records _ := rfl
  passes _ := rfl
  links q := State.port_modPort_keep Port.link s p q f hf
  commands _ _ := rfl
  slots q hq := by rw [State.port_modPort, if_neg fun h => hq n List.mem_cons_self (hp.trans h.1)]

theorem CommandFrame.command (c : Int) (s : State) : CommandFrame [n] s (s.modStand n fun S =>
    { S with lastCommand := some c, counters := { S.counters with gaps := bump S.counters.gaps } }) where
  log := congrArg TripUnit.log (State.trip_modStand s n _)
  nextRecord := congrArg TripUnit.nextRecord (State.trip_modStand s n _)
  firings := congrArg TripUnit.firings (State.trip_modStand s n _)
  evicted := congrArg TripUnit.evicted (State.trip_modStand s n _)
  records m := State.stand_modStand_keep Stand.record s n m _ fun _ => rfl
  passes m := State.stand_modStand_keep Stand.current s n m _ fun _ => rfl
  links _ := by rw [State.port, State.port, State.net_modStand]
  commands m hm := by rw [State.stand_modStand_other fun h : n = m => hm (h ▸ List.mem_cons_self)]
  slots _ _ := by rw [State.port, State.port, State.net_modStand]

/-- The open-position command of a stand (R120). -/
def Stand.openCommand (n : Nat) (S : Stand) : GapCommand :=
  ⟨S.record.openPos, (S.current.map PassRecord.id).getD 0, 0x20#8, n, BitVec.ofNat 8 S.record.node⟩

/-- Write a command where the port is not DISABLED. -/
def Port.commanded (g : GapCommand) (P : Port) : Port := if P.link = .disabled then P else { P with commandSlot := some g }

theorem State.writeOpen_eq (n : Nat) (s : State) : s.writeOpen n =
    (s.modPort (s.stand n).record.port (Port.commanded ((s.stand n).openCommand n))).modStand n fun S =>
      { S with lastCommand := some (s.stand n).record.openPos, counters := { S.counters with gaps := bump S.counters.gaps } } := by
  unfold State.writeOpen State.writeGap Stand.openCommand
  dsimp only
  cases hc : (s.stand n).current <;> rfl

theorem State.writeOpen_commands (n : Nat) (s : State) : CommandFrame [n] s (s.writeOpen n) := by
  rw [State.writeOpen_eq]
  refine CommandFrame.trans (.slot rfl fun P => ?_) (.command _ _)
  unfold Port.commanded
  split <;> rfl

theorem State.writeOpen_last (h1 : 1 ≤ n) (h8 : n ≤ 8) (s : State) :
    ((s.writeOpen n).stand n).lastCommand = some (s.stand n).record.openPos := by
  rw [State.writeOpen_eq, State.stand_modStand_self h1 h8]

theorem State.writeOpen_slot {p : Nat} (hp : (s.stand n).record.port = p) (h12 : p < 12) (hl : (s.port p).link ≠ .disabled) :
    ((s.writeOpen n).port p).commandSlot = some ((s.stand n).openCommand n) := by
  rw [State.writeOpen_eq, State.port, State.net_modStand, hp]
  refine (congrArg Port.commandSlot ((State.port_modPort s p p _).trans (if_pos ⟨rfl, h12⟩))).trans ?_
  unfold Port.commanded
  rw [if_neg hl]

/-- No last command has changed, and a command slot has at most been emptied. -/
structure EmptyFrame (s t : State) : Prop where
  commands : ∀ n, (t.stand n).lastCommand = (s.stand n).lastCommand
  slots : ∀ q, (t.port q).commandSlot = (s.port q).commandSlot ∨ (t.port q).commandSlot = none

theorem CommandFrame.empty (h : CommandFrame [] s t) : EmptyFrame s t :=
  ⟨fun n => h.commands n List.not_mem_nil, fun q => .inl (h.slots q fun _ hn => absurd hn List.not_mem_nil)⟩

theorem EmptyFrame.trans (h : EmptyFrame s t) (g : EmptyFrame t u) : EmptyFrame s u where
  commands n := (g.commands n).trans (h.commands n)
  slots q := by
    rcases g.slots q with hq | hq
    · rw [hq]
      exact h.slots q
    · exact .inr hq

theorem EmptyFrame.foldl {α : Type} {g : State → α → State} {as : List α} (h : ∀ s, ∀ a ∈ as, EmptyFrame s (g s a)) (s : State) :
    EmptyFrame s (as.foldl g s) := by
  induction as generalizing s with
  | nil => exact (CommandFrame.refl [] s).empty
  | cons a as ih =>
    exact (h s a List.mem_cons_self).trans (ih (fun s b hb => h s b (List.mem_cons_of_mem a hb)) (g s a))

theorem EmptyFrame.none (h : EmptyFrame s t) {q : Nat} (hq : (s.port q).commandSlot = none) : (t.port q).commandSlot = none := by
  rcases h.slots q with ht | ht
  · exact ht.trans hq
  · exact ht

theorem State.emptyCommand_empty (p : Nat) (s : State) : EmptyFrame s (s.emptyCommand p) := by
  refine ⟨fun _ => rfl, fun q => ?_⟩
  unfold State.emptyCommand
  rw [State.port_modPort]
  split
  · exact .inr rfl
  · exact .inl rfl

/-- What comes before the open-position command when a stand is newly tripped (R120). -/
def State.tripping (n : Nat) (cls : Severity) (e : Nat) (s : State) : State :=
  (s.changeMode n (.tripped ⟨cls, e, 0#8, s.trip.interval⟩) .trip).leaveMode n (s.stand n).mode

theorem State.tripping_commands (n : Nat) (cls : Severity) (e : Nat) (s : State) : CommandFrame [] s (s.tripping n cls e) :=
  (State.changeMode_commands _ _ _ s).trans (State.leaveMode_commands _ _ _)

theorem State.tripStand_eq (n : Nat) (cls : Severity) (e : Nat) (s : State) : s.tripStand n cls e =
    let w := (s.tripping n cls e).emptyCommand (s.stand n).record.port
    if cls = .opened then w.writeOpen n else w := by
  rw [← (s.tripping_commands n cls e).records n]
  rfl

theorem State.upgradeStand_eq (n : Nat) (cls : Severity) (e : Nat) (s : State) : s.upgradeStand n cls e =
    let w := s.modStand n fun S => { S with mode := .tripped ⟨cls, e, 0#8, s.trip.interval⟩ }
    if cls = .opened then w.writeOpen n else w := rfl

/-- What comes before the open-position command when a firing acts on a stand (R120, R160). -/
def State.stopping (cls : Severity) (e : Nat) (newly : List Nat) (s : State) (n : Nat) : State :=
  if newly.contains n then (s.tripping n cls e).emptyCommand (s.stand n).record.port
  else s.modStand n fun S => { S with mode := .tripped ⟨cls, e, 0#8, s.trip.interval⟩ }

section
variable (cls : Severity) (e : Nat) (newly : List Nat) (s : State) (n : Nat)

theorem State.actOn_eq : s.actOn cls e newly n =
    if cls = .opened then (s.stopping cls e newly n).writeOpen n else s.stopping cls e newly n := by
  unfold State.actOn State.stopping
  split
  · exact State.tripStand_eq n cls e s
  · exact State.upgradeStand_eq n cls e s

theorem State.stopping_commands : CommandFrame [n] s (s.stopping cls e newly n) := by
  unfold State.stopping
  split
  · exact ((s.tripping_commands n cls e).mono (List.nil_subset _)).trans
      (.slot ((s.tripping_commands n cls e).records n ▸ rfl) fun _ => rfl)
  · exact (CommandFrame.aside n s).mono (List.nil_subset _)

theorem State.stopping_empty : EmptyFrame s (s.stopping cls e newly n) := by
  unfold State.stopping
  split
  · exact (s.tripping_commands n cls e).empty.trans (State.emptyCommand_empty _ _)
  · exact (CommandFrame.aside n s).empty

theorem State.actOn_commands : CommandFrame [n] s (s.actOn cls e newly n) := by
  rw [State.actOn_eq]
  split
  · exact (s.stopping_commands cls e newly n).trans (State.writeOpen_commands n _)
  · exact s.stopping_commands cls e newly n

end

theorem State.actOn_empty {cls : Severity} (h : cls ≠ .opened) (e : Nat) (newly : List Nat) (s : State) (n : Nat) :
    EmptyFrame s (s.actOn cls e newly n) := by
  rw [State.actOn_eq, if_neg h]
  exact s.stopping_empty cls e newly n

theorem State.actOn_emptied {cls : Severity} {newly : List Nat} (h : cls ≠ .opened) (hn : n ∈ newly)
    (hp : (s.stand n).record.port < 12) (e : Nat) : ((s.actOn cls e newly n).port (s.stand n).record.port).commandSlot = none := by
  rw [State.actOn_eq, if_neg h, State.stopping, if_pos (List.contains_iff_mem.2 hn), State.emptyCommand, State.port_modPort,
    if_pos ⟨rfl, hp⟩]

theorem Stand.openCommand_congr {S T : Stand} (hr : T.record = S.record) (hc : T.current = S.current) (n : Nat) :
    T.openCommand n = S.openCommand n := by
  rw [Stand.openCommand, hr, hc]
  rfl

theorem State.actOn_opened {newly : List Nat} (h1 : 1 ≤ n) (h8 : n ≤ 8) (e : Nat) (s : State) :
    ((s.actOn .opened e newly n).stand n).lastCommand = some (s.stand n).record.openPos ∧
      ((s.stand n).record.port < 12 → (s.port (s.stand n).record.port).link ≠ .disabled →
        ((s.actOn .opened e newly n).port (s.stand n).record.port).commandSlot = some ((s.stand n).openCommand n)) := by
  have hframe := s.stopping_commands .opened e newly n
  rw [State.actOn_eq, if_pos rfl]
  refine ⟨by rw [State.writeOpen_last h1 h8, hframe.records], fun hp hl => ?_⟩
  rw [State.writeOpen_slot (congrArg StandRecord.port (hframe.records n)) hp (by rw [hframe.links]; exact hl),
    Stand.openCommand_congr (hframe.records n) (hframe.passes n)]

end

end Sys2Proof.Machine
end

section
/-! PROOFS. What a firing of a stop class leaves behind (R120, R160, R161, R163, R168). -/

namespace Sys2Proof.Machine

variable {s t u v : State}

/-! ### The stands of a firing, one after another -/

section
variable {cls : Severity} {e : Nat} {newly l : List Nat}

theorem State.actOns_commands (s : State) :
    CommandFrame l s (l.foldl (fun s n => s.actOn cls e newly n) s) :=
  .foldl (fun s n hn => (s.actOn_commands cls e newly n).mono fun _ hk => List.mem_singleton.1 hk ▸ hn) s

theorem State.actOns_empty (h : cls ≠ .opened) (s : State) : EmptyFrame s (l.foldl (fun s n => s.actOn cls e newly n) s) :=
  .foldl (fun s n _ => State.actOn_empty h e newly s n) s

theorem State.actOns_emptied {n : Nat} (h : cls ≠ .opened) (hl : n ∈ l) (hn : n ∈ newly) (hp : (s.stand n).record.port < 12) :
    ((l.foldl (fun s n => s.actOn cls e newly n) s).port (s.stand n).record.port).commandSlot = none := by
  obtain ⟨l₁, l₂, rfl⟩ := List.append_of_mem hl
  rw [List.foldl_append, List.foldl_cons]
  have hbefore := State.actOns_commands (cls := cls) (e := e) (newly := newly) (l := l₁) s
  generalize l₁.foldl (fun s n => s.actOn cls e newly n) s = w at hbefore
  rw [← hbefore.records n] at hp ⊢
  exact (State.actOns_empty h _).none (State.actOn_emptied h hn hp e)

theorem State.actOns_opened {n : Nat} (hl : n ∈ l) (hd : l.Nodup) (h1 : 1 ≤ n) (h8 : n ≤ 8) :
    ((l.foldl (fun s n => s.actOn .opened e newly n) s).stand n).lastCommand = some (s.stand n).record.openPos ∧
      ((s.stand n).record.port < 12 → (s.port (s.stand n).record.port).link ≠ .disabled →
        (∀ k ∈ l, (s.stand k).record.port = (s.stand n).record.port → k = n) →
        ((l.foldl (fun s n => s.actOn .opened e newly n) s).port (s.stand n).record.port).commandSlot =
          some ((s.stand n).openCommand n)) := by
  obtain ⟨l₁, l₂, rfl⟩ := List.append_of_mem hl
  have hn : n ∉ l₂ := (List.nodup_cons.1 (List.nodup_append.1 hd).2.1).1
  rw [List.foldl_append, List.foldl_cons]
  have hbefore := State.actOns_commands (cls := .opened) (e := e) (newly := newly) (l := l₁) s
  generalize l₁.foldl (fun s n => s.actOn .opened e newly n) s = w at hbefore
  have hat := State.actOn_opened h1 h8 e w (newly := newly)
  have hstep := w.actOn_commands .opened e newly n
  have hafter := State.actOns_commands (cls := .opened) (e := e) (newly := newly) (l := l₂) (w.actOn .opened e newly n)
  rw [hbefore.records n, hbefore.links, Stand.openCommand_congr (hbefore.records n) (hbefore.passes n)] at hat
  refine ⟨(hafter.commands n hn).trans hat.1, fun hp hlink honly => (hafter.slots _ fun k hk heq => ?_).trans (hat.2 hp hlink)⟩
  rw [hstep.records, hbefore.records] at heq
  exact hn (honly k (List.mem_append_right _ (List.mem_cons_of_mem n hk)) heq ▸ hk)

end

/-! ### The spans of a firing (R102, R160) -/

/-- Each first element of a list of pairs is kept once, with its first partner (R160, R161). -/
theorem mem_firsts {l : List (Nat × Nat)} {i : Nat} : ∀ acc : List (Nat × Nat), (∃ x ∈ acc ++ l, x.1 = i) →
    ∃ x ∈ l.foldl (fun l x => if l.any (·.1 == x.1) then l else l ++ [x]) acc, x.1 = i := by
  induction l with
  | nil => exact fun acc h => by simpa using h
  | cons a l ih =>
    rintro acc ⟨x, hx, hi⟩
    rw [List.foldl_cons]
    by_cases ha : acc.any (·.1 == a.1) = true
    · rw [if_pos ha]
      refine ih acc ?_
      rcases List.mem_append.1 hx with hx | hx
      · exact ⟨x, List.mem_append_left l hx, hi⟩
      · rcases List.mem_cons.1 hx with rfl | hx
        · obtain ⟨y, hy, heq⟩ := List.any_eq_true.1 ha
          exact ⟨y, List.mem_append_left l hy, (beq_iff_eq.1 heq).trans hi⟩
        · exact ⟨x, List.mem_append_right acc hx, hi⟩
    · rw [if_neg ha]
      exact ih (acc ++ [a]) ⟨x, by simpa using hx, hi⟩

theorem State.mem_spansToFlush {newly : List Nat} {n i : Nat} (hn : n ∈ newly) (hi : s.entrySpan n = some i ∨ s.exitSpan n = some i) :
    ∃ x ∈ s.spansToFlush newly, x.1 = i := by
  refine mem_firsts [] ⟨(i, n), ?_, rfl⟩
  rw [List.nil_append]
  refine List.mem_flatMap.2 ⟨n, hn, List.mem_map.2 ⟨i, ?_, rfl⟩⟩
  rcases hi with hi | hi <;> simp [hi]

/-- The span is IDLE and holds no segment. -/
def Span.Ended (P : Span) : Prop := P.state = .idle ∧ P.queue = []

theorem State.flush_ended {i j : Nat} (hj : j < 9) (cause : FlushCause) (m : Nat) (s : State) :
    i = j ∨ (s.span j).Ended → ((s.flush i cause m).span j).Ended := by
  intro h
  by_cases hij : i = j
  · subst hij
    rw [(State.flush_span hj cause m s).1]
    exact ⟨rfl, rfl⟩
  · by_cases hi : i < 9
    · rw [(State.flush_span hi cause m s).2 j (Ne.symm hij)]
      exact h.resolve_left hij
    · have hspans : (s.flush i cause m).span j = (s.modSpan i fun P => P.flushed (s.weldInSpan i)).span j := by
        refine State.span_of_spans ?_ j
        unfold State.flush
        dsimp only
        split
        · rw [State.spans_modStand]
          exact (State.spans_modStand _ _ _).trans (State.spans_lower _ _ s)
        · exact (State.spans_modStand _ _ _).trans (State.spans_lower _ _ s)
      rw [hspans, State.span_modSpan_other hij]
      exact h.resolve_left hij

theorem State.flushes_ended {l : List (Nat × Nat)} {j : Nat} (hj : j < 9) (cause : FlushCause) (s : State)
    (h : (∃ x ∈ l, x.1 = j) ∨ (s.span j).Ended) : ((l.foldl (fun s x => s.flush x.1 cause x.2) s).span j).Ended := by
  induction l generalizing s with
  | nil => exact h.resolve_left fun ⟨_, hx, _⟩ => List.not_mem_nil hx
  | cons a l ih =>
    refine ih _ ?_
    rcases h with ⟨x, hx, hi⟩ | h
    · rcases List.mem_cons.1 hx with rfl | hx
      · exact .inr (State.flush_ended hj cause _ s (.inl hi))
      · exact .inl ⟨x, hx, hi⟩
    · exact .inr (State.flush_ended hj cause _ s (.inr h))

theorem State.spans_writeOrder (p : Nat) (o : StopOrder) (s : State) : (s.writeOrder p o).spans = s.spans := by
  have htest : (s.abortTest p).spans = s.spans := by
    unfold State.abortTest
    dsimp only
    split
    · rfl
    · rw [State.spans_notice]
      exact State.spans_lower ⟨.link, p⟩ (fun s => s.modPort p Port.leaveTest) s
  unfold State.writeOrder
  dsimp only
  split
  · exact htest
  · exact htest

theorem State.spans_writeOrders (n : Nat) (cls : Severity) (mask : Byte) (e : Nat) (count : Byte) (s : State) :
    (s.writeOrders n cls mask e count).spans = s.spans := by
  unfold State.writeOrders
  generalize stopTargets (s.stand n).record = l
  induction l generalizing s with
  | nil => rfl
  | cons t l ih => rw [List.foldl_cons, ih, State.spans_writeOrder]

/-! ### The orders of a firing (R47, R161) -/

/-- The port holds an order of class `cls` or a more severe one that names the stands of the mask. -/
def Port.Ordered (cls : Severity) (mask : Byte) (P : Port) : Prop :=
  ∃ o, P.stopSlot = some o ∧ severityRank cls ≤ severityRank o.cls ∧ o.mask ||| mask = o.mask

theorem Port.slotsKept.ordered {P Q : Port} {cls : Severity} {mask : Byte} (h : P.slotsKept Q) (hP : P.Ordered cls mask) :
    Q.Ordered cls mask := by
  obtain ⟨o, ho, hc, hm⟩ := hP
  obtain ⟨o', ho', hc', hm'⟩ := h.order o ho
  refine ⟨o', ho', le_trans hc hc', ?_⟩
  calc o'.mask ||| mask = o'.mask ||| o.mask ||| mask := by rw [hm']
    _ = o'.mask ||| (o.mask ||| mask) := BitVec.or_assoc ..
    _ = o'.mask := by rw [hm, hm']

theorem mergeOrders_ordered (old o : StopOrder) : severityRank o.cls ≤ severityRank (mergeOrders old o).cls ∧
    (mergeOrders old o).mask ||| o.mask = (mergeOrders old o).mask := by
  refine ⟨?_, ?_⟩
  · unfold mergeOrders
    dsimp only
    split
    · omega
    · exact le_refl _
  · show old.mask ||| o.mask ||| o.mask = old.mask ||| o.mask
    rw [BitVec.or_assoc, BitVec.or_self]

theorem State.writeOrder_ordered {q : Nat} (hq : q < 12) (hl : (s.port q).link ≠ .disabled) (o : StopOrder) :
    ((s.writeOrder q o).port q).Ordered o.cls o.mask := by
  have hlink : ((s.abortTest q).port q).link ≠ .disabled := by rw [(State.abortTest_commands q s).links]; exact hl
  unfold State.writeOrder
  dsimp only
  rw [if_neg hlink]
  generalize s.abortTest q = w at hlink
  have hport : ({ w with net := w.net.writeStop q o, trip := { w.trip with ordersWritten := bump w.trip.ordersWritten } } : State).port q =
      if (w.port q).link = .disabled then w.port q else
        { w.port q with stopSlot := some (match (w.port q).stopSlot with | none => o | some old => mergeOrders old o) } :=
    (Net.port_modPort w.net q q _).trans (if_pos ⟨rfl, hq⟩)
  rw [hport, if_neg hlink]
  cases hs : (w.port q).stopSlot with
  | none => exact ⟨o, rfl, le_refl _, BitVec.or_self⟩
  | some old => exact ⟨_, rfl, (mergeOrders_ordered old o).1, (mergeOrders_ordered old o).2⟩

theorem mem_stopTargets {r : StandRecord} {q : Nat} (h : q ∈ StandRecord.ports r) : ∃ x ∈ stopTargets r, x.1 = q := by
  refine mem_firsts [] ?_
  rcases List.mem_cons.1 h with rfl | h
  · exact ⟨_, List.mem_cons_self, rfl⟩
  · obtain ⟨x, hx, rfl⟩ := List.mem_map.1 h
    exact ⟨(x.2, x.1), List.mem_cons_of_mem _ (List.mem_map.2 ⟨x, hx, rfl⟩), rfl⟩

theorem State.writeOrders_ordered {n q : Nat} (hport : q ∈ StandRecord.ports (s.stand n).record) (hq : q < 12)
    (hl : (s.port q).link ≠ .disabled) (cls : Severity) (mask : Byte) (e : Nat) (count : Byte) :
    ((s.writeOrders n cls mask e count).port q).Ordered cls mask := by
  obtain ⟨x, hx, rfl⟩ := mem_stopTargets hport
  unfold State.writeOrders
  obtain ⟨l₁, l₂, hsplit⟩ := List.append_of_mem hx
  have hevent := fun (l : List (Nat × Nat)) (w : State) => EventFrame.foldl
    (fun s (t : Nat × Nat) => s.writeOrder t.1 ⟨cls, mask, e, count, BitVec.ofNat 8 t.2⟩) l
    (fun s _ _ => State.writeOrder_event _ _ s) w
  rw [hsplit, List.foldl_append, List.foldl_cons]
  refine ((hevent l₂ _).slots x.1).ordered (State.writeOrder_ordered hq ?_ _)
  rw [((hevent l₁ s).slots x.1).link]
  exact hl

end Sys2Proof.Machine
end

section
/-! PROOFS. A firing of a stop class as a whole (R120, R160, R161, R163, R168). -/

namespace Sys2Proof.Machine

variable {s t u v : State}

/-! ### The stands a firing acts on (R160) -/

theorem State.actsOn_iff {cls : Severity} {mask : Byte} {m : Nat} : s.ActsOn cls mask m ↔ m ∈ s.actedBy cls mask := by
  rw [State.mem_actedBy, State.mem_targets, Stand.inService_iff, State.ActsOn]
  have htrip : (∀ x, (s.stand m).mode = .tripped x → severityRank x.cls < severityRank cls) ↔
      (s.stand m).tripOf = none ∨ (s.stand m).upgradable cls = true := by
    unfold Stand.upgradable Stand.tripOf
    cases (s.stand m).mode <;> simp
  rw [htrip]
  tauto

theorem State.mem_newlyBy {cls : Severity} {mask : Byte} {m : Nat} (h : m ∈ s.actedBy cls mask) :
    m ∈ s.newlyBy mask ↔ (s.stand m).isTripped = false := by
  unfold State.newlyBy
  rw [List.mem_filter]
  simp [((s.mem_actedBy cls mask m).1 h).1]

theorem State.newlyBy_acted {cls : Severity} {mask : Byte} {m : Nat} (h : m ∈ s.newlyBy mask) : m ∈ s.actedBy cls mask := by
  obtain ⟨htarget, htrip⟩ := List.mem_filter.1 h
  refine (s.mem_actedBy cls mask m).2 ⟨htarget, .inl ?_⟩
  simpa [Stand.isTripped] using htrip

theorem State.anyTripped_iff : s.anyTripped = true ↔ ∃ m, (s.stand m).isTripped = true := by
  unfold State.anyTripped
  rw [List.any_eq_true]
  constructor
  · rintro ⟨m, -, h⟩
    exact ⟨m, h⟩
  · rintro ⟨m, h⟩
    refine ⟨m, (standNumbers_valid m).2 (State.stand_valid (s := s) m fun ho => ?_), h⟩
    rw [Stand.isTripped, Stand.tripOf, ho] at h
    exact Bool.noConfusion h

/-- A firing that acts on some stand is FIRST exactly when no stand was TRIPPED (R168). -/
theorem State.first_iff {cls : Severity} {mask : Byte} (h : ∃ m, m ∈ s.actedBy cls mask) :
    (!(s.newlyBy mask).isEmpty && !s.anyTripped) = true ↔ ∀ m, (s.stand m).isTripped = false := by
  have hany : s.anyTripped = false ↔ ∀ m, (s.stand m).isTripped = false := by
    rw [← Bool.not_eq_true, State.anyTripped_iff]
    simp
  rw [Bool.and_eq_true, Bool.not_eq_true', Bool.not_eq_true', hany]
  refine and_iff_right_of_imp fun hnone => ?_
  obtain ⟨m, hm⟩ := h
  exact List.isEmpty_eq_false_iff_exists_mem.2 ⟨m, (State.mem_newlyBy hm).2 (hnone m)⟩

/-! ### The log (R168) -/

theorem evictOldest_append {pre post : List LogRecord} {x : LogRecord} (hx : x.first = false) (h : ∀ y ∈ pre, y.first = true) :
    evictOldest (pre ++ x :: post) = pre ++ post := by
  induction pre with
  | nil => exact if_neg (by rw [hx]; exact Bool.false_ne_true)
  | cons y pre ih =>
    exact (if_pos (h y List.mem_cons_self)).trans (congrArg (y :: ·) (ih fun z hz => h z (List.mem_cons_of_mem y hz)))

theorem State.recordFiring_log (e : Nat) (cause : Cause) (cls : Option Severity) (m : Byte) (first : Bool) (s : State) :
    (s.recordFiring e cause cls m first).trip =
      (s.logRecord ⟨s.trip.nextRecord, e, cause, cls, m, first, s.time⟩).trip := rfl

theorem State.logRecord_space (r : LogRecord) (h : s.trip.log.length < Config.logCapacity) :
    (s.logRecord r).trip.log = s.trip.log ++ [r] ∧ (s.logRecord r).trip.evicted = s.trip.evicted := by
  have hfull : ¬ Config.logCapacity ≤ s.trip.log.length := by omega
  exact ⟨congrArg (· ++ [r]) (if_neg hfull), if_neg hfull⟩

theorem State.logRecord_full (r : LogRecord) {pre post : List LogRecord} {x : LogRecord} (hlog : s.trip.log = pre ++ x :: post)
    (h : Config.logCapacity ≤ s.trip.log.length) (hx : x.first = false) (hpre : ∀ y ∈ pre, y.first = true) :
    (s.logRecord r).trip.log = pre ++ post ++ [r] ∧ (s.logRecord r).trip.evicted = bump s.trip.evicted := by
  refine ⟨?_, if_pos h⟩
  have hlog' : (s.logRecord r).trip.log = evictOldest s.trip.log ++ [r] := congrArg (· ++ [r]) (if_pos h)
  rw [hlog', hlog, evictOldest_append hx hpre]

/-! ### A firing up to its record (R120, R160, R161) -/

/-- A firing up to its orders: the stands, the spans, and the orders that name the stands. -/
def State.ordered (e : Nat) (cls : Severity) (mask : Byte) (s : State) : State :=
  (s.actedBy cls mask).foldl (fun w n => w.writeOrders n cls (maskOfList (s.actedBy cls mask)) e 0#8) (s.stopStands e cls mask)

section
variable {cls : Severity} {mask : Byte} {e : Nat}

theorem State.fireStop_none (h : s.actedBy cls mask = []) (cause : Cause) : s.fireStop e cls mask cause = s := by
  have hnew : s.newlyBy mask = [] := List.eq_nil_iff_forall_not_mem.2 fun m hm => by
    have := State.newlyBy_acted (cls := cls) hm
    rw [h] at this
    exact List.not_mem_nil this
  unfold State.fireStop State.stopStands
  rw [h, hnew]
  rfl

theorem State.fireStop_some (h : ∃ m, m ∈ s.actedBy cls mask) (cause : Cause) : s.fireStop e cls mask cause =
    (s.ordered e cls mask).recordFiring e cause (some cls) (maskOfList (s.actedBy cls mask))
      (!(s.newlyBy mask).isEmpty && !s.anyTripped) := by
  unfold State.fireStop
  dsimp only
  rw [if_neg (by rw [List.isEmpty_eq_false_iff_exists_mem.2 h]; exact Bool.false_ne_true)]
  rfl

/-- What follows the trips and upgrades, up to the record, touches no command. -/
theorem State.ordered_commands (e : Nat) (cls : Severity) (mask : Byte) (s : State) : CommandFrame []
    ((s.actedBy cls mask).foldl (fun w n => w.actOn cls e (s.newlyBy mask) n) s) (s.ordered e cls mask) :=
  CommandFrame.trans (.foldl (fun s x _ => State.flush_commands x.1 .trip x.2 s) _)
    (.foldl (fun s n _ => State.writeOrders_commands n cls _ e 0#8 s) _)

theorem State.ordered_ended {m i : Nat} (hm : m ∈ s.newlyBy mask) (hi : s.entrySpan m = some i ∨ s.exitSpan m = some i) :
    ((s.ordered e cls mask).span i).Ended := by
  have hi9 : i < 9 := by
    rcases hi with hi | hi
    · exact State.entrySpan_lt hi
    · exact State.exitSpan_lt hi
  have hflushed : ((s.stopStands e cls mask).span i).Ended :=
    State.flushes_ended hi9 .trip _ (.inl (State.mem_spansToFlush hm hi))
  have hspans : (s.ordered e cls mask).spans = (s.stopStands e cls mask).spans := by
    unfold State.ordered
    generalize s.stopStands e cls mask = w
    generalize maskOfList _ = x
    induction s.actedBy cls mask generalizing w with
    | nil => rfl
    | cons n l ih => exact (ih _).trans (State.spans_writeOrders n cls x e 0#8 w)
  rw [State.span_of_spans hspans]
  exact hflushed

theorem State.ordered_ordered {m q : Nat} (hm : m ∈ s.actedBy cls mask) (hport : q ∈ StandRecord.ports (s.stand m).record) (hq : q < 12)
    (hl : (s.port q).link ≠ .disabled) : ((s.ordered e cls mask).port q).Ordered cls (maskOfList (s.actedBy cls mask)) := by
  have hstop : CommandFrame (s.actedBy cls mask) s (s.stopStands e cls mask) :=
    (State.actOns_commands s).trans
      (CommandFrame.foldl (fun s x _ => (State.flush_commands x.1 .trip x.2 s).mono (List.nil_subset _)) _)
  unfold State.ordered
  generalize maskOfList (s.actedBy cls mask) = x
  generalize s.stopStands e cls mask = w at hstop
  obtain ⟨l₁, l₂, hsplit⟩ := List.append_of_mem hm
  rw [hsplit, List.foldl_append, List.foldl_cons]
  have hbefore : CommandFrame [] w (l₁.foldl (fun w n => w.writeOrders n cls x e 0#8) w) :=
    .foldl (fun s n _ => State.writeOrders_commands n cls x e 0#8 s) w
  have hafter := fun w => EventFrame.foldl (fun w n => State.writeOrders n cls x e 0#8 w) l₂
    (fun s n _ => State.writeOrders_event n cls x e 0#8 s) w
  refine ((hafter _).slots q).ordered (State.writeOrders_ordered ?_ hq ?_ cls x e 0#8)
  · rw [hbefore.records, hstop.records]
    exact hport
  · rw [hbefore.links, hstop.links]
    exact hl

end

/-! ### A firing (R160 to R163) -/

section
variable {cls : Severity} {mask : Byte}

theorem State.stopped_none {e : Nat} {cause : Cause} (h : s.actedBy cls mask = [])
    (ht : t = { s with trip := { s.trip with firings := bump s.trip.firings } }) : s.Stopped t e cls mask cause := by
  have hno : ∀ m, ¬ s.ActsOn cls mask m := fun m hm => by
    rw [State.actsOn_iff, h] at hm
    exact List.not_mem_nil hm
  subst ht
  exact {
    frame := EventFrame.modLog s s.trip.log s.trip.nextRecord _ s.trip.ordersWritten s.trip.evicted
    acted := fun m hm => absurd hm (hno m)
    passed := fun _ _ => rfl
    flushed := fun m _ hm => absurd hm (hno m)
    commands := fun _ _ => rfl
    emptied := fun m hm => absurd hm (hno m)
    opened := fun m hm => absurd hm (hno m)
    orders := fun m hm => absurd hm (hno m)
    firings := rfl
    unlogged := fun _ => ⟨rfl, rfl⟩
    logged := fun ⟨m, hm⟩ => absurd hm (hno m) }

theorem State.fire_stop (e : Nat) (cls : Severity) (mask : Byte) (cause : Cause) (s : State) : s.fire e (some cls) mask cause =
    State.fireStop e cls mask cause { s with trip := { s.trip with firings := bump s.trip.firings } } := rfl

/-- A firing of a stop class does what R160 to R163 say. -/
theorem State.fire_stopped (e : Nat) (cls : Severity) (mask : Byte) (cause : Cause) (s : State) :
    s.Stopped (s.fire e (some cls) mask cause) e cls mask cause := by
  have hevent := State.fire_event e (some cls) mask cause s
  have htrips := State.fire_trips e cls mask cause s
  by_cases hnone : s.actedBy cls mask = []
  · refine State.stopped_none hnone ?_
    rw [State.fire_stop]
    exact State.fireStop_none (s := { s with trip := { s.trip with firings := bump s.trip.firings } }) hnone cause
  · have hsome : ∃ m, m ∈ s.actedBy cls mask := List.exists_mem_of_ne_nil _ hnone
    generalize hw : ({ s with trip := { s.trip with firings := bump s.trip.firings } } : State) = w
    have hstand : ∀ n, w.stand n = s.stand n := fun n => by rw [← hw]; rfl
    have hport : ∀ q, w.port q = s.port q := fun q => by rw [← hw]; rfl
    have hacted : w.actedBy cls mask = s.actedBy cls mask := by rw [← hw]; rfl
    have hspans : ∀ m, w.entrySpan m = s.entrySpan m ∧ w.exitSpan m = s.exitSpan m := fun m => by rw [← hw]; exact ⟨rfl, rfl⟩
    have hfire : s.fire e (some cls) mask cause = (w.ordered e cls mask).recordFiring e cause (some cls)
        (maskOfList (s.actedBy cls mask)) (!(s.newlyBy mask).isEmpty && !s.anyTripped) := by
      rw [State.fire_stop, hw, State.fireStop_some (by rw [hacted]; exact hsome), hacted, ← hw]
      rfl
    have hrecord := State.recordFiring_logFrame e cause (some cls) (maskOfList (s.actedBy cls mask))
      (!(s.newlyBy mask).isEmpty && !s.anyTripped) (w.ordered e cls mask)
    have hlog := State.recordFiring_log e cause (some cls) (maskOfList (s.actedBy cls mask))
      (!(s.newlyBy mask).isEmpty && !s.anyTripped) (w.ordered e cls mask)
    rw [← hfire] at hrecord hlog
    have hcommands := State.ordered_commands e cls mask w
    have hended := fun m i (hm : m ∈ w.newlyBy mask) (hi : w.entrySpan m = some i ∨ w.exitSpan m = some i) =>
      State.ordered_ended (e := e) (cls := cls) hm hi
    have horders := fun m q (hm : m ∈ w.actedBy cls mask) => State.ordered_ordered (e := e) (q := q) hm
    rw [hacted] at hcommands horders
    generalize s.fire e (some cls) mask cause = t at hevent htrips hrecord hlog
    generalize w.ordered e cls mask = o at hcommands hended horders hrecord hlog
    have hacts := (State.actOns_commands (cls := cls) (e := e) (newly := w.newlyBy mask) (l := s.actedBy cls mask) w).trans
      (hcommands.mono (List.nil_subset _))
    have hempty := fun hc : cls ≠ .opened =>
      (State.actOns_empty (e := e) (newly := w.newlyBy mask) (l := s.actedBy cls mask) hc w).trans hcommands.empty
    have htstand : ∀ n, t.stand n = o.stand n := State.stand_of_stands hrecord.stands
    have htspan : ∀ i, t.span i = o.span i := State.span_of_spans (by rw [hrecord.rest])
    have htslot : ∀ q, (t.port q).commandSlot = (o.port q).commandSlot := fun q =>
      hrecord.net.port Port.commandSlot (fun _ => rfl) q
    have hnewly : ∀ m, s.ActsOn cls mask m → (s.stand m).isTripped = false → m ∈ w.newlyBy mask := fun m hm htrip => by
      refine (State.mem_newlyBy (cls := cls) ?_).2 ?_
      · rw [hacted]
        exact State.actsOn_iff.1 hm
      · rw [hstand]
        exact htrip
    have hvalid : ∀ m ∈ s.actedBy cls mask, 1 ≤ m ∧ m ≤ 8 := fun m hm =>
      ((s.mem_targets mask m).1 ((s.mem_actedBy cls mask m).1 hm).1).1
    have hbefore : w.trip.log = s.trip.log ∧ w.trip.nextRecord = s.trip.nextRecord ∧ w.trip.evicted = s.trip.evicted ∧
        w.trip.firings = bump s.trip.firings ∧ w.time = s.time := by rw [← hw]; exact ⟨rfl, rfl, rfl, rfl, rfl⟩
    obtain ⟨hwlog, hwnext, hwevicted, hwfirings, hwtime⟩ := hbefore
    have holog : o.trip.log = s.trip.log := hacts.log.trans hwlog
    have hoevicted : o.trip.evicted = s.trip.evicted := hacts.evicted.trans hwevicted
    have hotime : o.time = s.time := by rw [← hevent.time, hrecord.rest]
    exact {
      frame := hevent
      acted := fun m hm => Stand.tripOf_eq_some.1 ((htrips m).trans (if_pos (State.actsOn_iff.1 hm)))
      passed := fun m hm => (htrips m).trans (if_neg fun h => hm (State.actsOn_iff.2 h))
      flushed := fun m i hm htrip hi => by
        rw [htspan]
        refine hended m i (hnewly m hm htrip) ?_
        rw [(hspans m).1, (hspans m).2]
        exact hi
      commands := fun m hm => by
        rw [htstand, ← hstand]
        rcases hm with hc | hm
        · exact (hempty hc).commands m
        · exact hacts.commands m fun h => hm (State.actsOn_iff.2 h)
      emptied := fun m hm htrip hc hp => by
        rw [← hstand] at hp ⊢
        rw [htslot]
        exact hcommands.empty.none (State.actOns_emptied hc (State.actsOn_iff.1 hm) (hnewly m hm htrip) hp)
      opened := fun m hm hc => by
        subst hc
        have hm' := State.actsOn_iff.1 hm
        have hopen := State.actOns_opened (s := w) (e := e) (newly := w.newlyBy mask) hm' (s.actedBy_nodup .opened mask)
          (hvalid m hm').1 (hvalid m hm').2
        rw [hstand, hport] at hopen
        refine ⟨by rw [htstand, hcommands.commands m List.not_mem_nil, hopen.1], fun hp hl honly => ?_⟩
        rw [htslot, hcommands.slots _ (fun _ h => absurd h List.not_mem_nil)]
        refine hopen.2 hp hl fun k hk heq => honly k (State.actsOn_iff.2 hk) ?_
        rwa [hstand] at heq
      orders := fun m hm q hq h12 hl => by
        have hheld := horders m q (State.actsOn_iff.1 hm) (by rw [hstand]; exact hq) h12 (by rw [hport]; exact hl)
        have hport' : (t.port q).stopSlot = (o.port q).stopSlot := hrecord.net.port Port.stopSlot (fun _ => rfl) q
        obtain ⟨x, hx, hsev, hmask⟩ := hheld
        refine ⟨x, hport'.trans hx, hsev, fun k hk => ?_⟩
        have hk' := State.actsOn_iff.1 hk
        rw [← hmask, inMask_or, (inMask_maskOfList _ k (hvalid k hk').1 (hvalid k hk').2).2 hk', Bool.or_true]
      firings := (congrArg TripUnit.firings hlog).trans (hacts.firings.trans hwfirings)
      unlogged := fun hno => absurd hsome fun ⟨m, hm⟩ => hno m (State.actsOn_iff.2 hm)
      logged := fun _ => by
        refine ⟨⟨o.trip.nextRecord, e, cause, some cls, maskOfList (s.actedBy cls mask),
          !(s.newlyBy mask).isEmpty && !s.anyTripped, o.time⟩, hacts.nextRecord.trans hwnext, rfl, rfl, rfl, hotime,
          fun m h1 h8 => (inMask_maskOfList _ m h1 h8).trans State.actsOn_iff.symm, State.first_iff hsome, fun hspace => ?_,
          fun pre x post hsplit hfull hx hpre => ?_⟩
        · rw [hlog]
          have := State.logRecord_space (s := o) ⟨o.trip.nextRecord, e, cause, some cls, maskOfList (s.actedBy cls mask),
            !(s.newlyBy mask).isEmpty && !s.anyTripped, o.time⟩ (by rw [holog]; exact hspace)
          rwa [holog, hoevicted] at this
        · rw [hlog]
          have := State.logRecord_full (s := o) ⟨o.trip.nextRecord, e, cause, some cls, maskOfList (s.actedBy cls mask),
            !(s.newlyBy mask).isEmpty && !s.anyTripped, o.time⟩ (holog.trans hsplit) (by rw [holog]; exact hfull) hx hpre
          rwa [hoevicted] at this }

end

end Sys2Proof.Machine
end

section
/-! PROOFS. Entries that fire, and stops without an entry (R156, R159, R163 to R165). -/

namespace Sys2Proof.Machine

variable {s t u v : State}

/-! ### A firing of class NOTE (R163) -/

theorem State.fire_note (e : Nat) (mask : Byte) (cause : Cause) (s : State) :
    (QuietFrame { s with trip := { s.trip with
        firings := bump s.trip.firings, log := (s.fire e none mask cause).trip.log, nextRecord := s.trip.nextRecord + 1,
        evicted := (s.fire e none mask cause).trip.evicted } } (s.fire e none mask cause)) ∧
      (s.fire e none mask cause).trip.log = (s.logRecord ⟨s.trip.nextRecord, e, cause, none, 0#8, false, s.time⟩).trip.log ∧
      (s.fire e none mask cause).trip.evicted =
        (s.logRecord ⟨s.trip.nextRecord, e, cause, none, 0#8, false, s.time⟩).trip.evicted :=
  ⟨State.notice_quiet .trip e _ _, rfl, rfl⟩

theorem State.fireEntry_eq {e : Nat} {r : TripEntryRecord} (h : (s.entry e).record = r) :
    s.fireEntry e = s.fire e r.cls r.mask (.cond r.cond) := by
  subst h
  rfl

theorem State.delayExpiry_timing {e k : Nat} (he : e < 64) (h : (s.entry e).state = .timing k) {r : TripEntryRecord}
    (hr : r = (s.entry e).record) : s.delayExpiry e =
      (s.modEntry e fun x => { x with state := .fired }).fire e r.cls r.mask (.cond r.cond) := by
  unfold State.delayExpiry
  rw [h]
  refine State.fireEntry_eq ?_
  rw [hr, State.entry_modEntry, if_pos ⟨rfl, he⟩]

theorem State.delayExpiry_still {e : Nat} (h : ∀ k, (s.entry e).state ≠ .timing k) : s.delayExpiry e = s := by
  unfold State.delayExpiry
  split
  · exact absurd ‹_› (h _)
  · rfl

/-- Settles O47: the expiry fires the entry, and a firing does what its class says. -/
theorem delayExpiryFiresTheEntry : Obligations.DelayExpiryFiresTheEntry := by
  unfold Obligations.DelayExpiryFiresTheEntry
  intro s e r hr
  refine ⟨fun h => congrArg Host.Outcome.next (State.delayExpiry_still h), fun k hk => ?_⟩
  refine ⟨_, _, rfl, congrArg Host.Outcome.next (State.delayExpiry_timing e.isLt hk hr), fun c hc => ?_, fun hnone => ?_⟩
  · rw [hc]
    exact State.fire_stopped e c r.mask (.cond r.cond) _
  · rw [hnone]
    generalize hv : (s.modEntry e fun x => { x with state := .fired }) = v
    have htrip : v.trip.log = s.trip.log ∧ v.trip.nextRecord = s.trip.nextRecord ∧ v.trip.evicted = s.trip.evicted ∧
        v.time = s.time := by rw [← hv]; exact ⟨rfl, rfl, rfl, rfl⟩
    obtain ⟨hlog, hnext, hevicted, htime⟩ := htrip
    obtain ⟨hquiet, htlog, htevicted⟩ := State.fire_note e r.mask (.cond r.cond) v
    refine ⟨hquiet, fun hspace => ?_, fun pre x post hsplit hfull hx hpre => ?_⟩
    · rw [htlog, htevicted, hnext, htime, ← hlog, ← hevicted]
      exact (State.logRecord_space _ (by rw [hlog]; exact hspace)).symm
    · rw [htlog, htevicted, hnext, htime, ← hevicted]
      exact (State.logRecord_full _ (hlog.trans hsplit) (by rw [hlog]; exact hfull) hx hpre).symm

/-! ### Stops without an entry (R164, R165) -/

/-- A firing seen apart from the frames held and the bursts of the ports. -/
theorem State.Stopped.withNet {n m : Net} {e : Nat} {cls : Severity} {mask : Byte} {cause : Cause} (h : s.Stopped t e cls mask cause)
    (frame : EventFrame { s with net := n } { t with net := m }) (hlink : ∀ q, (n.port q).link = (s.port q).link)
    (hcommand : ∀ q, (m.port q).commandSlot = (t.port q).commandSlot) (horder : ∀ q, (m.port q).stopSlot = (t.port q).stopSlot) :
    State.Stopped { s with net := n } { t with net := m } e cls mask cause where
  frame := frame
  acted := h.acted
  passed := h.passed
  flushed := h.flushed
  commands := h.commands
  emptied k hk ht hc hp := (hcommand _).trans (h.emptied k hk ht hc hp)
  opened k hk hc := ⟨(h.opened k hk hc).1, fun hp hl honly =>
    (hcommand _).trans ((h.opened k hk hc).2 hp (fun hd => hl ((hlink _).trans hd)) honly)⟩
  orders k hk q hq h12 hl := by
    obtain ⟨o, ho, hrest⟩ := h.orders k hk q hq h12 fun hd => hl ((hlink q).trans hd)
    exact ⟨o, (horder q).trans ho, hrest⟩
  firings := h.firings
  unlogged := h.unlogged
  logged := h.logged

/-- A request whose owner fires on the stands of a mask. -/
theorem State.ask_stopped {a : Arrival} {r : Request} {e : Nat} {cls : Severity} {mask : Byte} {cause : Cause} (hs : s.Hears a)
    (h : ∀ f tags, (((s.taken a.port).hold f tags).carryOut s.net.nextId a r).1 = (v.hold f tags).fire e (some cls) mask cause)
    (hv : v.net.nextId = s.net.nextId) : v.Stopped (s.ask a r) e cls mask cause := by
  rw [State.ask_eq a r s hs, State.serve_eq, ← hv]
  rw [← hv] at h
  generalize manageFrame s.part.own a (requestCode r) (encodeRequest r) = f
  generalize burstTags (s.port a.port).burst = tags
  have hfire := State.fire_stopped e cls mask cause (v.hold f tags)
  rw [← h] at hfire
  generalize ((s.taken a.port).hold f tags).carryOut v.net.nextId a r = y at hfire
  have hreply := State.reply_quiet a (requestCode r) y.2 y.1
  have hframe : EventFrame v ((y.1.reply a (requestCode r) y.2).release v.net.nextId) :=
    (hfire.frame.trans hreply.event).release_hold
  exact hfire.withNet (n := v.net) (m := ((y.1.reply a (requestCode r) y.2).release v.net.nextId).net) hframe (fun _ => rfl)
    (fun q => hreply.net.port Port.commandSlot (fun _ => rfl) q) (fun q => hreply.net.port Port.stopSlot (fun _ => rfl) q)

theorem reqStop_eq {p c : Nat} {cls : Severity} {mask : Byte} (hc : classOf c = some (some cls)) (hm : mask ≠ 0#8) :
    (reqStop p c mask s).1 = s.fire Config.noEntry (some cls) mask (.request p) := by
  unfold reqStop
  rw [hc]
  dsimp only
  rw [if_neg hm]

theorem State.raised_unmapped {p : Nat} (h : s.refs ⟨.panel, p⟩ = []) :
    s.raised ⟨.panel, p⟩ = s.fire Config.noEntry (some .fast) 0xFF#8 (.cond ⟨.panel, p⟩) := by
  unfold State.raised
  dsimp only
  rw [State.condNotice_unreferenced h, h]
  rfl

/-- Settles O48: the request and the condition each lead to one firing. -/
theorem stopsWithoutAnEntryFireAtOnce : Obligations.StopsWithoutAnEntryFireAtOnce := by
  unfold Obligations.StopsWithoutAnEntryFireAtOnce
  refine ⟨fun s a c cls mask hs hm hc => ?_, fun s p source f h hr => ?_⟩
  case refine_1 =>
    have hclass : classOf c = some (some cls) := by
      rcases hc with ⟨rfl, rfl⟩ | ⟨rfl, rfl⟩ | ⟨rfl, rfl⟩ <;> rfl
    exact ⟨_, rfl, State.ask_stopped hs (fun _ _ => reqStop_eq hclass hm) rfl⟩
  case refine_2 =>
    generalize hw : (s.modPort p fun P => { P with panel := f.cls.isSome }) = w
    have hexec : exec (.panelStop ⟨p, source⟩ f) s = .next ((w.changed ⟨.panel, p⟩ (s.port p).panel).drop p) := by
      rw [← hw]
      exact congrArg Host.Outcome.next (h.consume hr (State.panelStop p f.cls))
    have hdrop : (s.modPort p fun P => { P with panel := f.cls.isSome, burst := none }) = w.drop p := by
      rw [← hw]
      exact (State.modPort_modPort s p (fun P => { P with panel := f.cls.isSome }) fun P => { P with burst := none }).symm
    have hlevel : w.level ⟨.panel, p⟩ = f.cls.isSome := by
      rw [← hw]
      exact congrArg Port.panel (State.port_modPort_self s p _)
    refine ⟨_, w.drop p, hdrop.symm, hexec, (State.changed_event _ _ w).drop p, fun hsame => ?_, fun hset hclear href => ?_⟩
    · rw [State.changed_same (hlevel.trans hsame)]
    · have hrefs : w.refs ⟨.panel, p⟩ = [] := by rw [← hw]; exact href
      have hraised : w.changed ⟨.panel, p⟩ (s.port p).panel = w.fire 255 (some .fast) 0xFF#8 (.cond ⟨.panel, p⟩) := by
        unfold State.changed
        rw [hlevel, hset, hclear, if_neg (by decide), if_pos rfl]
        exact State.raised_unmapped hrefs
      have hfire := State.fire_stopped 255 .fast 0xFF#8 (.cond ⟨.panel, p⟩) w
      rw [← hraised] at hfire
      generalize w.changed ⟨.panel, p⟩ (s.port p).panel = t at hfire
      have hframe : EventFrame (w.drop p) (t.drop p) := hfire.frame.drop p
      exact hfire.withNet (n := (w.drop p).net) (m := (t.drop p).net) hframe
        (fun q => State.port_modPort_keep Port.link w p q (fun P => { P with burst := none }) fun _ => rfl)
        (fun q => State.port_modPort_keep Port.commandSlot t p q (fun P => { P with burst := none }) fun _ => rfl)
        (fun q => State.port_modPort_keep Port.stopSlot t p q (fun P => { P with burst := none }) fun _ => rfl)

end Sys2Proof.Machine
end

section
/-! PROOFS. Conditions that change their level, and the entries that refer to them (R155, R157, R159). -/

namespace Sys2Proof.Machine

variable {s t u v : State}

/-! ### The events of a port (R155) -/

/-- Events leave the levels of a port's monitors and its BABBLE as they are. -/
theorem EventFrame.level_port {k : CondKind} (h : EventFrame s t) (hk : k ∈ [CondKind.silent, .babble, .rate, .storm]) (p : Nat) :
    t.level ⟨k, p⟩ = s.level ⟨k, p⟩ := by
  have hlink : (t.port p).link = (s.port p).link := (h.slots p).link
  have hsilent : (t.port p).silent = (s.port p).silent := (congrArg Port.silent (h.ports p) :)
  have hrate : (t.port p).rate = (s.port p).rate := (congrArg Port.rate (h.ports p) :)
  have hstorm : (t.port p).limiting = (s.port p).limiting := (congrArg Port.limiting (h.ports p) :)
  simp only [List.mem_cons, List.not_mem_nil, or_false] at hk
  rcases hk with rfl | rfl | rfl | rfl
  · exact hsilent
  · exact congrArg (· == LinkState.babble) hlink
  · exact hrate
  · exact hstorm

theorem State.changed_still {k : CondKind} {c : CondId} {p : Nat} {b x : Bool} (h : s.level ⟨k, p⟩ = x)
    (hk : k ∈ [CondKind.silent, .babble, .rate, .storm]) : (s.changed c b).changed ⟨k, p⟩ x = s.changed c b :=
  State.changed_same (((State.changed_event c b s).level_port hk p).trans h)

section
variable {p : Nat} {f : Port → Port}

theorem State.setPort_link (hs : (s.modPort p f).level ⟨.silent, p⟩ = s.level ⟨.silent, p⟩)
    (hb : (s.modPort p f).level ⟨.babble, p⟩ = s.level ⟨.babble, p⟩) (hr : (s.modPort p f).level ⟨.rate, p⟩ = s.level ⟨.rate, p⟩)
    (ht : (s.modPort p f).level ⟨.storm, p⟩ = s.level ⟨.storm, p⟩) :
    s.setPort p f = (s.modPort p f).changed ⟨.link, p⟩ (s.level ⟨.link, p⟩) := by
  unfold State.setPort
  dsimp only
  rw [State.changed_still hs (by decide), State.changed_still hb (by decide), State.changed_still hr (by decide),
    State.changed_still ht (by decide)]

theorem State.setPort_silent (hl : (s.modPort p f).level ⟨.link, p⟩ = s.level ⟨.link, p⟩)
    (hb : (s.modPort p f).level ⟨.babble, p⟩ = s.level ⟨.babble, p⟩) (hr : (s.modPort p f).level ⟨.rate, p⟩ = s.level ⟨.rate, p⟩)
    (ht : (s.modPort p f).level ⟨.storm, p⟩ = s.level ⟨.storm, p⟩) :
    s.setPort p f = (s.modPort p f).changed ⟨.silent, p⟩ (s.level ⟨.silent, p⟩) := by
  unfold State.setPort
  dsimp only
  rw [State.changed_same hl, State.changed_still hb (by decide), State.changed_still hr (by decide),
    State.changed_still ht (by decide)]

theorem State.setPort_rate (hl : (s.modPort p f).level ⟨.link, p⟩ = s.level ⟨.link, p⟩)
    (hs : (s.modPort p f).level ⟨.silent, p⟩ = s.level ⟨.silent, p⟩) (hb : (s.modPort p f).level ⟨.babble, p⟩ = s.level ⟨.babble, p⟩)
    (ht : (s.modPort p f).level ⟨.storm, p⟩ = s.level ⟨.storm, p⟩) :
    s.setPort p f = (s.modPort p f).changed ⟨.rate, p⟩ (s.level ⟨.rate, p⟩) := by
  unfold State.setPort
  dsimp only
  rw [State.changed_same hl, State.changed_same hs, State.changed_same hb, State.changed_still ht (by decide)]

theorem State.setPort_storm (hl : (s.modPort p f).level ⟨.link, p⟩ = s.level ⟨.link, p⟩)
    (hs : (s.modPort p f).level ⟨.silent, p⟩ = s.level ⟨.silent, p⟩) (hb : (s.modPort p f).level ⟨.babble, p⟩ = s.level ⟨.babble, p⟩)
    (hr : (s.modPort p f).level ⟨.rate, p⟩ = s.level ⟨.rate, p⟩) :
    s.setPort p f = (s.modPort p f).changed ⟨.storm, p⟩ (s.level ⟨.storm, p⟩) := by
  unfold State.setPort
  dsimp only
  rw [State.changed_same hl, State.changed_same hs, State.changed_same hb, State.changed_same hr]

theorem State.setPort_congr {g : Port → Port} (h : f (s.port p) = g (s.port p)) : s.setPort p f = s.setPort p g := by
  unfold State.setPort
  rw [State.modPort_congr h]

end

/-! ### The entries that refer to a condition (R157) -/

theorem State.mem_refs {c : CondId} {e : Nat} :
    e ∈ s.refs c ↔ e < 64 ∧ (s.entry e).record.enabled = true ∧ (s.entry e).record.cond = c := by
  unfold State.refs
  rw [List.mem_filter, List.mem_range, Bool.and_eq_true, beq_iff_eq]

theorem State.refs_nodup (c : CondId) (s : State) : (s.refs c).Nodup := List.nodup_range.filter _

theorem State.refs_lowest {c : CondId} {e : Nat} {es : List Nat} (h : s.refs c = e :: es) : ∀ k ∈ s.refs c, e ≤ k := by
  have hsorted : (s.refs c).Pairwise (· < ·) := List.pairwise_lt_range.filter _
  rw [h] at hsorted ⊢
  intro k hk
  rcases List.mem_cons.1 hk with rfl | hk
  · exact le_refl _
  · exact ((List.pairwise_cons.1 hsorted).1 k hk).le

theorem State.condNotice_cons {c : CondId} {e : Nat} {es : List Nat} (h : s.refs c = e :: es) : s.condNotice c =
    s.notice .condition e (put8 (condCode c.kind) ++ put8 c.source ++ putBool (s.level c) ++ put8 (es.length + 1)) := by
  unfold State.condNotice
  rw [h]

/-! ### Entries written one after another -/

theorem QuietFrame.modEntries (h : QuietFrame s t) (f : TripEntry → TripEntry) (l : List Nat) :
    QuietFrame (l.foldl (fun s e => s.modEntry e f) s) (l.foldl (fun s e => s.modEntry e f) t) := by
  induction l generalizing s t with
  | nil => exact h
  | cons e l ih => exact ih (h.modEntry e f)

theorem State.idleOf_quiet (h : QuietFrame s t) (es : List Nat) : t.idleOf es = s.idleOf es := by
  unfold State.idleOf
  simp only [h.entry]

theorem State.firesOf_quiet (h : QuietFrame s t) (es : List Nat) : t.firesOf es = s.firesOf es := by
  unfold State.firesOf
  rw [State.idleOf_quiet h]
  simp only [h.entry]

/-! ### A level that has changed (R157, R159) -/

section
variable {c : CondId}

/-- The entries that refer to a condition, as it clears. -/
theorem State.cleared_after (c : CondId) (s : State) : ∃ w, QuietFrame w (s.cleared c) ∧
    w = { s with trip := { s.trip with entries := w.trip.entries } } ∧
    ∀ e, e < 64 → w.entry e = if e ∈ s.refs c then { s.entry e with state := .idle } else s.entry e := by
  obtain ⟨x, hx, he⟩ := State.foldl_modEntry (fun t => { t with state := .idle }) (s.refs c) s (s.refs_nodup c)
  refine ⟨_, (State.condNotice_quiet c s).modEntries (fun t => { t with state := .idle }) (s.refs c), by rw [hx], fun e h64 => ?_⟩
  rw [he]
  simp [h64]

theorem State.idleOf_nodup {es : List Nat} (h : es.Nodup) : (s.idleOf es).Nodup := h.filter _

theorem State.mem_idleOf {es : List Nat} {e : Nat} : e ∈ s.idleOf es ↔ e ∈ es ∧ (s.entry e).state = .idle := by
  unfold State.idleOf
  rw [List.mem_filter, beq_iff_eq]

theorem State.mem_firesOf {es : List Nat} {e : Nat} : e ∈ s.firesOf es ↔
    e ∈ es ∧ (s.entry e).state = .idle ∧ (s.entry e).record.delay = 0 := by
  unfold State.firesOf
  rw [List.mem_filter, State.mem_idleOf, beq_iff_eq, and_assoc]

theorem State.startEntries_spec {es : List Nat} (h : es.Nodup) :
    s.startEntries (s.idleOf es) = { s with trip := { s.trip with entries := (s.startEntries (s.idleOf es)).trip.entries } } ∧
      ∀ e, (s.startEntries (s.idleOf es)).entry e =
        if (e ∈ es ∧ (s.entry e).state = .idle) ∧ e < 64 then (s.entry e).start else s.entry e := by
  obtain ⟨x, hx, he⟩ := State.foldl_modEntry TripEntry.start (s.idleOf es) s (State.idleOf_nodup h)
  refine ⟨?_, fun e => ?_⟩
  · unfold State.startEntries
    rw [hx]
  · exact (he e).trans (if_congr (and_congr_left fun _ => State.mem_idleOf) rfl rfl)

/-- The state in which the entries that have fired act, as a condition is raised. -/
def State.raising (c : CondId) (s : State) : State := (s.condNotice c).startEntries (s.idleOf (s.refs c))

theorem State.raising_quiet (c : CondId) (s : State) : QuietFrame (s.startEntries (s.idleOf (s.refs c))) (s.raising c) :=
  (State.condNotice_quiet c s).modEntries TripEntry.start (s.idleOf (s.refs c))

theorem State.raised_eq (c : CondId) (s : State) : s.raised c =
    if c.kind = .panel ∧ s.refs c = [] then ((s.firesOf (s.refs c)).foldl (fun s e => s.fireEntry e) (s.raising c)).panelAction c.source 0xFF#8
    else (s.firesOf (s.refs c)).foldl (fun s e => s.fireEntry e) (s.raising c) := by
  have hquiet := State.condNotice_quiet c s
  unfold State.raised
  dsimp only
  rw [State.proceed_eq, State.firesOf_quiet hquiet, State.idleOf_quiet hquiet]
  exact if_congr (and_congr_right fun _ => List.isEmpty_iff) rfl rfl

theorem State.raised_mapped (h : c.kind = .panel → s.refs c ≠ []) :
    s.raised c = (s.firesOf (s.refs c)).foldl (fun s e => s.fireEntry e) (s.raising c) := by
  rw [State.raised_eq, if_neg fun hc => h hc.1 hc.2]

theorem State.firesOf_none {es : List Nat} (h : ∀ e ∈ es, (s.entry e).state = .idle → (s.entry e).record.delay ≠ 0) :
    s.firesOf es = [] :=
  List.eq_nil_iff_forall_not_mem.2 fun e he => by
    obtain ⟨hmem, hidle, hdelay⟩ := State.mem_firesOf.1 he
    exact h e hmem hidle hdelay

theorem State.firesOf_single {es : List Nat} {e : Nat} (hes : es.Nodup) (h : e ∈ s.firesOf es)
    (hone : ∀ k ∈ es, (s.entry k).state = .idle → (s.entry k).record.delay = 0 → k = e) : s.firesOf es = [e] := by
  have hnodup : (s.firesOf es).Nodup := (State.idleOf_nodup hes).filter _
  refine List.perm_singleton.1 ((List.perm_ext_iff_of_nodup hnodup (List.nodup_singleton e)).2 fun k => ?_)
  rw [List.mem_singleton]
  refine ⟨fun hk => ?_, fun hk => hk ▸ h⟩
  obtain ⟨hmem, hidle, hdelay⟩ := State.mem_firesOf.1 hk
  exact hone k hmem hidle hdelay

theorem State.raised_event_after (c : CondId) (s : State) : EventFrame (s.condNotice c) (s.raised c) := by
  unfold State.raised
  dsimp only
  split
  · exact (State.proceed_event _ _).trans (State.fire_event _ _ _ _ _)
  · exact State.proceed_event _ _

theorem State.cleared_event_after (c : CondId) (s : State) : EventFrame (s.condNotice c) (s.cleared c) := by
  unfold State.cleared
  exact .foldl _ _ (fun s e _ => .modEntry s e _ rfl) _

/-- A change of level is announced by its notice (R157). -/
theorem State.changed_notified {e : Nat} {es : List Nat} {before : Bool} {q : Nat} (h : s.level c ≠ before) (hr : s.refs c = e :: es)
    (hq : s.CanNotify q) : s.Notified (s.changed c before) q .condition e
      (put8 (condCode c.kind) ++ put8 c.source ++ putBool (s.level c) ++ put8 (es.length + 1)) := by
  have hafter : EventFrame (s.condNotice c) (s.changed c before) := by
    unfold State.changed
    rw [if_neg h]
    split
    · exact State.raised_event_after c s
    · exact State.cleared_event_after c s
  rw [State.condNotice_cons hr] at hafter
  have hnotice := State.notice_quiet .condition e
    (put8 (condCode c.kind) ++ put8 c.source ++ putBool (s.level c) ++ put8 (es.length + 1)) s
  exact (State.notice_notified hq .condition e (by simp [put8, putBool])).later (hnotice.net.frames hq.sound).1 hafter.frames
    hafter.queues

end

theorem QuietFrame.withTrip (h : QuietFrame s t) (x : TripUnit) : QuietFrame { s with trip := x } { t with trip := x } :=
  ⟨by rw [h.rest], h.net⟩

/-- The one entry that fires as a condition is raised acts (R159). -/
theorem State.raised_single {c : CondId} {e : Nat} (he : e ∈ s.firesOf (s.refs c))
    (hone : ∀ k ∈ s.refs c, (s.entry k).state = .idle → (s.entry k).record.delay = 0 → k = e) : s.raised c =
      (s.raising c).fire e (s.entry e).record.cls (s.entry e).record.mask (.cond c) := by
  obtain ⟨hmem, -, -⟩ := State.mem_firesOf.1 he
  obtain ⟨h64, -, hcond⟩ := State.mem_refs.1 hmem
  have hrecord : ((s.raising c).entry e).record = (s.entry e).record := by
    rw [(State.raising_quiet c s).entry, (State.startEntries_spec (s.refs_nodup c)).2 e]
    split <;> rfl
  rw [State.raised_mapped fun _ hnil => by rw [hnil] at hmem; exact List.not_mem_nil hmem,
    State.firesOf_single (s.refs_nodup c) he hone]
  refine (State.fireEntry_eq hrecord).trans ?_
  rw [hcond]

/-- Settles O46: the notice, the entries, and what those that fire do; then each event as a change of one level. -/
theorem conditionsMoveTheirEntries : Obligations.ConditionsMoveTheirEntries := by
  unfold Obligations.ConditionsMoveTheirEntries
  refine ⟨fun s c before refers href => ?_, fun s p => ?_, fun s c hc => ?_⟩
  case refine_1 =>
    have hrefs : ∀ e, e ∈ s.refs c ↔ refers e := fun e => State.mem_refs.trans (href e).symm
    have hlt : ∀ e, refers e → e < 64 := fun e he => ((href e).1 he).1
    refine ⟨fun h => State.changed_same h, fun h e es hr => ?_, fun hbefore hlevel => ?_, fun hbefore hlevel => ?_⟩
    case refine_1 =>
      refine ⟨(hrefs e).1 (hr ▸ List.mem_cons_self), fun k hk => State.refs_lowest hr k ((hrefs k).2 hk), fun q hq => ?_⟩
      exact State.changed_notified h hr hq
    case refine_2 =>
      obtain ⟨w, hquiet, hw, hentry⟩ := State.cleared_after c s
      have hchanged : s.changed c before = s.cleared c := by
        unfold State.changed
        rw [hlevel, hbefore, if_neg Bool.false_ne_true, if_neg Bool.false_ne_true]
      refine ⟨w, by rw [hchanged]; exact hquiet, hw, fun e h64 => ⟨fun he => ?_, fun he => ?_⟩⟩
      · rw [hentry e h64, if_pos ((hrefs e).2 he)]
      · rw [hentry e h64, if_neg fun h => he ((hrefs e).1 h)]
    case refine_3 =>
      have hchanged : s.changed c before = s.raised c := by
        unfold State.changed
        rw [hlevel, hbefore, if_neg (by decide), if_pos rfl]
      obtain ⟨hrest, hentry⟩ := State.startEntries_spec (s := s) (s.refs_nodup c)
      have hquiet := State.raising_quiet c s
      rw [hchanged]
      generalize hv : s.startEntries (s.idleOf (s.refs c)) = v at hrest hentry hquiet
      refine ⟨v, hrest, fun e h64 => ⟨fun he hidle => ?_, fun he => ?_⟩, fun hnone hpanel => ?_, fun e he hidle hdelay hone => ?_⟩
      · rw [hentry, if_pos ⟨⟨(hrefs e).2 he, hidle⟩, h64⟩]
        rfl
      · rw [hentry, if_neg fun h => ?_]
        rcases he with he | he
        · exact he ((hrefs e).1 h.1.1)
        · exact he h.1.2
      · rw [State.raised_mapped fun hk hnil => ?_, State.firesOf_none fun e he => hnone e ((hrefs e).1 he)]
        · exact hquiet
        · obtain ⟨e, he⟩ := hpanel hk
          have := (hrefs e).2 he
          rw [hnil] at this
          exact List.not_mem_nil this
      · rw [State.raised_single (State.mem_firesOf.2 ⟨(hrefs e).2 he, hidle, hdelay⟩) fun k hk => hone k ((hrefs k).1 hk)]
        generalize s.raising c = u at hquiet
        refine ⟨fun cls hcls => ⟨u, hquiet, ?_⟩, fun hnote => ⟨_, rfl, ?_, fun hspace => ?_⟩⟩
        · rw [hcls]
          exact State.fire_stopped e cls _ (.cond c) u
        all_goals
          rw [hnote]
          obtain ⟨hfire, hlog, -⟩ := State.fire_note e (s.entry e).record.mask (.cond c) u
          have hutrip : u.trip = v.trip := by rw [hquiet.rest]
          have hutime : u.time = s.time := by rw [hquiet.rest, hrest]
        · generalize u.fire e none (s.entry e).record.mask (.cond c) = t at hfire
          have hvtrip : v.trip.firings = s.trip.firings ∧ v.trip.nextRecord = s.trip.nextRecord := by rw [hrest]; exact ⟨rfl, rfl⟩
          rw [hutrip] at hfire
          have := (hquiet.withTrip { v.trip with
            firings := bump v.trip.firings
            log := t.trip.log
            nextRecord := v.trip.nextRecord + 1
            evicted := t.trip.evicted }).trans hfire
          rwa [hvtrip.1, hvtrip.2] at this
        · have hvlog : v.trip.log = s.trip.log ∧ v.trip.nextRecord = s.trip.nextRecord := by rw [hrest]; exact ⟨rfl, rfl⟩
          rw [hlog, (State.logRecord_space _ (by rw [hutrip, hvlog.1]; exact hspace)).1, hutrip, hvlog.1, hvlog.2, hutime]
  case refine_2 =>
    have hlevel : ∀ (f : Port → Port) (k : CondKind) (π : Port → Bool), (∀ w : State, w.level ⟨k, p⟩ = π (w.port p)) →
        π (f (s.port p)) = π (s.port p) → (s.modPort p f).level ⟨k, p⟩ = s.level ⟨k, p⟩ := fun f k π hk h => by
      rw [hk, hk, State.port_modPort_self, h]
    have hlink := fun f => hlevel f .link (fun P => P.link != .up || P.mode != .none) (fun _ => rfl)
    have hsilent := fun f => hlevel f .silent Port.silent (fun _ => rfl)
    have hbabble := fun f => hlevel f .babble (fun P => P.link == .babble) (fun _ => rfl)
    have hrate := fun f => hlevel f .rate Port.rate (fun _ => rfl)
    have hstorm := fun f => hlevel f .storm Port.limiting (fun _ => rfl)
    refine ⟨fun h => ?_, fun h => ?_, fun h => ?_, fun henergy hl hspoiled n hn => ?_, ?_, fun source f h hr => ?_⟩
    · refine congrArg Host.Outcome.next ((State.setPort_congr (g := fun P => { P with silenceTimer := none, silent := true })
        (if_pos h)).trans (State.setPort_silent (hlink _ rfl) (hbabble _ rfl) (hrate _ rfl) (hstorm _ rfl)))
    · have hold : s.level ⟨.link, p⟩ = true := by
        show ((s.port p).link != .up || (s.port p).mode != .none) = true
        rw [h]
        rfl
      rw [← hold]
      refine congrArg Host.Outcome.next ((State.setPort_congr (g := fun P => { P with link := .up, idleRun := 32 })
        (if_pos h)).trans (State.setPort_link (hsilent _ rfl) (hbabble _ ?_) (hrate _ rfl) (hstorm _ rfl)))
      show (LinkState.up == LinkState.babble) = ((s.port p).link == .babble)
      rw [h]
      rfl
    · have hold : s.level ⟨.link, p⟩ = decide ((s.port p).mode ≠ .none) := by
        show ((s.port p).link != .up || (s.port p).mode != .none) = _
        rw [h]
        cases (s.port p).mode <;> rfl
      rw [← hold]
      refine congrArg Host.Outcome.next ((State.setPort_congr (g := fun P => { P with link := .sync, idleRun := 0, burst := none })
        (if_pos h)).trans (State.setPort_link (hsilent _ rfl) (hbabble _ ?_) (hrate _ rfl) (hstorm _ rfl)))
      show (LinkState.sync == LinkState.babble) = ((s.port p).link == .babble)
      rw [h]
      rfl
    · have hverdict : rateVerdict (s.port p).rate n = true := by
        unfold rateVerdict
        exact if_pos (lt_abs.2 (by omega))
      refine congrArg Host.Outcome.next ((State.setPort_congr (g := fun P => { P with rate := true, rateLeft := 10 }) ?_).trans
        (State.setPort_rate (hlink _ rfl) (hsilent _ rfl) (hbabble _ rfl) (hstorm _ rfl)))
      simp [hspoiled, hverdict, henergy, hl]
    · exact congrArg Host.Outcome.next (State.setPort_storm (hlink _ rfl) (hsilent _ rfl) (hbabble _ rfl) (hrate _ rfl))
    · exact congrArg Host.Outcome.next (h.consume hr (State.panelStop p f.cls))
  case refine_3 =>
    exact congrArg Host.Outcome.next (if_pos hc)

end Sys2Proof.Machine
end

section
/-! PROOFS. The repeat timer of a TRIPPED stand (R47, R161, R162). -/

namespace Sys2Proof.Machine

variable {s t u v : State}

/-! ### One order written (R46, R47, R161) -/

/-- What an order makes of what the slot holds (R47). -/
def slotAfter (o : StopOrder) : Option StopOrder → StopOrder
  | none => o
  | some old => mergeOrders old o

theorem State.stopSlot_abortTest (p q : Nat) (s : State) : ((s.abortTest p).port q).stopSlot = (s.port q).stopSlot := by
  unfold State.abortTest
  dsimp only
  split
  · rfl
  · have hnotice := fun k l w => (State.notice_quiet k p l w).net.port Port.stopSlot (fun _ => rfl) q
    refine (hnotice _ _ _).trans ((congrArg Port.stopSlot (State.port_lower ⟨.link, p⟩ (fun s => s.modPort p Port.leaveTest) s q) :).trans ?_)
    exact State.port_modPort_keep Port.stopSlot s p q Port.leaveTest fun _ => rfl

theorem State.stopSlot_writeOrder {p : Nat} (hp : p < 12) (hl : (s.port p).link ≠ .disabled) (o : StopOrder) :
    ((s.writeOrder p o).port p).stopSlot = some (slotAfter o (s.port p).stopSlot) := by
  have hlink : ((s.abortTest p).port p).link ≠ .disabled := by rw [(State.abortTest_commands p s).links]; exact hl
  rw [← State.stopSlot_abortTest p p s]
  unfold State.writeOrder
  dsimp only
  rw [if_neg hlink]
  generalize s.abortTest p = w at hlink
  refine (congrArg Port.stopSlot ((Net.port_modPort w.net p p _).trans (if_pos ⟨rfl, hp⟩))).trans ?_
  refine (congrArg Port.stopSlot (if_neg hlink)).trans ?_
  show some _ = some (slotAfter o (w.port p).stopSlot)
  rw [show (w.net.port p).stopSlot = (w.port p).stopSlot from rfl]
  cases (w.port p).stopSlot <;> rfl

theorem State.stopSlot_writeOrder_other {p q : Nat} (h : p ≠ q) (o : StopOrder) (s : State) :
    ((s.writeOrder p o).port q).stopSlot = (s.port q).stopSlot := by
  rw [← State.stopSlot_abortTest p q s]
  unfold State.writeOrder
  dsimp only
  split
  · rfl
  · exact congrArg Port.stopSlot ((Net.port_modPort (s.abortTest p).net p q _).trans (if_neg fun hpq => h hpq.1))

/-! ### The ports of a stand (R3, R161) -/

/-- The first element of the accumulator stays first, and no later one has its first component. -/
theorem firsts_cons (a : Nat × Nat) (l : List (Nat × Nat)) : ∀ acc : List (Nat × Nat), (∀ x ∈ acc, x.1 ≠ a.1) →
    ∃ r, l.foldl (fun l x => if l.any (·.1 == x.1) then l else l ++ [x]) (a :: acc) = a :: r ∧ ∀ x ∈ r, x.1 ≠ a.1 := by
  induction l with
  | nil => exact fun acc h => ⟨acc, rfl, h⟩
  | cons b l ih =>
    intro acc h
    rw [List.foldl_cons]
    by_cases hb : (a :: acc).any (·.1 == b.1) = true
    · rw [if_pos hb]
      exact ih acc h
    · rw [if_neg hb]
      refine ih (acc ++ [b]) fun x hx => ?_
      rcases List.mem_append.1 hx with hx | hx
      · exact h x hx
      · rw [List.mem_singleton.1 hx]
        intro heq
        exact hb (List.any_eq_true.2 ⟨a, List.mem_cons_self, beq_iff_eq.2 heq.symm⟩)

theorem stopTargets_cons (r : StandRecord) : ∃ l, stopTargets r = (r.port, r.node) :: l ∧ ∀ x ∈ l, x.1 ≠ r.port :=
  firsts_cons (r.port, r.node) (r.extras.map fun x : Nat × Nat => (x.2, x.1)) [] fun _ h => absurd h List.not_mem_nil

theorem State.stopSlot_writeOrders {n q : Nat} (hq : (s.stand n).record.port = q) (h12 : q < 12) (hl : (s.port q).link ≠ .disabled)
    (cls : Severity) (mask : Byte) (e : Nat) (count : Byte) : ((s.writeOrders n cls mask e count).port q).stopSlot =
      some (slotAfter ⟨cls, mask, e, count, BitVec.ofNat 8 (s.stand n).record.node⟩ (s.port q).stopSlot) := by
  obtain ⟨l, hsplit, hother⟩ := stopTargets_cons (s.stand n).record
  have hrest : ∀ (l : List (Nat × Nat)) (w : State), (∀ x ∈ l, x.1 ≠ q) → ((l.foldl (fun s (t : Nat × Nat) =>
      s.writeOrder t.1 ⟨cls, mask, e, count, BitVec.ofNat 8 t.2⟩) w).port q).stopSlot = (w.port q).stopSlot := fun l => by
    induction l with
    | nil => exact fun _ _ => rfl
    | cons x l ih =>
      exact fun w h => (ih _ fun y hy => h y (List.mem_cons_of_mem x hy)).trans
        (State.stopSlot_writeOrder_other (h x List.mem_cons_self) _ w)
  unfold State.writeOrders
  rw [hsplit, List.foldl_cons, hrest l _ fun x hx => hq ▸ hother x hx, hq]
  exact State.stopSlot_writeOrder h12 hl _

/-! ### The repeat timer (R162) -/

theorem State.repeatExpiry_tripped {n : Nat} {x : Trip} (h : (s.stand n).mode = .tripped x) : s.repeatExpiry n =
    (s.modStand n fun S => { S with mode := .tripped { x with count := x.count + 1, timer := s.trip.interval } }).writeOrders n x.cls
      (maskOf n) x.entry (x.count + 1) := by
  unfold State.repeatExpiry
  rw [h]

theorem State.repeatExpiry_still {n : Nat} (h : (s.stand n).isTripped = false) : s.repeatExpiry n = s := by
  unfold State.repeatExpiry
  split
  · rename_i x hx
    rw [Stand.isTripped, Stand.tripOf_eq_some.2 hx] at h
    exact Bool.noConfusion h
  · rfl

/-- Settles O50: the stand's count, then its order merged into the slot of its port. -/
theorem repeatTimerWritesTheOrderAgain : Obligations.RepeatTimerWritesTheOrderAgain := by
  unfold Obligations.RepeatTimerWritesTheOrderAgain
  intro s n
  refine ⟨fun h => congrArg Host.Outcome.next (State.repeatExpiry_still h), fun x q node hx hq hnode h12 hl => ?_⟩
  have h1 : 1 ≤ n.val + 1 := by omega
  have h8 : n.val + 1 ≤ 8 := by omega
  generalize hv : (s.modStand (n + 1) fun S =>
    { S with mode := .tripped { x with count := x.count + 1, timer := s.trip.interval } }) = v
  have hrecord : (v.stand (n + 1)).record = (s.stand (n + 1)).record := by
    rw [← hv]
    exact State.stand_modStand_keep Stand.record s _ _ _ fun _ => rfl
  have hport : v.port q = s.port q := by rw [← hv, State.port, State.net_modStand]; rfl
  have hslot := State.stopSlot_writeOrders (s := v) (n := n + 1) (q := q) (by rw [hrecord]; exact hq) h12 (by rw [hport]; exact hl)
    x.cls (maskOf (n + 1)) x.entry (x.count + 1)
  rw [hport, hrecord, ← hnode] at hslot
  refine ⟨_, v, rfl, ?_, State.writeOrders_event (n + 1) x.cls (maskOf (n + 1)) x.entry (x.count + 1) v,
    State.stand_of_stands (State.stands_writeOrders _ _ _ _ _ v), fun hnone => ?_, fun o ho => ?_⟩
  · rw [← hv]
    exact congrArg Host.Outcome.next (State.repeatExpiry_tripped hx)
  · rw [hslot, hnone]
    rfl
  · rw [hslot, ho]
    show some (mergeOrders o _) = _
    unfold mergeOrders
    by_cases hd : o.dest = node
    · simp [hd]
    · simp [hd, Config.broadcast]

end Sys2Proof.Machine
end

section
/-! PROOFS. Loads of the trip matrix, and the output lines (R158, R159, R167). -/

namespace Sys2Proof.Machine

variable {s t u v : State}

/-! ### LOAD TRIP ENTRY (R158, R159) -/

theorem State.modEntry_modEntry (e : Nat) (f g : TripEntry → TripEntry) (s : State) :
    (s.modEntry e f).modEntry e g = s.modEntry e fun x => g (f x) := by
  by_cases he : e < 64
  · have hread : (s.modEntry e f).entry e = f (s.entry e) := by rw [State.entry_modEntry, if_pos ⟨rfl, he⟩]
    unfold State.modEntry at hread ⊢
    rw [hread]
    simp only [setAt_setAt]
  · have hout : ∀ (w : State) (x : TripEntry → TripEntry), w.modEntry e x = w := fun w x => by
      unfold State.modEntry setAt
      rw [Vector.setIfInBounds_eq_of_size_le (by omega)]
    rw [hout, hout, hout]

section
variable {e : Nat} {r : TripEntryRecord}

/-- An entry in range takes its record where the matrix is not protected (R158). -/
theorem reqLoadTripEntry_eq (he : e < 64) (hr : TripEntryRecord.inRange r = true) (hp : s.trip.protect = false) :
    (reqLoadTripEntry e r s).1 = if r.enabled = true ∧ s.level r.cond = true then
      ((s.modEntry e fun _ => ⟨r, .idle⟩).setModified secTrip).proceed [e]
    else (s.modEntry e fun _ => ⟨r, .idle⟩).setModified secTrip := by
  unfold reqLoadTripEntry
  rw [if_neg (by simp [hr, he]), if_neg (by rw [hp]; exact Bool.false_ne_true)]
  dsimp only
  rw [show (((s.modEntry e fun _ => ⟨r, .idle⟩).setModified secTrip).level r.cond) = s.level r.cond from rfl]
  cases r.enabled <;> cases s.level r.cond <;> rfl

theorem reqLoadTripEntry_protected (he : e < 64) (hr : TripEntryRecord.inRange r = true) (hp : s.trip.protect = true) :
    reqLoadTripEntry e r s = (s, .refused .protected_ []) := by
  unfold reqLoadTripEntry
  rw [if_neg (by simp [hr, he]), if_pos hp]
  rfl

theorem reqLoadTripInterval_eq {k : Nat} (h5 : 5 ≤ k) (h100 : k ≤ 100) : reqLoadTripInterval k s =
    if s.trip.protect = true then (s, .refused .protected_ []) else
      ({ s with trip := { s.trip with interval := k } }.setModified secTrip, .done []) := by
  unfold reqLoadTripInterval
  rw [if_neg (by simp only [Bool.or_eq_true, decide_eq_true_eq]; omega)]
  rfl

/-- A loaded entry whose condition is active starts (R159). -/
theorem State.proceed_loaded (he : e < 64) (s : State) : ((s.modEntry e fun _ => ⟨r, .idle⟩).setModified secTrip).proceed [e] =
    if r.delay = 0 then ((s.modEntry e fun _ => ⟨r, .fired⟩).setModified secTrip).fire e r.cls r.mask (.cond r.cond)
    else (s.modEntry e fun _ => ⟨r, .timing r.delay⟩).setModified secTrip := by
  generalize hw : (s.modEntry e fun _ => ⟨r, .idle⟩).setModified secTrip = w
  have hentry : w.entry e = ⟨r, .idle⟩ := by
    rw [← hw]
    exact (State.entry_modEntry s e e fun _ => ⟨r, .idle⟩).trans (if_pos ⟨rfl, he⟩)
  have hidle : w.idleOf [e] = [e] := List.filter_cons_of_pos (by rw [hentry]; rfl)
  have hstart : w.startEntries [e] =
      (s.modEntry e fun _ => ⟨r, if r.delay = 0 then .fired else .timing r.delay⟩).setModified secTrip := by
    rw [← hw]
    exact congrArg (State.setModified secTrip) (State.modEntry_modEntry e (fun _ => ⟨r, .idle⟩) TripEntry.start s)
  rw [State.proceed_eq, hidle, hstart]
  unfold State.firesOf
  rw [hidle]
  by_cases hd : r.delay = 0
  · rw [List.filter_cons_of_pos (by rw [hentry]; exact beq_iff_eq.2 hd), if_pos hd, if_pos hd]
    refine State.fireEntry_eq ?_
    exact congrArg TripEntry.record ((State.entry_modEntry s e e fun _ => ⟨r, .fired⟩).trans (if_pos ⟨rfl, he⟩))
  · rw [List.filter_cons_of_neg (by rw [hentry, beq_iff_eq]; exact hd), if_neg hd, if_neg hd]
    rfl

end

/-- Settles O52: a protected matrix refuses both forms; else the interval, and the entry with its start. -/
theorem loadTripEntryTakesTheRecord : Obligations.LoadTripEntryTakesTheRecord := by
  unfold Obligations.LoadTripEntryTakesTheRecord
  intro s a e r k hs he hsource hdelay h5 h100
  have hr : TripEntryRecord.inRange r = true := by simp [TripEntryRecord.inRange, hsource, hdelay]
  have hlevel := fun f tags => State.level_held (s := s) (a := a) (f := f) (tags := tags) r.cond
  refine ⟨_, _, rfl, rfl, fun hp => ⟨?_, ?_, fun hcan => ⟨?_, ?_⟩⟩, fun hp => ⟨?_, fun hoff => ?_, fun hon hl hd => ?_,
    fun c hon hl hd hc => ?_⟩⟩
  · refine State.ask_quiet a (.loadTripEntry e r) s _ hs (fun f tags => ?_) rfl
    have hcarry : ((s.taken a.port).hold f tags).carryOut s.net.nextId a (.loadTripEntry e r) = _ :=
      reqLoadTripEntry_protected he hr hp
    rw [hcarry]
    exact .refl _
  · refine State.ask_quiet a (.loadTripInterval k) s _ hs (fun f tags => ?_) rfl
    have hcarry : ((s.taken a.port).hold f tags).carryOut s.net.nextId a (.loadTripInterval k) = _ :=
      (reqLoadTripInterval_eq h5 h100).trans (if_pos hp)
    rw [hcarry]
    exact .refl _
  · exact (State.ask_refused (r := .loadTripEntry e r) hcan fun w _ _ _ _ htrip =>
      reqLoadTripEntry_protected he hr (by rw [htrip]; exact hp)).2
  · exact (State.ask_refused (r := .loadTripInterval k) hcan fun w _ _ _ _ htrip =>
      (reqLoadTripInterval_eq h5 h100).trans (if_pos (by rw [htrip]; exact hp))).2
  · refine State.ask_quiet a (.loadTripInterval k) s _ hs (fun f tags => ?_) rfl
    have hcarry : ((s.taken a.port).hold f tags).carryOut s.net.nextId a (.loadTripInterval k) = _ :=
      (reqLoadTripInterval_eq h5 h100).trans (if_neg (by rw [show ((s.taken a.port).hold f tags).trip.protect = false from hp]; decide))
    rw [hcarry]
    exact .refl _
  all_goals
    have hcarry : ∀ (f : Frame) (tags : List BlockTag), (((s.taken a.port).hold f tags).carryOut s.net.nextId a (.loadTripEntry e r)).1 =
        _ := fun f tags => reqLoadTripEntry_eq (s := (s.taken a.port).hold f tags) he hr hp
  · refine State.ask_quiet a (.loadTripEntry e r) s _ hs (fun f tags => ?_) rfl
    have hstays : ¬ (r.enabled = true ∧ ((s.taken a.port).hold f tags).level r.cond = true) := fun ⟨h1, h2⟩ => by
      rcases hoff with h | h
      · rw [h] at h1
        exact Bool.false_ne_true h1
      · rw [hlevel f tags, h] at h2
        exact Bool.false_ne_true h2
    rw [hcarry, if_neg hstays]
    exact .refl _
  · refine State.ask_quiet a (.loadTripEntry e r) s _ hs (fun f tags => ?_) rfl
    rw [hcarry, if_pos ⟨hon, (hlevel f tags).trans hl⟩, State.proceed_loaded he, if_neg hd]
    exact .refl _
  · refine State.ask_stopped hs (fun f tags => ?_) rfl
    rw [hcarry, if_pos ⟨hon, (hlevel f tags).trans hl⟩, State.proceed_loaded he, if_pos hd, hc]
    rfl

end Sys2Proof.Machine
end

section
/-! PROOFS. RESET TRIP (R121, R168, R169). -/

namespace Sys2Proof.Machine

variable {s t u v : State}

/-! ### Orders written over (R46) -/

/-- Other orders in the stop slots. -/
@[irreducible] def Net.withOrders (f : Nat → Option StopOrder) (n : Net) : Net :=
  { n with ports := Vector.ofFn fun q : Fin 12 => { n.port q with stopSlot := f q } }

theorem Net.port_withOrders (f : Nat → Option StopOrder) (n : Net) {q : Nat} (hq : q < 12) :
    (n.withOrders f).port q = { n.port q with stopSlot := f q } := by
  unfold Net.withOrders
  exact getAt_ofFn _ _ hq

theorem Net.withOrders_rest (f : Nat → Option StopOrder) (n : Net) :
    n.withOrders f = { n with ports := (n.withOrders f).ports } := by
  unfold Net.withOrders
  rfl

theorem Net.port_withOrders_outside (f : Nat → Option StopOrder) (n : Net) {q : Nat} (hq : ¬ q < 12) :
    (n.withOrders f).port q = n.port q := by
  unfold Net.withOrders Net.port getAt
  rw [Vector.getElem?_eq_none (by omega), Vector.getElem?_eq_none (by omega)]

theorem Net.port_withOrders_keep {α : Type} (π : Port → α) (h : ∀ (P : Port) o, π { P with stopSlot := o } = π P)
    (f : Nat → Option StopOrder) (n : Net) (q : Nat) : π ((n.withOrders f).port q) = π (n.port q) := by
  by_cases hq : q < 12
  · rw [Net.port_withOrders f n hq, h]
  · rw [Net.port_withOrders_outside f n hq]

theorem Net.frames_withOrders (f : Nat → Option StopOrder) (n : Net) : (n.withOrders f).frames = n.frames := by
  rw [Net.withOrders_rest]

theorem Net.nextId_withOrders (f : Nat → Option StopOrder) (n : Net) : (n.withOrders f).nextId = n.nextId := by
  rw [Net.withOrders_rest]

theorem Net.sound_withOrders (f : Nat → Option StopOrder) (n : Net) : (n.withOrders f).Sound ↔ n.Sound := by
  have hframes := Net.frames_withOrders f n
  have hid := Net.nextId_withOrders f n
  exact ⟨fun h => ⟨hframes ▸ h.refs, hframes ▸ hid ▸ h.ids, hframes ▸ h.nodup⟩,
    fun h => ⟨hframes.symm ▸ h.refs, by rw [hframes, hid]; exact h.ids, hframes.symm ▸ h.nodup⟩⟩

theorem Net.exact_withOrders (f : Nat → Option StopOrder) (n : Net) (us : List Nat) : (n.withOrders f).Exact us ↔ n.Exact us := by
  have hrefs : ∀ id, (n.withOrders f).refsTo id = n.refsTo id := fun id => by
    unfold Net.refsTo
    refine congrArg List.sum (List.map_congr_left fun p _ => ?_)
    exact Net.port_withOrders_keep (fun P => P.refsTo id) (fun _ _ => rfl) f n p
  have hframes := Net.frames_withOrders f n
  have hid := Net.nextId_withOrders f n
  refine ⟨fun h => h.of_frames ?_ hid.symm fun id => (hrefs id).symm, fun h => h.of_frames ?_ hid hrefs⟩
  · rw [hframes]
  · rw [hframes]

theorem Net.Quiet.withOrders {n m : Net} (h : n.Quiet m) (f : Nat → Option StopOrder) : (n.withOrders f).Quiet (m.withOrders f) where
  ports q := by
    by_cases hq : q < 12
    · rw [Net.port_withOrders f m hq, Net.port_withOrders f n hq]
      exact congrArg (fun P : Port => { P with stopSlot := f q }) (h.ports q)
    · rw [Net.port_withOrders_outside f m hq, Net.port_withOrders_outside f n hq]
      exact h.ports q
  queues q := by
    rw [Net.port_withOrders_keep Port.queue (fun _ _ => rfl), Net.port_withOrders_keep Port.queue fun _ _ => rfl]
    exact h.queues q
  frames := fun hs => by
    obtain ⟨hsound, hid, hframes⟩ := h.frames ((Net.sound_withOrders f n).1 hs)
    refine ⟨(Net.sound_withOrders f m).2 hsound, ?_, ?_⟩
    · rw [Net.nextId_withOrders, Net.nextId_withOrders]
      exact hid
    · rw [Net.frames_withOrders, Net.frames_withOrders, Net.nextId_withOrders]
      exact hframes
  exact us hx := (Net.exact_withOrders f m us).2 (h.exact us ((Net.exact_withOrders f n us).1 hx))

theorem Net.ext_ports {n m : Net} (h : ∀ q, q < 12 → m.port q = n.port q) (hrest : m = { n with ports := m.ports }) : m = n := by
  have hports : m.ports = n.ports := by
    ext q hq
    have hget : ∀ v : Vector Port 12, getAt v (Port.cold (builtInPort .disabled) false) q = v[q] := fun v => by
      unfold getAt
      rw [Vector.getElem?_eq_getElem hq]
      rfl
    have := h q hq
    unfold Net.port at this
    rw [hget, hget] at this
    exact this
  rw [hrest, hports]

/-- A part but for its stands, its pending orders, its log and its count of refused resets, which are those of `t`. -/
def State.like (s t : State) : State :=
  { s with
    net := s.net.withOrders fun q => (t.port q).stopSlot
    stands := t.stands
    trip := { s.trip with log := t.trip.log, refusedResets := t.trip.refusedResets } }

/-- `t` is `s` but for the stands, the pending orders, the log and the count of refused resets, and frames of the part's own
making. -/
structure ResetFrame (s t : State) : Prop where
  quiet : QuietFrame (s.like t) t

theorem Net.withOrders_withOrders (f g : Nat → Option StopOrder) (n : Net) : (n.withOrders f).withOrders g = n.withOrders g := by
  refine Net.ext_ports (fun q hq => ?_) ?_
  · rw [Net.port_withOrders _ _ hq, Net.port_withOrders _ _ hq, Net.port_withOrders _ _ hq]
  · rw [Net.withOrders_rest g (n.withOrders f), Net.withOrders_rest f n, Net.withOrders_rest g n]

theorem QuietFrame.like (h : QuietFrame s t) (u : State) : QuietFrame (s.like u) (t.like u) := by
  obtain ⟨hrest, hnet⟩ := h
  generalize t.net = m at hrest hnet
  subst hrest
  exact ⟨rfl, hnet.withOrders _⟩

theorem State.like_like (s t u : State) : (s.like t).like u = s.like u := by
  unfold State.like
  rw [Net.withOrders_withOrders]

theorem State.like_eq (hports : ∀ q, q < 12 → t.port q = { s.port q with stopSlot := (t.port q).stopSlot })
    (hrest : t = { s with
      net := { s.net with ports := t.net.ports }
      stands := t.stands
      trip := { s.trip with log := t.trip.log, refusedResets := t.trip.refusedResets } }) : s.like t = t := by
  have hnet : t.net = s.net.withOrders fun q => (t.port q).stopSlot := by
    refine Net.ext_ports (fun q hq => ?_) ?_
    · rw [Net.port_withOrders _ _ hq]
      exact hports q hq
    · rw [Net.withOrders_rest, hrest]
  unfold State.like
  rw [← hnet]
  conv_rhs => rw [hrest]
  conv_lhs => rw [hrest]

theorem State.like_self (s : State) : s.like s = s := State.like_eq (s := s) (t := s) (fun _ _ => rfl) rfl

theorem ResetFrame.refl (s : State) : ResetFrame s s := ⟨by rw [s.like_self]; exact .refl s⟩

theorem ResetFrame.trans (h : ResetFrame s t) (g : ResetFrame t u) : ResetFrame s u where
  quiet := by
    have := (h.quiet.like u).trans g.quiet
    rwa [State.like_like] at this

theorem QuietFrame.reset (h : QuietFrame s t) : ResetFrame s t where
  quiet := by
    have := h.like t
    rwa [t.like_self] at this

theorem ResetFrame.modStand (n : Nat) (f : Stand → Stand) (s : State) : ResetFrame s (s.modStand n f) := by
  have hlike : s.like (s.modStand n f) = s.modStand n f := by
    refine State.like_eq (fun q _ => by rw [State.port, State.net_modStand]; rfl) ?_
    unfold State.modStand
    split <;> rfl
  refine ⟨?_⟩
  rw [hlike]
  exact .refl _

theorem ResetFrame.trip (log : List LogRecord) (k : Nat) (s : State) :
    ResetFrame s { s with trip := { s.trip with log := log, refusedResets := k } } := by
  generalize ht : ({ s with trip := { s.trip with log := log, refusedResets := k } } : State) = t
  have hlike : s.like t = t := State.like_eq (fun _ _ => by rw [← ht]; rfl) (by rw [← ht])
  refine ⟨?_⟩
  rw [hlike]
  exact .refl _

theorem ResetFrame.entry (h : ResetFrame s t) (e : Nat) : t.entry e = s.entry e := (h.quiet.entry e).trans rfl

theorem ResetFrame.port (h : ResetFrame s t) {α : Type} (π : Port → α) (hπ : ∀ (P : Port) o, π { P with stopSlot := o } = π P)
    (hq : ∀ P : Port, π P.unqueued = π P) (q : Nat) : π (t.port q) = π (s.port q) :=
  (h.quiet.net.port_eq π hq q).trans (Net.port_withOrders_keep π hπ _ s.net q)

theorem ResetFrame.causeActive (h : ResetFrame s t) (n : Nat) : t.causeActive n = s.causeActive n := by
  have hrefs : ∀ c, t.refs c = s.refs c := fun c => by
    unfold State.refs
    simp only [h.entry]
  unfold State.causeActive State.unmappedPanels
  simp only [h.entry, hrefs, h.port Port.panel (fun _ _ => rfl) fun _ => rfl]


/-! ### One stand reset (R121, R169) -/

theorem mem_firsts_back {l : List (Nat × Nat)} {i : Nat} : ∀ acc : List (Nat × Nat),
    (∃ x ∈ l.foldl (fun l x => if l.any (·.1 == x.1) then l else l ++ [x]) acc, x.1 = i) → ∃ x ∈ acc ++ l, x.1 = i := by
  induction l with
  | nil => exact fun acc h => by simpa using h
  | cons a l ih =>
    intro acc h
    rw [List.foldl_cons] at h
    obtain ⟨x, hx, hi⟩ := ih _ h
    refine ⟨x, ?_, hi⟩
    split at hx
    · rcases List.mem_append.1 hx with hx | hx
      · exact List.mem_append_left _ hx
      · exact List.mem_append_right _ (List.mem_cons_of_mem a hx)
    · simpa using hx

theorem mem_stopTargets_iff {r : StandRecord} {q : Nat} : (∃ x ∈ stopTargets r, x.1 = q) ↔ q ∈ StandRecord.ports r := by
  refine ⟨fun h => ?_, mem_stopTargets⟩
  obtain ⟨x, hx, rfl⟩ := mem_firsts_back [] h
  rcases List.mem_cons.1 hx with rfl | hx
  · exact List.mem_cons_self
  · obtain ⟨y, hy, rfl⟩ := List.mem_map.1 hx
    exact List.mem_cons_of_mem _ (List.mem_map.2 ⟨y, hy, rfl⟩)

theorem dropFromOrder_twice (n : Nat) (o : Option StopOrder) : dropFromOrder n (dropFromOrder n o) = dropFromOrder n o := by
  cases o with
  | none => rfl
  | some o =>
    have htwice : o.mask &&& ~~~(maskOf n) &&& ~~~(maskOf n) = o.mask &&& ~~~(maskOf n) := by
      rw [BitVec.and_assoc, BitVec.and_self]
    by_cases h : o.mask &&& ~~~(maskOf n) = 0#8
    · have hnone : dropFromOrder n (some o) = none := if_pos h
      rw [hnone]
      rfl
    · have hsome : dropFromOrder n (some o) = some { o with mask := o.mask &&& ~~~(maskOf n) } := if_neg h
      rw [hsome]
      refine (if_neg ?_).trans ?_
      · rw [htwice]
        exact h
      · rw [htwice]

/-- A stand leaves the pending orders of its ports (R169). -/
def State.withdraw (n : Nat) (s : State) : State := (stopTargets (s.stand n).record).foldl
  (fun s t => s.modPort t.1 fun P => { P with stopSlot := dropFromOrder n P.stopSlot }) s

theorem State.withdraws_spec (n : Nat) (l : List (Nat × Nat)) (s : State) :
    (l.foldl (fun s t => s.modPort t.1 fun P => { P with stopSlot := dropFromOrder n P.stopSlot }) s = { s with
      net := { s.net with ports := (l.foldl (fun s t => s.modPort t.1 fun P =>
        { P with stopSlot := dropFromOrder n P.stopSlot }) s).net.ports } }) ∧
    ∀ q, (l.foldl (fun s t => s.modPort t.1 fun P => { P with stopSlot := dropFromOrder n P.stopSlot }) s).port q =
      { s.port q with stopSlot := if ∃ x ∈ l, x.1 = q then dropFromOrder n (s.port q).stopSlot else (s.port q).stopSlot } := by
  induction l generalizing s with
  | nil => exact ⟨rfl, fun q => by simp⟩
  | cons a l ih =>
    obtain ⟨hrest, hports⟩ := ih (s.modPort a.1 fun P => { P with stopSlot := dropFromOrder n P.stopSlot })
    refine ⟨hrest, fun q => (hports q).trans ?_⟩
    have hfirst : (s.modPort a.1 fun P => { P with stopSlot := dropFromOrder n P.stopSlot }).port q =
        { s.port q with stopSlot := if a.1 = q then dropFromOrder n (s.port q).stopSlot else (s.port q).stopSlot } := by
      rw [State.port_modPort]
      by_cases haq : a.1 = q
      · subst haq
        by_cases h12 : a.1 < 12
        · rw [if_pos ⟨rfl, h12⟩, if_pos rfl]
        · rw [if_neg fun h => h12 h.2, if_pos rfl, State.port_outside s h12]
          rfl
      · rw [if_neg fun h => haq h.1, if_neg haq]
    rw [hfirst]
    by_cases hl : ∃ x ∈ l, x.1 = q
    · obtain ⟨x, hx, hxq⟩ := hl
      rw [if_pos (c := ∃ x ∈ l, x.1 = q) ⟨x, hx, hxq⟩, if_pos (c := ∃ x ∈ a :: l, x.1 = q) ⟨x, List.mem_cons_of_mem a hx, hxq⟩]
      by_cases haq : a.1 = q
      · rw [if_pos haq, dropFromOrder_twice]
      · rw [if_neg haq]
    · rw [if_neg hl]
      by_cases haq : a.1 = q
      · rw [if_pos haq, if_pos (c := ∃ x ∈ a :: l, x.1 = q) ⟨a, List.mem_cons_self, haq⟩]
      · rw [if_neg haq, if_neg (c := ∃ x ∈ a :: l, x.1 = q)]
        rintro ⟨x, hx, hxq⟩
        rcases List.mem_cons.1 hx with rfl | hx
        · exact haq hxq
        · exact hl ⟨x, hx, hxq⟩

theorem State.withdraw_spec (n : Nat) (s : State) :
    s.withdraw n = { s with net := { s.net with ports := (s.withdraw n).net.ports } } ∧
      ∀ q, (s.withdraw n).port q = { s.port q with
        stopSlot := if q ∈ StandRecord.ports (s.stand n).record then dropFromOrder n (s.port q).stopSlot else (s.port q).stopSlot } := by
  obtain ⟨hrest, hports⟩ := s.withdraws_spec n (stopTargets (s.stand n).record)
  refine ⟨hrest, fun q => (hports q).trans ?_⟩
  rw [if_congr mem_stopTargets_iff rfl rfl]

theorem State.withdraw_reset (n : Nat) (s : State) : ResetFrame s (s.withdraw n) := by
  obtain ⟨hrest, hports⟩ := s.withdraw_spec n
  generalize s.withdraw n = t at hrest hports
  have hlike : s.like t = t := State.like_eq (fun q _ => by rw [hports]) (by rw [hrest])
  refine ⟨?_⟩
  rw [hlike]
  exact .refl _

/-- A stand as RESET TRIP leaves it (R121). -/
def Stand.reset (S : Stand) : Stand := { S with mode := .ready, base := S.lastCommand, biteOnRun := 0, followingRun := 0 }

section
variable {n : Nat}

theorem State.resetStand_eq (h1 : 1 ≤ n) (h8 : n ≤ 8) (hm : (s.stand n).moveFailed = false) : s.resetStand n =
    ((s.modStand n fun S => { S with base := S.lastCommand, biteOnRun := 0 }).withdraw n).changeMode n .ready .reset := by
  have hlower : (s.modStand n fun S => { S with base := S.lastCommand, biteOnRun := 0 }).lower ⟨.moveFailed, n⟩
      (fun s => s.modStand n fun S => { S with moveFailed := false }) =
        s.modStand n fun S => { S with base := S.lastCommand, biteOnRun := 0 } := by
    have hlevel : (s.modStand n fun S => { S with base := S.lastCommand, biteOnRun := 0 }).level ⟨.moveFailed, n⟩ = false := by
      show ((s.modStand n fun S => { S with base := S.lastCommand, biteOnRun := 0 }).stand n).moveFailed = false
      rw [State.stand_modStand_self h1 h8]
      exact hm
    unfold State.lower
    dsimp only
    rw [hlevel, if_neg (by simp)]
    rw [State.modStand_modStand]
    exact State.modStand_congr (by rw [← hm])
  unfold State.resetStand
  dsimp only
  rw [hlower]
  rfl

theorem State.resetStand_spec (h1 : 1 ≤ n) (h8 : n ≤ 8) (hm : (s.stand n).moveFailed = false) (hf : (s.stand n).following = false) :
    ResetFrame s (s.resetStand n) ∧ (∀ m, (s.resetStand n).stand m = if m = n then (s.stand n).reset else s.stand m) ∧
      (∀ q, ((s.resetStand n).port q).stopSlot =
        if q ∈ StandRecord.ports (s.stand n).record then dropFromOrder n (s.port q).stopSlot else (s.port q).stopSlot) ∧
      (s.resetStand n).trip = s.trip := by
  rw [State.resetStand_eq h1 h8 hm]
  generalize hw : s.modStand n (fun S => { S with base := S.lastCommand, biteOnRun := 0 }) = w
  have hwstand : w.stand n = { s.stand n with base := (s.stand n).lastCommand, biteOnRun := 0 } := by
    rw [← hw, State.stand_modStand_self h1 h8]
  have hwport : ∀ q, w.port q = s.port q := fun q => by rw [← hw, State.port, State.net_modStand]; rfl
  have hwframe : ResetFrame s w := hw ▸ .modStand n _ s
  obtain ⟨hrest, hports⟩ := w.withdraw_spec n
  have hwithdraw := w.withdraw_reset n
  generalize w.withdraw n = x at hrest hports hwithdraw
  have hxstand : ∀ m, x.stand m = w.stand m := State.stand_of_stands (by rw [hrest])
  have hquiet := State.changeMode_ready_clear (s := x) h1 h8 (by rw [hxstand, hwstand]; exact hf) .reset
  refine ⟨(hwframe.trans hwithdraw).trans ((ResetFrame.modStand n _ x).trans hquiet.reset), fun m => ?_, fun q => ?_, ?_⟩
  · rw [hquiet.stand, State.stand_modStand]
    by_cases hmn : m = n
    · subst hmn
      rw [if_pos ⟨rfl, h1, h8⟩, if_pos rfl, hxstand, hwstand, ← hf]
      rfl
    · rw [if_neg fun h => hmn h.1.symm, if_neg hmn, hxstand, ← hw, State.stand_modStand_other (Ne.symm hmn)]
  · have hslot : ((x.changeMode n .ready .reset).port q).stopSlot = (x.port q).stopSlot :=
      (hquiet.net.port Port.stopSlot (fun _ => rfl) q).trans (by rw [State.net_modStand]; rfl)
    rw [hslot, hports, hwport, hwstand]
  · rw [hquiet.trip, State.trip_modStand, hrest, ← hw, State.trip_modStand]

end

end Sys2Proof.Machine
end

section
/-! PROOFS. RESET TRIP on the stands of a mask (R168, R169). -/

namespace Sys2Proof.Machine

variable {s t u v : State}

/-! ### The stands reset and the stands refused (R169) -/

/-- The request resets the stand: masked, TRIPPED, and without an active cause. -/
def State.frees (mask : Byte) (s : State) (n : Nat) : Bool := inMask mask n && (s.stand n).isTripped && !s.causeActive n

/-- The request refuses the stand: masked, TRIPPED, and with an active cause. -/
def State.refuses (mask : Byte) (s : State) (n : Nat) : Bool := inMask mask n && (s.stand n).isTripped && s.causeActive n

/-- The log once its episode is over: no record is FIRST (R168). -/
def unfirst (l : List LogRecord) : List LogRecord := l.map fun r => { r with first := false }

/-- What RESET TRIP makes of the stands of `l` (R169). -/
structure ResetResult (mask : Byte) (l : List Nat) (s : State) (r : State × List Nat × List Nat) : Prop where
  reset : r.2.1 = l.filter (s.frees mask)
  refused : r.2.2 = l.filter (s.refuses mask)
  frame : ResetFrame s r.1
  stands : ∀ n, r.1.stand n = if n ∈ l.filter (s.frees mask) then (s.stand n).reset else s.stand n
  slots : ∀ q, (r.1.port q).stopSlot = (l.filter (s.frees mask)).foldl
    (fun o n => if q ∈ StandRecord.ports (s.stand n).record then dropFromOrder n o else o) (s.port q).stopSlot
  counted : r.1.trip.refusedResets = bump^[(l.filter (s.refuses mask)).length] s.trip.refusedResets
  log : r.1.trip.log = if l.filter (s.frees mask) ≠ [] ∧ r.1.anyTripped = false then unfirst s.trip.log else s.trip.log

section
variable {mask : Byte} {n : Nat} {ns : List Nat}

theorem ResetResult.skip {r : State × List Nat × List Nat} (h : ResetResult mask ns s r)
    (hn : (inMask mask n && (s.stand n).isTripped) = false) : ResetResult mask (n :: ns) s r := by
  have hfree : (n :: ns).filter (s.frees mask) = ns.filter (s.frees mask) :=
    List.filter_cons_of_neg (by rw [State.frees, hn]; exact Bool.false_ne_true)
  have hrefuse : (n :: ns).filter (s.refuses mask) = ns.filter (s.refuses mask) :=
    List.filter_cons_of_neg (by rw [State.refuses, hn]; exact Bool.false_ne_true)
  obtain ⟨hreset, hrefused, hframe, hstands, hslots, hcounted, hlog⟩ := h
  rw [← hfree] at hreset hstands hslots hlog
  rw [← hrefuse] at hrefused hcounted
  exact ⟨hreset, hrefused, hframe, hstands, hslots, hcounted, hlog⟩

theorem ResetResult.refuse {r : State × List Nat × List Nat}
    (h : ResetResult mask ns { s with trip := { s.trip with refusedResets := bump s.trip.refusedResets } } r)
    (hn : (inMask mask n && (s.stand n).isTripped) = true) (hc : s.causeActive n = true) :
    ResetResult mask (n :: ns) s (r.1, r.2.1, n :: r.2.2) := by
  have hfree : (n :: ns).filter (s.frees mask) = ns.filter (s.frees mask) :=
    List.filter_cons_of_neg (by rw [State.frees, hn, hc]; exact Bool.false_ne_true)
  have hrefuse : (n :: ns).filter (s.refuses mask) = n :: ns.filter (s.refuses mask) :=
    List.filter_cons_of_pos (by rw [State.refuses, hn, hc]; rfl)
  generalize hw : ({ s with trip := { s.trip with refusedResets := bump s.trip.refusedResets } } : State) = w at h
  have hframe : ResetFrame s w := hw ▸ .trip s.trip.log _ s
  have hstand : ∀ m, w.stand m = s.stand m := fun m => by rw [← hw]; rfl
  have hport : ∀ q, w.port q = s.port q := fun q => by rw [← hw]; rfl
  have hfrees : w.frees mask = s.frees mask := funext fun m => by
    rw [State.frees, State.frees, hstand, hframe.causeActive]
  have hrefuses : w.refuses mask = s.refuses mask := funext fun m => by
    rw [State.refuses, State.refuses, hstand, hframe.causeActive]
  obtain ⟨hreset, hrefused, hrest, hstands, hslots, hcounted, hlog⟩ := h
  rw [hfrees, ← hfree] at hreset hstands hslots hlog
  rw [hrefuses] at hrefused hcounted
  refine ⟨hreset, ?_, hframe.trans hrest, fun m => ?_, fun q => ?_, ?_, ?_⟩
  · rw [hrefuse]
    exact congrArg (n :: ·) hrefused
  · rw [hstands, hstand]
  · rw [hslots, hport]
    simp only [hstand]
  · rw [hcounted, hrefuse, List.length_cons, Function.iterate_succ_apply, ← hw]
  · rw [hlog, ← hw]

theorem State.anyTripped_congr (h : ∀ m, t.stand m = s.stand m) : t.anyTripped = s.anyTripped := by
  unfold State.anyTripped
  simp only [h]

/-- The end of an episode changes the log alone. -/
theorem State.closeEpisode_eq (s : State) : s.closeEpisode =
    { s with trip := { s.trip with log := if s.anyTripped = true then s.trip.log else unfirst s.trip.log } } := by
  unfold State.closeEpisode
  split <;> rfl

theorem ResetResult.free {r : State × List Nat × List Nat} (hn' : n ∉ ns) (h1 : 1 ≤ n) (h8 : n ≤ 8)
    (h : ResetResult mask ns (s.resetStand n).closeEpisode r) (hn : (inMask mask n && (s.stand n).isTripped) = true)
    (hc : s.causeActive n = false) (hm : (s.stand n).moveFailed = false) (hf : (s.stand n).following = false) :
    ResetResult mask (n :: ns) s (r.1, n :: r.2.1, r.2.2) := by
  have hfree : (n :: ns).filter (s.frees mask) = n :: ns.filter (s.frees mask) :=
    List.filter_cons_of_pos (by rw [State.frees, hn, hc]; rfl)
  have hrefuse : (n :: ns).filter (s.refuses mask) = ns.filter (s.refuses mask) :=
    List.filter_cons_of_neg (by rw [State.refuses, hn, hc]; exact Bool.false_ne_true)
  obtain ⟨hstep, hstand, hslot, htrip⟩ := State.resetStand_spec h1 h8 hm hf
  rw [State.closeEpisode_eq] at h
  generalize hw : ({ s.resetStand n with trip := { (s.resetStand n).trip with
    log := if (s.resetStand n).anyTripped = true then (s.resetStand n).trip.log else unfirst (s.resetStand n).trip.log } } : State) = w at h
  have hframe : ResetFrame s w := hstep.trans (hw ▸ .trip _ (s.resetStand n).trip.refusedResets _)
  have hwstand : ∀ m, w.stand m = if m = n then (s.stand n).reset else s.stand m := fun m => by rw [← hw]; exact hstand m
  have hwslot : ∀ q, (w.port q).stopSlot =
      if q ∈ StandRecord.ports (s.stand n).record then dropFromOrder n (s.port q).stopSlot else (s.port q).stopSlot := fun q => by
    rw [← hw]
    exact hslot q
  have hwlog : w.trip.log = if w.anyTripped = true then s.trip.log else unfirst s.trip.log := by
    rw [State.anyTripped_congr (s := s.resetStand n) fun m => by rw [← hw]; rfl, ← htrip, ← hw]
  have hwcount : w.trip.refusedResets = s.trip.refusedResets := by rw [← htrip, ← hw]
  have hother : ∀ m ∈ ns, w.stand m = s.stand m := fun m hm => by
    rw [hwstand, if_neg fun h : m = n => hn' (h ▸ hm)]
  have hfrees : ns.filter (w.frees mask) = ns.filter (s.frees mask) := List.filter_congr fun m hm => by
    rw [State.frees, State.frees, hother m hm, hframe.causeActive]
  have hrefuses : ns.filter (w.refuses mask) = ns.filter (s.refuses mask) := List.filter_congr fun m hm => by
    rw [State.refuses, State.refuses, hother m hm, hframe.causeActive]
  obtain ⟨hreset, hrefused, hrest, hstands, hslots, hcounted, hlog⟩ := h
  rw [hfrees] at hreset hstands hslots hlog
  rw [hrefuses] at hrefused hcounted
  have hmem : ∀ m, m ∈ ns.filter (s.frees mask) → m ∈ ns := fun m hm => (List.mem_filter.1 hm).1
  refine ⟨?_, ?_, hframe.trans hrest, fun m => ?_, fun q => ?_, ?_, ?_⟩
  · rw [hfree]
    exact congrArg (n :: ·) hreset
  · rw [hrefuse]
    exact hrefused
  · rw [hstands, hfree]
    by_cases hmn : m = n
    · subst hmn
      rw [if_neg fun h => hn' (hmem m h), if_pos List.mem_cons_self, hwstand, if_pos rfl]
    · rw [hwstand, if_neg hmn]
      exact if_congr (by rw [List.mem_cons]; exact (or_iff_right hmn).symm) rfl rfl
  · rw [hslots, hfree, List.foldl_cons, hwslot]
    refine List.foldl_ext _ _ _ fun o m hm => ?_
    rw [hother m (hmem m hm)]
  · rw [hcounted, hrefuse, hwcount]
  · rw [hlog, hwlog, hfree]
    by_cases hw0 : w.anyTripped = true
    · rw [if_pos hw0]
      refine if_congr (and_congr_left fun hr => ?_) rfl rfl
      refine ⟨fun _ => List.cons_ne_nil _ _, fun _ hnil => ?_⟩
      have hsame : r.1.anyTripped = w.anyTripped := State.anyTripped_congr fun m => by
        rw [hstands, hnil, if_neg List.not_mem_nil]
      rw [hsame, hw0] at hr
      exact Bool.noConfusion hr
    · have hnil : ns.filter (s.frees mask) = [] := List.filter_eq_nil_iff.2 fun m hm hfree => by
        refine hw0 (State.anyTripped_iff.2 ⟨m, ?_⟩)
        rw [hother m hm]
        simp only [State.frees, Bool.and_eq_true] at hfree
        exact hfree.1.2
      have hsame : r.1.anyTripped = w.anyTripped := State.anyTripped_congr fun m => by
        rw [hstands, hnil, if_neg List.not_mem_nil]
      rw [if_neg hw0, hnil, if_neg fun h => h.1 rfl, if_pos ⟨List.cons_ne_nil _ _, by simpa [hsame] using hw0⟩]

end

/-- RESET TRIP in a part whose stands have no FOLLOWING and no MOVE FAILED (R169). -/
theorem State.resetStands_result {mask : Byte} {l : List Nat} (hd : l.Nodup) (hv : ∀ n ∈ l, 1 ≤ n ∧ n ≤ 8) (s : State)
    (hclear : ∀ n ∈ l, (s.stand n).moveFailed = false ∧ (s.stand n).following = false) :
    ResetResult mask l s (s.resetStands mask l) := by
  induction l generalizing s with
  | nil => exact ⟨rfl, rfl, .refl s, fun _ => rfl, fun _ => rfl, rfl, rfl⟩
  | cons n ns ih =>
    obtain ⟨hn, hd⟩ := List.nodup_cons.1 hd
    obtain ⟨h1, h8⟩ := hv n List.mem_cons_self
    have hv' := fun m hm => hv m (List.mem_cons_of_mem n hm)
    have hclear' := fun m hm => hclear m (List.mem_cons_of_mem n hm)
    unfold State.resetStands
    cases hmask : inMask mask n && (s.stand n).isTripped with
    | false =>
      rw [if_neg Bool.false_ne_true]
      exact (ih hd hv' s hclear').skip hmask
    | true =>
      rw [if_pos rfl]
      cases hc : s.causeActive n with
      | true =>
        rw [if_pos rfl]
        refine ResetResult.refuse (ih hd hv' _ ?_) hmask hc
        exact hclear'
      | false =>
        rw [if_neg Bool.false_ne_true]
        obtain ⟨hm, hf⟩ := hclear n List.mem_cons_self
        obtain ⟨-, hstand, -⟩ := State.resetStand_spec h1 h8 hm hf
        refine (ih hd hv' _ fun m hm' => ?_).free hn h1 h8 hmask hc hm hf
        rw [State.closeEpisode_eq]
        have : (s.resetStand n).stand m = s.stand m := by rw [hstand, if_neg fun h : m = n => hn (h ▸ hm')]
        exact this.symm ▸ hclear' m hm'

/-! ### Pending orders without the stands reset (R169) -/

/-- The order with a mask of its own; none when it names no stand. -/
def orderOf (o : StopOrder) (m : Byte) : Option StopOrder := if m = 0#8 then none else some { o with mask := m }

theorem dropFromOrder_orderOf (n : Nat) (o : StopOrder) (m : Byte) :
    dropFromOrder n (orderOf o m) = orderOf o (m &&& ~~~(maskOf n)) := by
  unfold orderOf
  by_cases hm : m = 0#8
  · subst hm
    rw [if_pos rfl, BitVec.zero_and, if_pos rfl]
    rfl
  · rw [if_neg hm]
    rfl

theorem inMask_without (m : Byte) (n k : Nat) (h1 : 1 ≤ k) (h8 : k ≤ 8) :
    inMask (m &&& ~~~(maskOf n)) k = (inMask m k && decide (n ≠ k)) := by
  have hbit := inMask_maskOf n k h1 h8
  unfold inMask at hbit ⊢
  have hk : (k != 0) = true := by simp; omega
  rw [hk, Bool.true_and] at hbit
  rw [hk, Bool.true_and, Bool.true_and, BitVec.getLsbD_and, BitVec.getLsbD_not, hbit, decide_eq_true (by omega : k - 1 < 8)]
  by_cases h : n = k <;> simp [h]

/-- The mask of an order that the stands of a list have left at a port. -/
def maskWithout (here : Nat → Bool) (l : List Nat) (m : Byte) : Byte :=
  l.foldl (fun m n => if here n then m &&& ~~~(maskOf n) else m) m

theorem inMask_maskWithout (here : Nat → Bool) (l : List Nat) (m : Byte) (k : Nat) (h1 : 1 ≤ k) (h8 : k ≤ 8) :
    inMask (maskWithout here l m) k = true ↔ inMask m k = true ∧ ¬ (k ∈ l ∧ here k = true) := by
  induction l generalizing m with
  | nil => simp [maskWithout]
  | cons n l ih =>
    refine (ih _).trans ?_
    dsimp only
    by_cases hn : here n = true
    · rw [if_pos hn, inMask_without m n k h1 h8]
      by_cases hnk : n = k
      · subst hnk
        simp [hn]
      · simp [hnk, Ne.symm hnk]
    · rw [if_neg hn]
      by_cases hnk : k = n
      · subst hnk
        simp [hn]
      · simp [hnk]

theorem foldl_dropFromOrder (here : Nat → Bool) (l : List Nat) (o : StopOrder) (m : Byte) :
    l.foldl (fun o n => if here n = true then dropFromOrder n o else o) (orderOf o m) = orderOf o (maskWithout here l m) := by
  induction l generalizing m with
  | nil => rfl
  | cons n l ih =>
    rw [List.foldl_cons]
    refine Eq.trans ?_ (ih (if here n = true then m &&& ~~~(maskOf n) else m))
    by_cases hn : here n = true
    · rw [if_pos hn, if_pos hn, dropFromOrder_orderOf]
    · rw [if_neg hn, if_neg hn]

theorem foldl_dropFromOrder_none (here : Nat → Bool) (l : List Nat) :
    l.foldl (fun o n => if here n = true then dropFromOrder n o else o) none = none := by
  induction l with
  | nil => rfl
  | cons n l ih =>
    rw [List.foldl_cons]
    by_cases hn : here n = true
    · rw [if_pos hn]
      exact ih
    · rw [if_neg hn]
      exact ih

/-! ### A request that resets no stand -/

theorem State.resetStands_none {mask : Byte} {l : List Nat} (s : State) (h : ∀ n ∈ l, s.frees mask n = false) :
    s.resetStands mask l = ({ s with
      trip := { s.trip with refusedResets := bump^[(l.filter (s.refuses mask)).length] s.trip.refusedResets } }, [],
      l.filter (s.refuses mask)) := by
  induction l generalizing s with
  | nil => rfl
  | cons n ns ih =>
    have hn := h n List.mem_cons_self
    have h' := fun m hm => h m (List.mem_cons_of_mem n hm)
    unfold State.resetStands
    cases hmask : inMask mask n && (s.stand n).isTripped with
    | false =>
      have hrefuse : (n :: ns).filter (s.refuses mask) = ns.filter (s.refuses mask) :=
        List.filter_cons_of_neg (by rw [State.refuses, hmask]; exact Bool.false_ne_true)
      rw [if_neg Bool.false_ne_true, hrefuse, ih s h']
    | true =>
      have hc : s.causeActive n = true := by
        rw [State.frees, hmask] at hn
        simpa using hn
      have hrefuse : (n :: ns).filter (s.refuses mask) = n :: ns.filter (s.refuses mask) :=
        List.filter_cons_of_pos (by rw [State.refuses, hmask, hc]; rfl)
      have hrest := ih { s with trip := { s.trip with refusedResets := bump s.trip.refusedResets } } h'
      rw [if_pos rfl, if_pos hc, hrefuse, List.length_cons, Function.iterate_succ_apply]
      dsimp only
      rw [hrest]
      rfl

/-! ### The request (R169) -/

theorem ResetFrame.release_hold {f : Frame} {tags : List BlockTag} (h : ResetFrame (s.hold f tags) t) :
    ResetFrame s (t.release s.net.nextId) := by
  have hnet : (s.net.hold f tags).withOrders (fun q => (t.port q).stopSlot) =
      (s.net.withOrders fun q => (t.port q).stopSlot).hold f tags := by
    unfold Net.withOrders
    rfl
  have hlike : (s.hold f tags).like t = (s.like t).hold f tags := by
    unfold State.like State.hold
    dsimp only
    rw [hnet]
  have hquiet := h.quiet
  rw [hlike] at hquiet
  have hreleased := hquiet.release_hold
  have hid : (s.like t).net.nextId = s.net.nextId := Net.nextId_withOrders _ s.net
  rw [hid] at hreleased
  exact ⟨hreleased⟩

theorem State.causeActive_held (a : Arrival) (f : Frame) (tags : List BlockTag) (s : State) (n : Nat) :
    ((s.taken a.port).hold f tags).causeActive n = s.causeActive n := by
  unfold State.causeActive
  rw [show ((s.taken a.port).hold f tags).unmappedPanels = s.unmappedPanels from State.unmappedPanels_held a f tags s]
  rfl

theorem State.frees_held (a : Arrival) (f : Frame) (tags : List BlockTag) (s : State) (mask : Byte) :
    ((s.taken a.port).hold f tags).frees mask = s.frees mask := funext fun n => by
  rw [State.frees, State.causeActive_held]
  rfl

theorem State.refuses_held (a : Arrival) (f : Frame) (tags : List BlockTag) (s : State) (mask : Byte) :
    ((s.taken a.port).hold f tags).refuses mask = s.refuses mask := funext fun n => by
  rw [State.refuses, State.causeActive_held]
  rfl

theorem reqResetTrip_state {mask : Byte} (h : mask ≠ 0#8) : (reqResetTrip mask s).1 = (s.resetStands mask standNumbers).1 := by
  unfold reqResetTrip
  rw [if_neg h]
  dsimp only
  split <;> rfl

theorem reqResetTrip_answer {mask : Byte} (h : mask ≠ 0#8) (hreset : (s.resetStands mask standNumbers).2.1 = [])
    (hrefused : (s.resetStands mask standNumbers).2.2 ≠ []) : (reqResetTrip mask s).2 =
      .refused .causeActive [0#8, maskOfList (s.resetStands mask standNumbers).2.2] := by
  unfold reqResetTrip
  rw [if_neg h]
  dsimp only
  rw [hreset, if_pos (by simpa using hrefused)]
  rfl

/-- What RESET TRIP leaves of a part whose stands have no FOLLOWING and no MOVE FAILED (R168, R169). -/
theorem State.resetTrip_after {a : Arrival} {mask : Byte} (hs : s.Hears a) (hm : mask ≠ 0#8)
    (hclear : ∀ n, (s.stand n).following = false ∧ (s.stand n).moveFailed = false) :
    ResetFrame (s.taken a.port) (s.ask a (.resetTrip mask)) ∧
      (∀ n, (s.ask a (.resetTrip mask)).stand n =
        if n ∈ standNumbers.filter (s.frees mask) then (s.stand n).reset else s.stand n) ∧
      (∀ q, ((s.ask a (.resetTrip mask)).port q).stopSlot = (standNumbers.filter (s.frees mask)).foldl
        (fun o n => if q ∈ StandRecord.ports (s.stand n).record then dropFromOrder n o else o) (s.port q).stopSlot) ∧
      (s.ask a (.resetTrip mask)).trip.refusedResets =
        bump^[(standNumbers.filter (s.refuses mask)).length] s.trip.refusedResets ∧
      (s.ask a (.resetTrip mask)).trip.log =
        if standNumbers.filter (s.frees mask) ≠ [] ∧ (s.ask a (.resetTrip mask)).anyTripped = false then unfirst s.trip.log
        else s.trip.log := by
  rw [State.ask_eq a (.resetTrip mask) s hs, State.serve_eq]
  generalize manageFrame s.part.own a (requestCode (.resetTrip mask)) (encodeRequest (.resetTrip mask)) = f
  generalize burstTags (s.port a.port).burst = tags
  have hcarry : (((s.taken a.port).hold f tags).carryOut s.net.nextId a (.resetTrip mask)).1 =
      (((s.taken a.port).hold f tags).resetStands mask standNumbers).1 := reqResetTrip_state hm
  have hresult := State.resetStands_result (mask := mask) standNumbers_nodup (fun n hn => (standNumbers_valid n).1 hn)
    ((s.taken a.port).hold f tags) fun n _ => ⟨(hclear n).2, (hclear n).1⟩
  have hfrees := State.frees_held a f tags s mask
  have hrefuses := State.refuses_held a f tags s mask
  obtain ⟨-, -, hframe, hstands, hslots, hcounted, hlog⟩ := hresult
  rw [← hcarry] at hframe hstands hslots hcounted hlog
  rw [hfrees] at hstands hslots hlog
  rw [hrefuses] at hcounted
  generalize ((s.taken a.port).hold f tags).carryOut s.net.nextId a (.resetTrip mask) = y at hframe hstands hslots hcounted hlog
  have hreply := State.reply_quiet a (requestCode (.resetTrip mask)) y.2 y.1
  refine ⟨(hframe.trans hreply.reset).release_hold, hstands, fun q => ?_, hcounted, hlog⟩
  refine ((hreply.net.port Port.stopSlot (fun _ => rfl) q).trans (hslots q)).trans ?_
  rw [s.port_held a f tags Port.stopSlot (fun _ => rfl)]
  rfl

/-- Settles O51: the stands one after another, and the reply of a request that resets none. -/
theorem resetTripFreesStandsWithoutCause : Obligations.ResetTripFreesStandsWithoutCause := by
  unfold Obligations.ResetTripFreesStandsWithoutCause
  intro s a mask freed hs hm hclear hfreed
  obtain ⟨hframe, hstands, hslots, hcounted, hlog⟩ := State.resetTrip_after hs hm hclear
  have hmem : ∀ n, n ∈ standNumbers.filter (s.frees mask) ↔ freed n := fun n => by
    rw [hfreed, List.mem_filter, standNumbers_valid]
    simp [State.frees, and_assoc]
  have hempty : (∀ n, ¬ freed n) → standNumbers.filter (s.frees mask) = [] := fun h =>
    List.eq_nil_iff_forall_not_mem.2 fun n hn => h n ((hmem n).1 hn)
  refine ⟨s.ask a (.resetTrip mask), rfl, ?_, fun n hn => ?_, fun n hn => ?_, fun q hq => ?_, fun q o hq ho => ?_, hcounted,
    fun hsome hover => ?_, fun hopen => ?_, fun hcan hnone hmasked => ?_⟩
  · have hquiet := hframe.quiet
    unfold State.like Net.withOrders at hquiet
    exact hquiet
  · rw [hstands, if_pos ((hmem n).2 hn)]
    rfl
  · rw [hstands, if_neg fun h => hn ((hmem n).1 h)]
  · have hnone := foldl_dropFromOrder_none (fun n => decide (q ∈ StandRecord.ports (s.stand n).record))
      (standNumbers.filter (s.frees mask))
    simp only [decide_eq_true_eq] at hnone
    rw [hslots, hq, hnone]
  · have hsome := foldl_dropFromOrder (fun n => decide (q ∈ StandRecord.ports (s.stand n).record))
      (standNumbers.filter (s.frees mask)) o o.mask
    have horder : orderOf o o.mask = some o := if_neg ho
    rw [horder] at hsome
    simp only [decide_eq_true_eq] at hsome
    refine ⟨maskWithout (fun n => decide (q ∈ StandRecord.ports (s.stand n).record)) (standNumbers.filter (s.frees mask)) o.mask,
      fun n h1 h8 => ?_, ?_⟩
    · rw [inMask_maskWithout _ _ _ n h1 h8, hmem, decide_eq_true_eq]
    · rw [hslots, hq, hsome]
      rfl
  · obtain ⟨n, hn⟩ := hsome
    refine hlog.trans (if_pos ⟨List.ne_nil_of_mem ((hmem n).2 hn), ?_⟩)
    rw [← Bool.not_eq_true, State.anyTripped_iff]
    rintro ⟨m, hm'⟩
    rw [hover] at hm'
    exact Bool.noConfusion hm'
  · rw [hlog, if_neg]
    rintro ⟨hsome, hover⟩
    rcases hopen with hnone | htripped
    · exact hsome (hempty hnone)
    · rw [State.anyTripped_iff.2 htripped] at hover
      exact Bool.noConfusion hover
  · have hrefuses := fun f tags => State.refuses_held a f tags s mask
    have hnothing : ∀ f tags, ((s.taken a.port).hold f tags).resetStands mask standNumbers = _ := fun f tags =>
      State.resetStands_none ((s.taken a.port).hold f tags) fun n hn => by
        rw [State.frees_held]
        exact Bool.eq_false_iff.2 fun htrue => hnone n ((hmem n).1 (List.mem_filter.2 ⟨hn, htrue⟩))
    have hactive : ∀ n, 1 ≤ n → n ≤ 8 → (s.refuses mask n = true ↔ inMask mask n = true ∧ (s.stand n).isTripped = true) :=
      fun n h1 h8 => by
        simp only [State.refuses, Bool.and_eq_true]
        refine and_iff_left_of_imp fun ⟨hin, htrip⟩ => ?_
        by_contra hc
        exact hnone n ((hfreed n).2 ⟨h1, h8, hin, htrip, by simpa using hc⟩)
    have hrefused : standNumbers.filter (s.refuses mask) ≠ [] := by
      obtain ⟨n, h1, h8, hin, htrip⟩ := hmasked
      exact List.ne_nil_of_mem (List.mem_filter.2 ⟨(standNumbers_valid n).2 ⟨h1, h8⟩, (hactive n h1 h8).2 ⟨hin, htrip⟩⟩)
    refine ⟨maskOfList (standNumbers.filter (s.refuses mask)), fun n h1 h8 => ?_, ?_⟩
    · rw [inMask_maskOfList _ n h1 h8, List.mem_filter, standNumbers_valid, hactive n h1 h8]
      exact and_iff_right ⟨h1, h8⟩
    · have hanswered := State.ask_answered (r := .resetTrip mask) (v := { s.taken a.port with trip := { s.trip with
        refusedResets := bump^[(standNumbers.filter (s.refuses mask)).length] s.trip.refusedResets } })
        (ans := .refused .causeActive [0#8, maskOfList (standNumbers.filter (s.refuses mask))]) hcan (fun f tags => ?_) (.refl _ _)
      · exact hanswered.2.1
      · have hstate := reqResetTrip_state (s := (s.taken a.port).hold f tags) hm
        have hanswer := reqResetTrip_answer (s := (s.taken a.port).hold f tags) hm (by rw [hnothing])
          (by rw [hnothing, hrefuses]; exact hrefused)
        rw [hnothing, hrefuses] at hstate hanswer
        exact Prod.ext hstate hanswer

end Sys2Proof.Machine
end

section
/-! PROOFS. The output lines (R167, R184). -/

namespace Sys2Proof.Machine

variable {s t u v : State}

/-! ### The two lines (R167) -/

theorem Stand.holdsStop_iff {S : Stand} : S.holdsStop = true ↔ ∃ x, S.mode = .tripped x ∧ x.cls ≠ .slow := by
  unfold Stand.holdsStop Stand.tripOf
  cases S.mode <;> simp

theorem State.stopLine_running (h : s.phase = .running) :
    s.stopLine = true ↔ ∃ n x, 1 ≤ n ∧ n ≤ 8 ∧ (s.stand n).mode = .tripped x ∧ x.cls ≠ .slow := by
  unfold State.stopLine
  rw [h, Bool.or_eq_true, List.any_eq_true]
  simp only [standNumbers_valid, Stand.holdsStop_iff]
  constructor
  · rintro (h | ⟨n, ⟨h1, h8⟩, x, hx⟩)
    · exact Bool.noConfusion h
    · exact ⟨n, x, h1, h8, hx⟩
  · rintro ⟨n, x, h1, h8, hx⟩
    exact .inr ⟨n, ⟨h1, h8⟩, x, hx⟩

theorem State.alertLine_running (h : s.phase = .running) :
    s.alertLine = true ↔ (∃ n, 1 ≤ n ∧ n ≤ 8 ∧ ((s.stand n).isTripped = true ∨ (s.stand n).hold = true)) ∨
      ∃ e, e < 64 ∧ (s.entry e).record.cls = none ∧ (s.entry e).state = .fired := by
  unfold State.alertLine
  rw [h]
  simp [List.any_eq_true, standNumbers_valid, and_assoc]

theorem State.stopLine_false (h : s.phase = .running) (ht : ∀ n, (s.stand n).isTripped = false) : s.stopLine = false := by
  rw [← Bool.not_eq_true, State.stopLine_running h]
  rintro ⟨n, x, -, -, hx, -⟩
  have := ht n
  rw [Stand.isTripped, Stand.tripOf_eq_some.2 hx] at this
  exact Bool.noConfusion this

theorem State.stopLine_congr (hp : t.phase = s.phase) (hs : t.stands = s.stands) : t.stopLine = s.stopLine := by
  unfold State.stopLine
  simp only [hp, State.stand_of_stands hs]

/-! ### What no step of a reset or a release makes active (R169) -/

/-- The phase is the same, an entry has at most returned to IDLE, and no PANEL condition has changed. -/
structure CauseFrame (s t : State) : Prop where
  phase : t.phase = s.phase
  entries : ∀ e, t.entry e = s.entry e ∨ t.entry e = { s.entry e with state := .idle }
  panels : ∀ p, (t.port p).panel = (s.port p).panel

theorem CauseFrame.refl (s : State) : CauseFrame s s := ⟨rfl, fun _ => .inl rfl, fun _ => rfl⟩

theorem CauseFrame.trans (h : CauseFrame s t) (g : CauseFrame t u) : CauseFrame s u where
  phase := g.phase.trans h.phase
  entries e := by
    rcases g.entries e with hu | hu
    · rw [hu]
      exact h.entries e
    · rcases h.entries e with ht | ht
      · exact .inr (by rw [hu, ht])
      · exact .inr (by rw [hu, ht])
  panels p := (g.panels p).trans (h.panels p)

theorem CauseFrame.record (h : CauseFrame s t) (e : Nat) : (t.entry e).record = (s.entry e).record := by
  rcases h.entries e with ht | ht <;> rw [ht]

theorem CauseFrame.fired (h : CauseFrame s t) {e : Nat} (he : (t.entry e).state = .fired) : (s.entry e).state = .fired := by
  rcases h.entries e with ht | ht
  · rwa [ht] at he
  · rw [ht] at he
    exact EntryState.noConfusion he

theorem CauseFrame.causeActive (h : CauseFrame s t) {n : Nat} (hn : s.causeActive n = false) : t.causeActive n = false := by
  have hrefs : ∀ c, t.refs c = s.refs c := fun c => by
    unfold State.refs
    simp only [h.record]
  have hpanels : t.unmappedPanels = s.unmappedPanels := by
    unfold State.unmappedPanels
    simp only [h.panels, hrefs]
  unfold State.causeActive at hn ⊢
  rw [hpanels]
  rw [Bool.or_eq_false_iff] at hn ⊢
  refine ⟨List.any_eq_false.2 fun e he hactive => ?_, hn.2⟩
  refine (List.any_eq_false.1 hn.1 e he) ?_
  rcases h.entries e with ht | ht
  · rwa [ht] at hactive
  · rw [ht] at hactive
    simp at hactive

theorem CauseFrame.of_eq (hphase : t.phase = s.phase) (he : t.trip.entries = s.trip.entries) (hp : t.net.ports = s.net.ports) :
    CauseFrame s t :=
  ⟨hphase, fun e => .inl (by unfold State.entry; rw [he]), fun p => by unfold State.port Net.port; rw [hp]⟩

theorem CauseFrame.modStand (n : Nat) (f : Stand → Stand) (s : State) : CauseFrame s (s.modStand n f) :=
  .of_eq (State.phase_modStand s n f) (by rw [State.trip_modStand]) (by rw [State.net_modStand])

theorem QuietFrame.cause (h : QuietFrame s t) : CauseFrame s t :=
  ⟨h.event.phase, fun e => .inl (h.entry e), fun p => h.net.port Port.panel (fun _ => rfl) p⟩

theorem State.cleared_cause (c : CondId) (s : State) : CauseFrame s (s.cleared c) := by
  obtain ⟨w, hquiet, hw, hentry⟩ := s.cleared_after c
  refine CauseFrame.trans ⟨by rw [hw], fun e => ?_, fun p => by rw [hw]; rfl⟩ hquiet.cause
  by_cases he : e < 64
  · rw [hentry e he]
    split
    · exact .inr rfl
    · exact .inl rfl
  · exact .inl (by unfold State.entry; rw [getAt_outside _ _ he, getAt_outside _ _ he])

theorem State.lower_cause {f : State → State} (c : CondId) (h : CauseFrame s (f s)) : CauseFrame s (s.lower c f) := by
  unfold State.lower
  dsimp only
  split
  · exact h.trans (State.cleared_cause c _)
  · exact h

theorem State.settleMode_cause (n : Nat) (s : State) : CauseFrame s (s.settleMode n) := by
  unfold State.settleMode
  split
  · exact State.lower_cause _ (.modStand n _ s)
  · exact (State.lower_cause _ (.modStand n _ s)).trans (State.lower_cause _ (.modStand n _ _))
  · exact (State.lower_cause _ (.modStand n _ s)).trans (State.lower_cause _ (.modStand n _ _))
  · exact .refl s
  · exact .refl s

theorem State.changeMode_cause (n : Nat) (m : StandMode) (cause : StandCause) (s : State) : CauseFrame s (s.changeMode n m cause) := by
  unfold State.changeMode
  exact ((CauseFrame.modStand n _ s).trans (State.notice_quiet _ _ _ _).cause).trans (State.settleMode_cause n _)

theorem State.endHold_cause (n : Nat) (cause : HoldCause) (s : State) : CauseFrame s (s.endHold n cause) := by
  unfold State.endHold
  split
  · exact (State.lower_cause _ (.modStand n _ s)).trans (State.notice_quiet _ _ _ _).cause
  · exact .refl s

theorem State.withdraw_cause (n : Nat) (s : State) : CauseFrame s (s.withdraw n) := by
  obtain ⟨hrest, hports⟩ := s.withdraw_spec n
  refine ⟨by rw [hrest], fun e => .inl (by rw [hrest]; rfl), fun p => by rw [hports]⟩

/-! ### Stands reset (R169) -/

/-- What comes before the withdrawal of a stand's orders when it is reset (R121). -/
def State.unfailed (n : Nat) (s : State) : State :=
  (s.modStand n fun S => { S with base := S.lastCommand, biteOnRun := 0 }).lower ⟨.moveFailed, n⟩
    fun s => s.modStand n fun S => { S with moveFailed := false }

theorem State.resetStand_steps (n : Nat) (s : State) : s.resetStand n = ((s.unfailed n).withdraw n).changeMode n .ready .reset := rfl

theorem State.resetStand_cause (n : Nat) (s : State) : CauseFrame s (s.resetStand n) := by
  rw [State.resetStand_steps]
  exact (((CauseFrame.modStand n _ s).trans (State.lower_cause _ (.modStand n _ _))).trans (State.withdraw_cause n _)).trans
    (State.changeMode_cause n .ready .reset _)

theorem State.resetStand_trips {n : Nat} (h1 : 1 ≤ n) (h8 : n ≤ 8) (s : State) (m : Nat) :
    ((s.resetStand n).stand m).isTripped = if m = n then false else (s.stand m).isTripped := by
  have hunfailed : SameTrips s (s.unfailed n) :=
    (SameTrips.modStand s n _ rfl).trans (State.lower_trips _ _ (.modStand _ n _ rfl))
  have hwithdraw : SameTrips s ((s.unfailed n).withdraw n) :=
    hunfailed.trans (.of_stands (by rw [(State.withdraw_spec n (s.unfailed n)).1]))
  rw [State.resetStand_steps]
  generalize (s.unfailed n).withdraw n = w at hwithdraw
  rw [Stand.isTripped, State.changeMode_trips n .ready .reset w m, State.stand_modStand]
  by_cases hm : m = n
  · subst hm
    rw [if_pos ⟨rfl, h1, h8⟩, if_pos rfl]
    rfl
  · rw [if_neg fun h => hm h.1.symm, if_neg hm, hwithdraw m]
    rfl

theorem State.closeEpisode_cause (s : State) : CauseFrame s s.closeEpisode := by
  rw [State.closeEpisode_eq]
  exact .of_eq rfl rfl rfl

theorem State.resetStands_cause (mask : Byte) (l : List Nat) (s : State) : CauseFrame s (s.resetStands mask l).1 := by
  induction l generalizing s with
  | nil => exact .refl s
  | cons n ns ih =>
    unfold State.resetStands
    split
    · split
      · exact CauseFrame.trans (t := { s with trip := { s.trip with refusedResets := bump s.trip.refusedResets } })
          (.of_eq rfl rfl rfl) (ih _)
      · exact ((s.resetStand_cause n).trans (State.closeEpisode_cause _)).trans (ih _)
    · exact ih s

/-- A reset of every TRIPPED stand, none with an active cause, leaves none TRIPPED. -/
theorem State.resetStands_trips {mask : Byte} {l : List Nat} (hv : ∀ n ∈ l, 1 ≤ n ∧ n ≤ 8) (s : State)
    (h : ∀ n, (s.stand n).isTripped = true → inMask mask n = true ∧ s.causeActive n = false) (m : Nat)
    (hm : ((s.resetStands mask l).1.stand m).isTripped = true) : m ∉ l ∧ (s.stand m).isTripped = true := by
  induction l generalizing s with
  | nil => exact ⟨List.not_mem_nil, hm⟩
  | cons n ns ih =>
    obtain ⟨h1, h8⟩ := hv n List.mem_cons_self
    have hv' := fun m hm => hv m (List.mem_cons_of_mem n hm)
    unfold State.resetStands at hm
    cases htrip : (s.stand n).isTripped with
    | false =>
      rw [htrip, Bool.and_false, if_neg Bool.false_ne_true] at hm
      obtain ⟨hns, hsm⟩ := ih hv' s h hm
      refine ⟨fun hmem => ?_, hsm⟩
      rcases List.mem_cons.1 hmem with rfl | hmem
      · rw [htrip] at hsm
        exact Bool.noConfusion hsm
      · exact hns hmem
    | true =>
      obtain ⟨hmask, hcause⟩ := h n htrip
      rw [htrip, hmask, Bool.and_self, if_pos rfl, hcause, if_neg Bool.false_ne_true] at hm
      have hframe : CauseFrame s (s.resetStand n).closeEpisode := (s.resetStand_cause n).trans (State.closeEpisode_cause _)
      have htrips : ∀ m, ((s.resetStand n).closeEpisode.stand m).isTripped = if m = n then false else (s.stand m).isTripped := fun m => by
        rw [State.closeEpisode_eq]
        exact State.resetStand_trips h1 h8 s m
      obtain ⟨hns, hsm⟩ := ih hv' (s.resetStand n).closeEpisode (fun k hk => by
        rw [htrips] at hk
        split at hk
        · exact Bool.noConfusion hk
        · exact ⟨(h k hk).1, hframe.causeActive (h k hk).2⟩) hm
      rw [htrips] at hsm
      split at hsm
      · exact Bool.noConfusion hsm
      · rename_i hne
        exact ⟨fun hmem => (List.mem_cons.1 hmem).elim hne hns, hsm⟩

/-! ### The lines after a step (R167) -/

theorem State.alertLine_tripped {n : Nat} (hp : s.phase = .running) (h1 : 1 ≤ n) (h8 : n ≤ 8)
    (h : (s.stand n).isTripped = true ∨ (s.stand n).hold = true) : s.alertLine = true :=
  (State.alertLine_running hp).2 (.inl ⟨n, h1, h8, h⟩)

/-- A stop that acts on a stand asserts ALERT, and STOP unless it is of class SLOW. -/
theorem State.Stopped.lines {e m : Nat} {cls : Severity} {mask : Byte} {cause : Cause} (h : s.Stopped t e cls mask cause)
    (hp : s.phase = .running) (hm : s.ActsOn cls mask m) : t.alertLine = true ∧ (cls ≠ .slow → t.stopLine = true) := by
  have hphase : t.phase = .running := h.frame.phase.trans hp
  have hmode := h.acted m hm
  obtain ⟨h1, h8, -⟩ := hm
  refine ⟨State.alertLine_tripped hphase h1 h8 (.inl ?_), fun hc => (State.stopLine_running hphase).2 ⟨m, _, h1, h8, hmode, hc⟩⟩
  rw [Stand.isTripped, Stand.tripOf_eq_some.2 hmode]
  rfl

theorem State.fire_note_lines (e : Nat) (mask : Byte) (cause : Cause) (s : State) :
    (s.fire e none mask cause).phase = s.phase ∧ (s.fire e none mask cause).stands = s.stands ∧
      ∀ k, (s.fire e none mask cause).entry k = s.entry k := ⟨rfl, rfl, fun _ => rfl⟩

/-- What a request leaves of the phase, the stands and the entries is what its owner leaves. -/
theorem State.ask_lines {a : Arrival} {r : Request} (hs : s.Hears a) : ∃ f tags,
    (s.ask a r).phase = (((s.taken a.port).hold f tags).carryOut s.net.nextId a r).1.phase ∧
      (s.ask a r).stands = (((s.taken a.port).hold f tags).carryOut s.net.nextId a r).1.stands ∧
      (s.ask a r).trip = (((s.taken a.port).hold f tags).carryOut s.net.nextId a r).1.trip := by
  refine ⟨manageFrame s.part.own a (requestCode r) (encodeRequest r), burstTags (s.port a.port).burst, ?_⟩
  rw [State.ask_eq a r s hs, State.serve_eq]
  generalize State.carryOut _ _ _ _ = y
  have hreply := State.reply_quiet a (requestCode r) y.2 y.1
  exact ⟨hreply.event.phase, hreply.stands, hreply.trip⟩

theorem State.resetTrip_lines {a : Arrival} {mask : Byte} (hs : s.Hears a) (hm : mask ≠ 0#8)
    (h : ∀ n, 1 ≤ n → n ≤ 8 → (s.stand n).isTripped = true → inMask mask n = true ∧ s.causeActive n = false) :
    (s.ask a (.resetTrip mask)).stopLine = false := by
  obtain ⟨f, tags, hphase, hstands, -⟩ := State.ask_lines (r := .resetTrip mask) hs
  have hcarry : (((s.taken a.port).hold f tags).carryOut s.net.nextId a (.resetTrip mask)).1 =
      (((s.taken a.port).hold f tags).resetStands mask standNumbers).1 := reqResetTrip_state hm
  have hrunning : (s.ask a (.resetTrip mask)).phase = .running := by
    rw [hphase, hcarry, (State.resetStands_cause mask standNumbers _).phase]
    exact hs.running
  refine State.stopLine_false hrunning fun n => ?_
  rw [← Bool.not_eq_true, State.stand_of_stands hstands, hcarry]
  intro htrip
  obtain ⟨hn, hstill⟩ := State.resetStands_trips (fun n hn => (standNumbers_valid n).1 hn) ((s.taken a.port).hold f tags) (fun k hk => by
    rw [State.causeActive_held]
    have hvalid := State.stand_valid (s := s) k fun ho => by
      have : (s.stand k).isTripped = true := hk
      rw [Stand.isTripped, Stand.tripOf, ho] at this
      exact Bool.noConfusion this
    exact h k hvalid.1 hvalid.2 hk) n htrip
  refine hn ((standNumbers_valid n).2 (State.stand_valid (s := s) n fun ho => ?_))
  have : (s.stand n).isTripped = true := hstill
  rw [Stand.isTripped, Stand.tripOf, ho] at this
  exact Bool.noConfusion this

theorem State.clearHold_cause {a : Arrival} {n : Nat} (hs : s.Hears a) (h1 : 1 ≤ n) (h8 : n ≤ 8)
    (hc : (s.stand n).record.configured = true) (ho : (s.stand n).mode ≠ .out) : (s.ask a (.clearHold n)).phase = s.phase ∧
      ∀ e, ((s.ask a (.clearHold n)).entry e).record = (s.entry e).record ∧
        (((s.ask a (.clearHold n)).entry e).state = .fired → (s.entry e).state = .fired) := by
  obtain ⟨f, tags, hphase, -, htrip⟩ := State.ask_lines (r := .clearHold n) hs
  have hcarry : (((s.taken a.port).hold f tags).carryOut s.net.nextId a (.clearHold n)).1 = _ :=
    congrArg Prod.fst (reqClearHold_eq (s := (s.taken a.port).hold f tags) h1 h8 hc ho)
  rw [hcarry] at hphase htrip
  have hcause := ((s.taken a.port).hold f tags).endHold_cause n .clearHold |>.trans
    (.modStand n (fun S => { S with error := none }) _)
  have hentry : ∀ e, (s.ask a (.clearHold n)).entry e =
      ((((s.taken a.port).hold f tags).endHold n .clearHold).modStand n fun S => { S with error := none }).entry e := fun e => by
    unfold State.entry
    rw [htrip]
  refine ⟨hphase.trans hcause.phase, fun e => ?_⟩
  rw [hentry]
  exact ⟨hcause.record e, hcause.fired⟩

theorem State.clearHold_lines {a : Arrival} {n : Nat} (hs : s.Hears a) (h1 : 1 ≤ n) (h8 : n ≤ 8)
    (hc : (s.stand n).record.configured = true) (ho : (s.stand n).mode ≠ .out)
    (hstands : ∀ m, 1 ≤ m → m ≤ 8 → (s.stand m).isTripped = false ∧ (m ≠ n → (s.stand m).hold = false))
    (hentries : ∀ e, e < 64 → (s.entry e).record.cls = none → (s.entry e).state ≠ .fired) :
    (s.ask a (.clearHold n)).alertLine = false := by
  obtain ⟨hphase, hentry⟩ := State.clearHold_cause hs h1 h8 hc ho
  have hstand := (State.clearHold_after hs h1 h8 hc ho).stand
  rw [← Bool.not_eq_true, State.alertLine_running (hphase.trans hs.running)]
  rintro (⟨m, hm1, hm8, hm⟩ | ⟨e, he, hcls, hfired⟩)
  · obtain ⟨htrip, hhold⟩ := hstands m hm1 hm8
    rw [hstand, State.stand_modStand] at hm
    by_cases hmn : n = m
    · subst hmn
      rw [if_pos ⟨rfl, h1, h8⟩] at hm
      rcases hm with hm | hm
      · exact Bool.noConfusion (htrip.symm.trans hm)
      · exact Bool.noConfusion hm
    · rw [if_neg fun h => hmn h.1] at hm
      rcases hm with hm | hm
      · exact Bool.noConfusion (htrip.symm.trans hm)
      · exact Bool.noConfusion ((hhold (Ne.symm hmn)).symm.trans hm)
  · obtain ⟨hrecord, hstill⟩ := hentry e
    rw [hrecord] at hcls
    exact hentries e he hcls (hstill hfired)

/-- Settles O49: what the lines are, and what each step leaves of the stands and entries they follow. -/
theorem outputLinesFollowTheStands : Obligations.OutputLinesFollowTheStands := by
  unfold Obligations.OutputLinesFollowTheStands
  refine ⟨fun s => ⟨fun hp => ⟨State.stopLine_running hp, State.alertLine_running hp⟩, fun hp => ?_, fun hp => ?_,
    fun hp e k hk hnote => ?_⟩, fun s a hs => ⟨fun c cls mask m hm hacts hc => ?_, fun mask hm h => ?_,
    fun n h1 h8 hc ho hstands hentries => ?_⟩, fun s p source f S x h hr hS hc ho hh htrip hx hne hne' => ?_⟩
  · unfold State.stopLine State.alertLine
    cases hphase : s.phase with
    | running => exact absurd hphase hp
    | _ => exact ⟨rfl, rfl⟩
  · obtain ⟨t, hexec, hrunning, -, -, -, -, -, -, hloaded, -⟩ := startUpLoadsSections s hp
    refine ⟨t, hexec, State.stopLine_false hrunning fun n => ?_⟩
    have hout : (t.stand n).mode = .out := by
      by_cases hv : 1 ≤ n ∧ n ≤ 8
      · obtain ⟨r, x, -, -, hstand⟩ := hloaded.stands n hv.1 hv.2
        rw [hstand]
        split <;> rfl
      · rw [State.stand_outside t hv]
        rfl
    rw [Stand.isTripped, Stand.tripOf, hout]
    rfl
  · have hexec := State.delayExpiry_timing e.isLt hk rfl
    rw [hnote] at hexec
    refine ⟨_, congrArg Host.Outcome.next hexec, ?_, ?_⟩
    · obtain ⟨hphase, -, hentry⟩ := State.fire_note_lines e (s.entry e).record.mask (.cond (s.entry e).record.cond)
        (s.modEntry e fun x => { x with state := .fired })
      refine (State.alertLine_running (hphase.trans hp)).2 (.inr ⟨e, e.isLt, ?_⟩)
      rw [hentry, State.entry_modEntry, if_pos ⟨rfl, e.isLt⟩]
      exact ⟨hnote, rfl⟩
    · exact State.stopLine_congr rfl rfl
  · have hclass : classOf c = some (some cls) := by
      rcases hc with ⟨rfl, rfl⟩ | ⟨rfl, rfl⟩ | ⟨rfl, rfl⟩ <;> rfl
    have hstop : (s.taken a.port).Stopped (s.ask a (.stop c mask)) Config.noEntry cls mask (.request a.port) :=
      State.ask_stopped hs (fun _ _ => reqStop_eq hclass hm) rfl
    obtain ⟨halert, hstopLine⟩ := hstop.lines hs.running (m := m) hacts
    exact ⟨_, rfl, halert, hstopLine⟩
  · exact ⟨_, rfl, State.resetTrip_lines hs hm h⟩
  · exact ⟨_, rfl, State.clearHold_lines hs h1 h8 hc ho hstands hentries⟩
  · obtain ⟨-, -, -, -, herror⟩ := setpointsAreAcceptedOrSorted s _ p source f _ S h hr rfl hS rfl
    obtain ⟨t, err, hexec, -, -, hevent⟩ := herror x hc ho hh hx hne hne'
    have h8 : f.stand.val + 1 ≤ 8 := by omega
    refine ⟨t, hexec, State.alertLine_tripped (n := f.stand + 1) ?_ (by omega) h8 (.inr ?_)⟩
    · rw [hevent.phase, State.phase_modStand]
      exact h.running
    · have hhold : (t.stand (f.stand + 1)).hold = _ := (congrArg Stand.hold (hevent.stands (f.stand + 1)) :)
      rw [hhold, State.stand_modStand_self (by omega) h8]
      subst hS
      show (!(s.stand (f.stand + 1)).isTripped) = true
      rw [htrip]
      rfl

end Sys2Proof.Machine
end

section
/-! PROOFS. The setting store: its requests (R175, R179 to R182). -/

namespace Sys2Proof.Machine

variable {s t u v : State}

/-! ### Sections of the store (R179 to R181) -/

section
variable {x y z : Store} {l : List Nat}

theorem Store.SameBut.refl (l : List Nat) (x : Store) : x.SameBut l x :=
  ⟨fun _ => rfl, fun _ => rfl, fun _ => rfl, fun _ => rfl, fun _ _ => rfl⟩

theorem Store.SameBut.trans (h : x.SameBut l y) (g : y.SameBut l z) : x.SameBut l z :=
  ⟨fun hl => (g.ports hl).trans (h.ports hl), fun hl => (g.channels hl).trans (h.channels hl),
    fun hl => (g.stands hl).trans (h.stands hl), fun hl => (g.trip hl).trans (h.trip hl),
    fun k hl => (g.status k hl).trans (h.status k hl)⟩

theorem Store.SameBut.mono {l' : List Nat} (h : x.SameBut l y) (hl : l ⊆ l') : x.SameBut l' y :=
  ⟨fun hn => h.ports fun hm => hn (hl hm), fun hn => h.channels fun hm => hn (hl hm), fun hn => h.stands fun hm => hn (hl hm),
    fun hn => h.trip fun hm => hn (hl hm), fun k hn => h.status k fun hm => hn (hl hm)⟩

/-- The operation and the latch are no section's. -/
theorem Store.SameBut.setOp (h : x.SameBut l y) (op : Option StoreOp) (b : Bool) : x.SameBut l { y with op := op, latch := b } :=
  ⟨h.ports, h.channels, h.stands, h.trip, h.status⟩

theorem Store.mark_sameBut (b : Bool) (k : Nat) (x : Store) : x.SameBut [k] (x.mark b k) := by
  refine ⟨fun _ => rfl, fun _ => rfl, fun _ => rfl, fun _ => rfl, fun j hj => ?_⟩
  show getAt (setAt x.sections k _) _ j = _
  rw [getAt_setAt, if_neg fun h : k = j ∧ k < 4 => hj (h.1 ▸ List.mem_cons_self)]

theorem Store.mark_isModified {k : Nat} (hk : k ≤ 3) (b : Bool) (x : Store) : (x.mark b k).isModified k = b := by
  show (getAt (setAt x.sections k _) _ k).modified = b
  rw [getAt_setAt, if_pos ⟨rfl, by omega⟩]

theorem Store.invalidate_sameBut {k : Nat} (hk : k ≤ 3) (x : Store) : x.SameBut [k] (x.invalidate k) := by
  interval_cases k
  · exact ⟨fun h => absurd List.mem_cons_self h, fun _ => rfl, fun _ => rfl, fun _ => rfl, fun _ _ => rfl⟩
  · exact ⟨fun _ => rfl, fun h => absurd List.mem_cons_self h, fun _ => rfl, fun _ => rfl, fun _ _ => rfl⟩
  · exact ⟨fun _ => rfl, fun _ => rfl, fun h => absurd List.mem_cons_self h, fun _ => rfl, fun _ _ => rfl⟩
  · exact ⟨fun _ => rfl, fun _ => rfl, fun _ => rfl, fun h => absurd List.mem_cons_self h, fun _ _ => rfl⟩

theorem Store.invalidate_unreadable (k : Nat) (x : Store) : (x.invalidate k).Unreadable [k] := by
  refine ⟨fun h => ?_, fun h => ?_, fun h => ?_, fun h => ?_⟩
  all_goals
    rw [← List.mem_singleton.1 h]
    rfl

/-- A section as an accepted save or erase leaves it at once. -/
def Store.spoil (b : Bool) (k : Nat) (x : Store) : Store := (x.invalidate k).mark b k

theorem Store.spoil_sameBut {k : Nat} (hk : k ≤ 3) (b : Bool) (x : Store) : x.SameBut [k] (x.spoil b k) :=
  (x.invalidate_sameBut hk).trans (Store.mark_sameBut b k _)

theorem Store.spoil_unreadable (b : Bool) (k : Nat) (x : Store) : (x.spoil b k).Unreadable [k] :=
  ⟨(x.invalidate_unreadable k).ports, (x.invalidate_unreadable k).channels, (x.invalidate_unreadable k).stands,
    (x.invalidate_unreadable k).trip⟩

theorem Store.spoils_spec (b : Bool) (hl : ∀ k ∈ l, k ≤ 3) (x : Store) :
    x.SameBut l (l.foldl (fun x k => x.spoil b k) x) ∧ (l.foldl (fun x k => x.spoil b k) x).Unreadable l ∧
      ∀ j ∈ l, (l.foldl (fun x k => x.spoil b k) x).isModified j = b := by
  induction l generalizing x with
  | nil =>
    exact ⟨.refl _ x, ⟨fun h => absurd h List.not_mem_nil, fun h => absurd h List.not_mem_nil, fun h => absurd h List.not_mem_nil,
      fun h => absurd h List.not_mem_nil⟩, fun _ h => absurd h List.not_mem_nil⟩
  | cons a l ih =>
    have ha := hl a List.mem_cons_self
    obtain ⟨hsame, hunread, hmod⟩ := ih (fun k hk => hl k (List.mem_cons_of_mem a hk)) (x.spoil b a)
    have hfirst := x.spoil_unreadable b a
    rw [List.foldl_cons]
    generalize l.foldl (fun x k => x.spoil b k) (x.spoil b a) = y at hsame hunread hmod
    have hat : ∀ k, k ∈ a :: l → k ∈ l ∨ (k ∉ l ∧ k ∈ [a]) := fun k hk => by
      by_cases hkl : k ∈ l
      · exact .inl hkl
      · exact .inr ⟨hkl, List.mem_singleton.2 ((List.mem_cons.1 hk).resolve_right hkl)⟩
    refine ⟨((x.spoil_sameBut ha b).mono (fun _ hk => List.mem_singleton.1 hk ▸ List.mem_cons_self)).trans
      (hsame.mono (List.subset_cons_self a l)), ⟨fun h => ?_, fun h => ?_, fun h => ?_, fun h => ?_⟩, fun j hj => ?_⟩
    · exact (hat 0 h).elim hunread.ports fun ⟨hn, hm⟩ => (hsame.ports hn).trans (hfirst.ports hm)
    · exact (hat 1 h).elim hunread.channels fun ⟨hn, hm⟩ => (hsame.channels hn).trans (hfirst.channels hm)
    · exact (hat 2 h).elim hunread.stands fun ⟨hn, hm⟩ => (hsame.stands hn).trans (hfirst.stands hm)
    · exact (hat 3 h).elim hunread.trip fun ⟨hn, hm⟩ => (hsame.trip hn).trans (hfirst.trip hm)
    · rcases hat j hj with h | ⟨hn, hm⟩
      · exact hmod j h
      · rw [Store.isModified, hsame.status j hn, List.mem_singleton.1 hm]
        exact Store.mark_isModified ha b _

theorem Store.startSave_spec {k : Nat} (hk : k ≤ 3) (op : StoreOp) (x : Store) :
    (x.startSave k op).op = some op ∧ (x.startSave k op).latch = false ∧ (x.startSave k op).Unreadable [k] ∧
      x.SameBut [k] (x.startSave k op) ∧ (x.startSave k op).isModified k = false := by
  have hunread := x.spoil_unreadable false k
  exact ⟨rfl, rfl, ⟨hunread.ports, hunread.channels, hunread.stands, hunread.trip⟩, (x.spoil_sameBut hk false).setOp _ _,
    Store.mark_isModified hk false _⟩

theorem eraseSections_le {k : Nat} (hk : k ≤ 4) : ∀ j ∈ eraseSections k, j ≤ 3 := fun j hj => by
  unfold eraseSections at hj
  split at hj
  · simp only [List.mem_cons, List.not_mem_nil, or_false] at hj
    omega
  · rw [List.mem_singleton.1 hj]
    omega

end

/-! ### What a request finds of the store (R179) -/

section
variable {k : Nat}

theorem reqStoreSave_busy (hk : k ≤ 3) (h : s.store.op.isSome = true) : reqStoreSave k s = (s, .busy) :=
  (if_neg (by omega)).trans (if_pos h)
theorem reqStoreErase_busy (hk : k ≤ 4) (h : s.store.op.isSome = true) : reqStoreErase k s = (s, .busy) :=
  (if_neg (by omega)).trans (if_pos h)
theorem reqStoreProtect_busy (hk : k ≤ 1) (h : s.store.op.isSome = true) : reqStoreProtect k s = (s, .busy) :=
  (if_neg (by omega)).trans (if_pos h)

theorem reqStoreSave_idle (hk : k ≤ 3) (h : s.store.op = none) : reqStoreSave k s =
    if s.store.latch = false then refuseStore .notEnabled s
    else if k = secTrip ∧ s.trip.protect then refuseStore .protected_ s
    else (s.modStore (Store.startSave k (.save (s.snapshot k))), .accepted) := by
  unfold reqStoreSave
  rw [if_neg (by omega), if_neg (by rw [h]; decide)]
  exact if_congr (by rw [Bool.not_eq_true']) rfl rfl

theorem reqStoreErase_idle (hk : k ≤ 4) (h : s.store.op = none) : reqStoreErase k s =
    if s.store.latch = false then refuseStore .notEnabled s
    else if 3 ∈ eraseSections k ∧ s.trip.protect = true then refuseStore .protected_ s
    else (s.modStore fun t => { (eraseSections k).foldl (fun t j => t.spoil true j) t with op := some (.erase k), latch := false },
      .accepted) := by
  unfold reqStoreErase
  rw [if_neg (by omega), if_neg (by rw [h]; decide)]
  refine if_congr (by rw [Bool.not_eq_true']) rfl (if_congr ?_ rfl rfl)
  rw [Bool.and_eq_true, List.contains_iff_mem]

theorem reqStoreProtect_idle (hk : k ≤ 1) (h : s.store.op = none) : reqStoreProtect k s =
    if s.store.latch = false then refuseStore .notEnabled s
    else if k = 0 ∧ s.lineStopped = false then refuseStore .state s
    else ({ s with trip := { s.trip with protect := k == 1 } }.modStore (Store.startSave secTrip
      (.protect (.trip ⟨s.tripContent.entries, s.trip.interval, k == 1⟩))), .accepted) := by
  unfold reqStoreProtect
  rw [if_neg (by omega), if_neg (by rw [h]; decide)]
  exact if_congr (by rw [Bool.not_eq_true']) rfl (if_congr (by rw [Bool.not_eq_true']) rfl rfl)

end

theorem map_setAt_keep {α β : Type} {n : Nat} (π : α → β) (w : Vector α n) (d : α) (i : Nat) (f : α → α)
    (h : ∀ a, π (f a) = π a) : (setAt w i (f (getAt w d i))).map π = w.map π := by
  ext j hj
  rw [Vector.getElem_map, Vector.getElem_map]
  unfold setAt getAt
  by_cases hij : i = j
  · subst hij
    rw [Vector.getElem_setIfInBounds_self, h, Vector.getElem?_eq_getElem hj]
    rfl
  · rw [Vector.getElem_setIfInBounds_ne hj hij]

theorem State.snapshot_held (a : Arrival) (f : Frame) (tags : List BlockTag) (s : State) (k : Nat) :
    ((s.taken a.port).hold f tags).snapshot k = s.snapshot k := by
  have hports : ((s.taken a.port).hold f tags).portsContent = s.portsContent :=
    congrArg (fun v => (⟨v, s.part⟩ : PortsSection))
      (map_setAt_keep Port.record s.net.ports _ a.port (fun P => { P with burst := none }) fun _ => rfl)
  unfold State.snapshot
  rw [hports]
  rfl

/-! ### Store requests answered (R179, R180) -/

theorem State.lineStopped_iff : s.lineStopped = true ↔
    (∀ n, 1 ≤ n → n ≤ 8 → (s.stand n).mode = .out ∨ (s.stand n).mode = .ready) ∧ ∀ i, i < 9 → (s.span i).state = .idle := by
  have hstand : ∀ S : Stand, (S.isOut || S.isReady) = true ↔ S.mode = .out ∨ S.mode = .ready := fun S => by
    simp [Stand.isOut, Stand.isReady]
  unfold State.lineStopped
  simp only [Bool.and_eq_true, List.all_eq_true, standNumbers_valid, hstand, List.mem_range, beq_iff_eq, and_imp]

theorem State.lineStopped_false (h : (∃ n, 1 ≤ n ∧ n ≤ 8 ∧ (s.stand n).mode ≠ .out ∧ (s.stand n).mode ≠ .ready) ∨
    (∃ i, i < 9 ∧ (s.span i).state ≠ .idle)) : s.lineStopped = false := by
  rw [← Bool.not_eq_true, State.lineStopped_iff]
  rintro ⟨hstands, hspans⟩
  rcases h with ⟨n, h1, h8, ho, hr⟩ | ⟨i, hi, hne⟩
  · exact (hstands n h1 h8).elim ho hr
  · exact hne (hspans i hi)

section
variable {a : Arrival} {r : Request}

/-- A request that is refused with the latch cleared. -/
theorem State.ask_unlatched {why : Reason} (hs : s.CanReply a)
    (h : ∀ f tags, ((s.taken a.port).hold f tags).carryOut s.net.nextId a r = refuseStore why ((s.taken a.port).hold f tags)) :
    QuietFrame { s.taken a.port with store := { s.store with latch := false } } (s.ask a r) ∧
      s.Replied (s.ask a r) a (requestCode r) (.refused why []) := by
  obtain ⟨hquiet, hreply, -⟩ := State.ask_answered (v := { s.taken a.port with store := { s.store with latch := false } })
    (ans := .refused why []) hs (fun f tags => h f tags) (.refl _ _)
  exact ⟨hquiet, hreply⟩

theorem Store.unlatched {x : Store} (h : x.latch = false) : { x with latch := false } = x := by rw [← h]

/-- A request that starts an operation. -/
theorem State.ask_started {x : Store} {b : Bool} (hs : s.CanReply a)
    (h : ∀ f tags, ((s.taken a.port).hold f tags).carryOut s.net.nextId a r =
      ({ (s.taken a.port).hold f tags with store := x, trip := { s.trip with protect := b } }, .accepted)) :
    QuietFrame { s.taken a.port with store := (s.ask a r).store, trip := { s.trip with protect := b } } (s.ask a r) ∧
      s.Replied (s.ask a r) a (requestCode r) .accepted ∧ (s.ask a r).store = x := by
  obtain ⟨hquiet, hreply, -⟩ := State.ask_answered (v := { s.taken a.port with store := x, trip := { s.trip with protect := b } })
    (ans := .accepted) hs (fun f tags => h f tags) (.refl _ _)
  have hstore : (s.ask a r).store = x := by rw [hquiet.rest]
  rw [hstore]
  exact ⟨hquiet, hreply, rfl⟩

end

section
variable {a : Arrival}

theorem storeRequests_busy (hs : s.CanReply a) (h : s.store.op.isSome = true) (c : Instr) (k : Nat)
    (hc : (c = .storeEnable a ∧ k = 0x50) ∨ (c = .storeDisable a ∧ k = 0x51) ∨
        (∃ x, x ≤ 3 ∧ c = .storeSave a x ∧ k = 0x52) ∨ (∃ x, x ≤ 4 ∧ c = .storeErase a x ∧ k = 0x53) ∨
        (∃ x, x ≤ 1 ∧ c = .storeProtect a x ∧ k = 0x54)) :
    ∃ t, exec c s = .next t ∧ QuietFrame (s.taken a.port) t ∧ s.Replied t a k .busy := by
  rcases hc with ⟨rfl, rfl⟩ | ⟨rfl, rfl⟩ | ⟨x, hx, rfl, rfl⟩ | ⟨x, hx, rfl, rfl⟩ | ⟨x, hx, rfl, rfl⟩
  · exact ⟨_, rfl, State.ask_refused (r := .storeEnable) hs fun u _ _ _ hu _ => if_pos (by rw [hu]; exact h)⟩
  · exact ⟨_, rfl, State.ask_refused (r := .storeDisable) hs fun u _ _ _ hu _ => if_pos (by rw [hu]; exact h)⟩
  · exact ⟨_, rfl, State.ask_refused (r := .storeSave x) hs fun u _ _ _ hu _ => reqStoreSave_busy hx (by rw [hu]; exact h)⟩
  · exact ⟨_, rfl, State.ask_refused (r := .storeErase x) hs fun u _ _ _ hu _ => reqStoreErase_busy hx (by rw [hu]; exact h)⟩
  · exact ⟨_, rfl, State.ask_refused (r := .storeProtect x) hs fun u _ _ _ hu _ => reqStoreProtect_busy hx (by rw [hu]; exact h)⟩

theorem storeRequests_outside (hs : s.CanReply a) (c : Instr) (k : Nat)
    (hc : (∃ x, 3 < x ∧ c = .storeSave a x ∧ k = 0x52) ∨ (∃ x, 4 < x ∧ c = .storeErase a x ∧ k = 0x53) ∨
      (∃ x, 1 < x ∧ c = .storeProtect a x ∧ k = 0x54)) :
    ∃ t, exec c s = .next t ∧ QuietFrame { s.taken a.port with store := { s.store with latch := false } } t ∧
      s.Replied t a k (.refused .range []) := by
  rcases hc with ⟨x, hx, rfl, rfl⟩ | ⟨x, hx, rfl, rfl⟩ | ⟨x, hx, rfl, rfl⟩
  · exact ⟨_, rfl, State.ask_unlatched (r := .storeSave x) hs fun f tags => if_pos hx⟩
  · exact ⟨_, rfl, State.ask_unlatched (r := .storeErase x) hs fun f tags => if_pos hx⟩
  · exact ⟨_, rfl, State.ask_unlatched (r := .storeProtect x) hs fun f tags => if_pos hx⟩

theorem storeRequests_notEnabled (hs : s.CanReply a) (hop : s.store.op = none) (h : s.store.latch = false) (c : Instr) (k : Nat)
    (hc : (∃ x, x ≤ 3 ∧ c = .storeSave a x ∧ k = 0x52) ∨ (∃ x, x ≤ 4 ∧ c = .storeErase a x ∧ k = 0x53) ∨
      (∃ x, x ≤ 1 ∧ c = .storeProtect a x ∧ k = 0x54)) :
    ∃ t, exec c s = .next t ∧ QuietFrame (s.taken a.port) t ∧ s.Replied t a k (.refused .notEnabled []) := by
  have hstill : ({ s.taken a.port with store := { s.store with latch := false } } : State) = s.taken a.port := by
    rw [Store.unlatched h]
    rfl
  rw [← hstill]
  rcases hc with ⟨x, hx, rfl, rfl⟩ | ⟨x, hx, rfl, rfl⟩ | ⟨x, hx, rfl, rfl⟩
  · exact ⟨_, rfl, State.ask_unlatched (r := .storeSave x) hs fun f tags =>
      (reqStoreSave_idle (s := (s.taken a.port).hold f tags) hx hop).trans (if_pos h)⟩
  · exact ⟨_, rfl, State.ask_unlatched (r := .storeErase x) hs fun f tags =>
      (reqStoreErase_idle (s := (s.taken a.port).hold f tags) hx hop).trans (if_pos h)⟩
  · exact ⟨_, rfl, State.ask_unlatched (r := .storeProtect x) hs fun f tags =>
      (reqStoreProtect_idle (s := (s.taken a.port).hold f tags) hx hop).trans (if_pos h)⟩

/-- An enabled save of a section that protection does not cover (R180). -/
theorem storeSave_started (hs : s.CanReply a) (hop : s.store.op = none) (h : s.store.latch = true) {k : Nat} (hk : k ≤ 3)
    (hp : ¬ (k = 3 ∧ s.trip.protect = true)) : QuietFrame { s.taken a.port with store := (s.ask a (.storeSave k)).store }
        (s.ask a (.storeSave k)) ∧ s.Replied (s.ask a (.storeSave k)) a 0x52 .accepted ∧
      (s.ask a (.storeSave k)).store = s.store.startSave k (.save (s.snapshot k)) :=
  State.ask_started (r := .storeSave k) (b := s.trip.protect) hs fun f tags => by
    have hlatch : ¬ s.store.latch = false := by rw [h]; decide
    refine ((reqStoreSave_idle (s := (s.taken a.port).hold f tags) hk hop).trans ((if_neg hlatch).trans (if_neg hp))).trans ?_
    rw [State.snapshot_held]
    rfl

end

/-- Settles O56: the guards in their order, then each operation as it starts. -/
theorem storeRequestsStartOperations : Obligations.StoreRequestsStartOperations := by
  unfold Obligations.StoreRequestsStartOperations
  intro s a hs
  refine ⟨fun hop c k hc => storeRequests_busy hs hop c k hc, fun hop => ⟨?_, ?_,
    fun h c k hc => storeRequests_notEnabled hs hop h c k hc, fun c k hc => storeRequests_outside hs c k hc, fun h => ?_⟩⟩
  case refine_1 =>
    obtain ⟨hquiet, hreply, -⟩ := State.ask_answered (r := .storeEnable) (ans := .done [])
      (v := { s.taken a.port with store := { s.store with latch := true } }) hs
      (fun f tags => if_neg (by rw [show ((s.taken a.port).hold f tags).store.op = none from hop]; decide)) (.refl _ _)
    exact ⟨_, rfl, hquiet, hreply⟩
  case refine_2 =>
    obtain ⟨hquiet, hreply, -⟩ := State.ask_answered (r := .storeDisable) (ans := .done [])
      (v := { s.taken a.port with store := { s.store with latch := false } }) hs
      (fun f tags => if_neg (by rw [show ((s.taken a.port).hold f tags).store.op = none from hop]; decide)) (.refl _ _)
    exact ⟨_, rfl, hquiet, hreply⟩
  case refine_3 =>
    have hlatch : ¬ s.store.latch = false := by rw [h]; decide
    have hsave := fun f tags k (hk : k ≤ 3) => (reqStoreSave_idle (s := (s.taken a.port).hold f tags) hk hop).trans (if_neg hlatch)
    have herase := fun f tags k (hk : k ≤ 4) => (reqStoreErase_idle (s := (s.taken a.port).hold f tags) hk hop).trans (if_neg hlatch)
    have hprotect := fun f tags k (hk : k ≤ 1) =>
      (reqStoreProtect_idle (s := (s.taken a.port).hold f tags) hk hop).trans (if_neg hlatch)
    refine ⟨fun k hk hp => ?save, fun hp k hk => ?covered, fun k l hkl hp => ?erase, fun hline => ?moving, fun k hk => ?protect⟩
    case save =>
      obtain ⟨hquiet, hreply, hstore⟩ := storeSave_started hs hop h hk hp
      have hspec := s.store.startSave_spec hk (.save (s.snapshot k))
      rw [← hstore] at hspec
      exact ⟨s.ask a (.storeSave k), rfl, hquiet, hreply, hspec⟩
    case covered =>
      have hmem : 3 ∈ eraseSections k := by
        rcases hk with rfl | rfl <;> decide
      refine ⟨_, _, rfl, rfl, ?_⟩
      obtain ⟨hquiet, hreply⟩ := State.ask_unlatched (r := .storeSave 3) hs fun f tags =>
        (hsave f tags 3 (le_refl 3)).trans (if_pos ⟨rfl, hp⟩)
      obtain ⟨hquiet', hreply'⟩ := State.ask_unlatched (r := .storeErase k) hs fun f tags =>
        (herase f tags k (by omega)).trans (if_pos ⟨hmem, hp⟩)
      exact ⟨hquiet, hquiet', hreply, hreply'⟩
    case erase =>
      have hk : k ≤ 4 := by omega
      have hl : eraseSections k = l := by
        rcases hkl with ⟨hk, rfl⟩ | ⟨rfl, rfl⟩
        · exact if_neg (by omega)
        · rfl
      have hnot : ¬ (3 ∈ eraseSections k ∧ s.trip.protect = true) := hl ▸ hp
      obtain ⟨hquiet, hreply, hstore⟩ := State.ask_started (r := .storeErase k) (b := s.trip.protect) (x :=
          { (eraseSections k).foldl (fun x j => Store.spoil true j x) s.store with op := some (.erase k), latch := false }) hs
        fun f tags => (herase f tags k hk).trans (if_neg hnot)
      obtain ⟨hsame, hunread, hmod⟩ := Store.spoils_spec true (hl ▸ eraseSections_le hk) s.store
      refine ⟨s.ask a (.storeErase k), rfl, hquiet, hreply, ?_⟩
      rw [hstore]
      subst hl
      exact ⟨rfl, rfl, ⟨hunread.ports, hunread.channels, hunread.stands, hunread.trip⟩, hsame.setOp _ _, hmod⟩
    case moving =>
      exact ⟨_, rfl, State.ask_unlatched (r := .storeProtect 0) hs fun f tags =>
        (hprotect f tags 0 (by omega)).trans (if_pos ⟨rfl, State.lineStopped_false (s := s) hline⟩)⟩
    case protect =>
      have hk1 : k ≤ 1 := by omega
      have hnot : ¬ (k = 0 ∧ s.lineStopped = false) := by
        rintro ⟨rfl, hmoving⟩
        rcases hk with hk | ⟨-, hstopped⟩
        · omega
        · rw [hmoving] at hstopped
          exact Bool.noConfusion hstopped
      obtain ⟨hquiet, hreply, hstore⟩ := State.ask_started (r := .storeProtect k) (b := k == 1) (x := s.store.startSave secTrip
          (.protect (.trip ⟨s.tripContent.entries, s.trip.interval, k == 1⟩))) hs
        fun f tags => (hprotect f tags k hk1).trans (if_neg hnot)
      have hspec := s.store.startSave_spec (le_refl 3) (.protect (.trip ⟨s.tripContent.entries, s.trip.interval, k == 1⟩))
      rw [← hstore] at hspec
      exact ⟨s.ask a (.storeProtect k), k == 1, rfl, rfl, hquiet, hreply, hspec⟩

end Sys2Proof.Machine
end

section
/-! PROOFS. The setting store: the completions and an interrupted write (R180 to R183). -/

namespace Sys2Proof.Machine

variable {s t u v : State}

/-! ### What a write and an erase leave (R179 to R181) -/

section
variable {x y : Store} {l : List Nat}

theorem Snapshot.section_le (c : Snapshot) : c.section_ ≤ 3 := by
  cases c <;> simp only [Snapshot.section_] <;> omega

theorem Store.write_has (c : Snapshot) (x : Store) : (x.write c).Has c := by
  cases c <;> rfl

theorem Store.write_sections (c : Snapshot) (x : Store) : (x.write c).sections = x.sections := by
  cases c <;> rfl

theorem Store.write_op (c : Snapshot) (x : Store) : (x.write c).op = x.op ∧ (x.write c).latch = x.latch := by
  cases c <;> exact ⟨rfl, rfl⟩

theorem Store.write_sameBut (c : Snapshot) (x : Store) : x.SameBut [c.section_] (x.write c) := by
  cases c with
  | ports => exact ⟨fun h => absurd List.mem_cons_self h, fun _ => rfl, fun _ => rfl, fun _ => rfl, fun _ _ => rfl⟩
  | channels => exact ⟨fun _ => rfl, fun h => absurd List.mem_cons_self h, fun _ => rfl, fun _ => rfl, fun _ _ => rfl⟩
  | stands => exact ⟨fun _ => rfl, fun _ => rfl, fun h => absurd List.mem_cons_self h, fun _ => rfl, fun _ _ => rfl⟩
  | trip => exact ⟨fun _ => rfl, fun _ => rfl, fun _ => rfl, fun h => absurd List.mem_cons_self h, fun _ _ => rfl⟩

/-- The end of a write, for a store that is BUSY with it. -/
theorem Store.endWrite_spec (c : Snapshot) (ok : Bool) (x : Store) :
    (x.endWrite c ok).op = none ∧ (x.endWrite c ok).latch = x.latch ∧ x.SameBut [c.section_] (x.endWrite c ok) ∧
      (ok = true → (x.endWrite c ok).Has c ∧ (x.endWrite c ok).sections = x.sections) ∧
      (ok = false → x.SameBut [] { x.endWrite c ok with sections := x.sections } ∧ (x.endWrite c ok).isModified c.section_ = true) := by
  have hfree : x.SameBut [c.section_] { x with op := none } := (Store.SameBut.refl _ x).setOp none x.latch
  cases ok with
  | true =>
    obtain ⟨hop, hlatch⟩ := Store.write_op c { x with op := none }
    exact ⟨hop, hlatch, hfree.trans (Store.write_sameBut c _), fun _ => ⟨Store.write_has c _, Store.write_sections c _⟩,
      fun h => Bool.noConfusion h⟩
  | false =>
    exact ⟨rfl, rfl, hfree.trans (Store.mark_sameBut true _ _), fun h => Bool.noConfusion h,
      fun _ => ⟨(Store.SameBut.refl [] x).setOp none x.latch, Store.mark_isModified c.section_le true _⟩⟩

theorem Store.wipe_sameBut {k : Nat} (hk : k ≤ 3) (x : Store) : x.SameBut [k] (x.wipe k) := by
  interval_cases k
  · exact ⟨fun h => absurd List.mem_cons_self h, fun _ => rfl, fun _ => rfl, fun _ => rfl, fun _ _ => rfl⟩
  · exact ⟨fun _ => rfl, fun h => absurd List.mem_cons_self h, fun _ => rfl, fun _ => rfl, fun _ _ => rfl⟩
  · exact ⟨fun _ => rfl, fun _ => rfl, fun h => absurd List.mem_cons_self h, fun _ => rfl, fun _ _ => rfl⟩
  · exact ⟨fun _ => rfl, fun _ => rfl, fun _ => rfl, fun h => absurd List.mem_cons_self h, fun _ _ => rfl⟩

/-- The sections that `l` names are erased (R181). -/
structure Store.Erased (l : List Nat) (x : Store) : Prop where
  ports : 0 ∈ l → x.ports = .erased
  channels : 1 ∈ l → x.channels = .erased
  stands : 2 ∈ l → x.stands = .erased
  trip : 3 ∈ l → x.trip = .erased

theorem Store.eraseComplete_spec {k : Nat} (hl : (k ≤ 3 ∧ l = [k]) ∨ (k = 4 ∧ l = [0, 1, 2, 3])) (x : Store) :
    ((eraseSections k).foldl (fun x j => Store.wipe j x) x).latch = x.latch ∧
      x.SameBut l ((eraseSections k).foldl (fun x j => Store.wipe j x) x) ∧
      ((eraseSections k).foldl (fun x j => Store.wipe j x) x).sections = x.sections ∧
      ((eraseSections k).foldl (fun x j => Store.wipe j x) x).Erased l := by
  rcases hl with ⟨hk, rfl⟩ | ⟨rfl, rfl⟩
  · rw [show eraseSections k = [k] from if_neg (by omega)]
    refine ⟨?_, Store.wipe_sameBut hk x, ?_, ?_⟩
    · interval_cases k <;> rfl
    · interval_cases k <;> rfl
    · refine ⟨fun h => ?_, fun h => ?_, fun h => ?_, fun h => ?_⟩
      all_goals
        rw [← List.mem_singleton.1 h]
        rfl
  · refine ⟨rfl, ⟨fun h => absurd (by decide) h, fun h => absurd (by decide) h, fun h => absurd (by decide) h,
      fun h => absurd (by decide) h, fun _ _ => rfl⟩, rfl, ⟨fun _ => rfl, fun _ => rfl, fun _ => rfl, fun _ => rfl⟩⟩

end

/-! ### The completions (R180 to R182) -/

theorem State.saveComplete_save {x : Snapshot} (h : s.store.op = some (.save x)) (ok : Bool) :
    s.saveComplete ok = (s.modStore (Store.endWrite x ok)).storeNotice x.section_ 0 ok := by
  unfold State.saveComplete
  rw [h]

theorem State.protectComplete_protect {x : Snapshot} (h : s.store.op = some (.protect x)) (ok : Bool) :
    s.protectComplete ok = (s.modStore (Store.endWrite x ok)).storeNotice x.section_ 2 ok := by
  unfold State.protectComplete
  rw [h]

theorem State.eraseComplete_erase {k : Nat} (h : s.store.op = some (.erase k)) :
    s.eraseComplete = (s.modStore fun x =>
      { (eraseSections k).foldl (fun x j => Store.wipe j x) x with op := none }).storeNotice k 1 true := by
  unfold State.eraseComplete
  rw [h]

theorem State.saveComplete_other (h : ∀ x, s.store.op ≠ some (.save x)) (ok : Bool) : s.saveComplete ok = s := by
  unfold State.saveComplete
  split
  case h_1 x hx => exact absurd hx (h x)
  case h_2 => rfl

theorem State.eraseComplete_other (h : ∀ k, s.store.op ≠ some (.erase k)) : s.eraseComplete = s := by
  unfold State.eraseComplete
  split
  case h_1 k hk => exact absurd hk (h k)
  case h_2 => rfl

theorem State.protectComplete_other (h : ∀ x, s.store.op ≠ some (.protect x)) (ok : Bool) : s.protectComplete ok = s := by
  unfold State.protectComplete
  split
  case h_1 x hx => exact absurd hx (h x)
  case h_2 => rfl

/-- A completion changes the store and sends its notice (R178). -/
theorem State.storeNotice_quiet (f : Store → Store) (k o : Nat) (ok : Bool) (s : State) :
    QuietFrame { s with store := ((s.modStore f).storeNotice k o ok).store } ((s.modStore f).storeNotice k o ok) :=
  State.notice_quiet .storeDone k _ (s.modStore f)

theorem writeComplete_ends (s : State) (ok : Bool) (x : Snapshot) (c : Instr)
    (h : (s.store.op = some (.save x) ∧ c = .storeSaveComplete ok) ∨
      (s.store.op = some (.protect x) ∧ c = .storeProtectComplete ok)) :
    ∃ t, exec c s = .next t ∧ QuietFrame { s with store := t.store } t ∧ t.store = s.store.endWrite x ok := by
  rcases h with ⟨hop, rfl⟩ | ⟨hop, rfl⟩
  · exact ⟨_, congrArg Host.Outcome.next (State.saveComplete_save hop ok), State.storeNotice_quiet _ _ _ _ s, rfl⟩
  · exact ⟨_, congrArg Host.Outcome.next (State.protectComplete_protect hop ok), State.storeNotice_quiet _ _ _ _ s, rfl⟩

/-! ### An interrupted save (R183) -/

/-- The store of a part that has taken an enabled save. -/
theorem storeSave_store {a : Arrival} (hs : s.Hears a) (hop : s.store.op = none) (h : s.store.latch = true) {k : Nat} (hk : k ≤ 3)
    (hp : ¬ (k = 3 ∧ s.trip.protect = true)) :
    (s.ask a (.storeSave k)).store = s.store.startSave k (.save (s.snapshot k)) ∧ (s.ask a (.storeSave k)).phase = s.phase := by
  have hlatch : ¬ s.store.latch = false := by rw [h]; decide
  have hquiet := State.ask_quiet a (.storeSave k) s
    ((s.taken a.port).modStore fun _ => s.store.startSave k (.save (s.snapshot k))) hs (fun f tags => by
      have hacts : ((s.taken a.port).hold f tags).carryOut s.net.nextId a (.storeSave k) = _ :=
        (reqStoreSave_idle (s := (s.taken a.port).hold f tags) hk hop).trans ((if_neg hlatch).trans (if_neg hp))
      rw [hacts, State.snapshot_held]
      exact .refl _) rfl
  rw [hquiet.rest]
  exact ⟨rfl, rfl⟩

/-- An interrupting command keeps what the sections hold and ends the operation. -/
theorem interrupted_store {c : Instr} (hrun : s.phase = .running) (hc : c = .powerLoss ∨ c = .resetInputAssert) :
    ∃ u, exec c s = .next u ∧ u.store.ports = s.store.ports ∧ u.store.channels = s.store.channels ∧
      u.store.stands = s.store.stands ∧ u.store.trip = s.store.trip ∧ u.store.op = none := by
  rcases hc with rfl | rfl
  · exact ⟨_, rfl, rfl, rfl, rfl, rfl, rfl⟩
  · have hpowered : ¬ s.phase = .unpowered := by rw [hrun]; decide
    exact ⟨_, congrArg Host.Outcome.next (if_neg hpowered), rfl, rfl, rfl, rfl, rfl⟩

/-- Settles O57: an interruption only ends the operation, so the section stays as the accepted save has left it. -/
theorem storeOperationsCompleteOrAreInterrupted : Obligations.StoreOperationsCompleteOrAreInterrupted := by
  unfold Obligations.StoreOperationsCompleteOrAreInterrupted
  refine ⟨fun s ok => ⟨fun x c h => ?written, fun k l hop hl => ?erased, fun h => ?noSave, fun h => ?noErase, fun h => ?noProtect⟩,
    fun s a k c hs hk hop hlatch hp hc => ?interrupted⟩
  case written =>
    obtain ⟨t, ht, hquiet, hstore⟩ := writeComplete_ends s ok x c h
    have hspec := s.store.endWrite_spec x ok
    rw [← hstore] at hspec
    exact ⟨t, ht, hquiet, hspec⟩
  case erased =>
    obtain ⟨hlatch, hsame, hsections, herased⟩ := Store.eraseComplete_spec hl s.store
    exact ⟨_, congrArg Host.Outcome.next (State.eraseComplete_erase hop), State.storeNotice_quiet _ _ _ _ s, rfl, hlatch,
      hsame.setOp none _, hsections, herased.ports, herased.channels, herased.stands, herased.trip⟩
  case noSave => exact congrArg Host.Outcome.next (State.saveComplete_other h ok)
  case noErase => exact congrArg Host.Outcome.next (State.eraseComplete_other h)
  case noProtect => exact congrArg Host.Outcome.next (State.protectComplete_other h ok)
  case interrupted =>
    obtain ⟨hstore, hphase⟩ := storeSave_store hs hop hlatch hk hp
    obtain ⟨u, hu, hports, hchannels, hstands, htrip, hfree⟩ := interrupted_store (hphase.trans hs.running) hc
    refine ⟨_, u, rfl, hu, ?_, ?_, ?_, ?_, hfree⟩
    · rw [hports, hstore]
      interval_cases k <;> rfl
    · rw [hchannels, hstore]
      interval_cases k <;> rfl
    · rw [hstands, hstore]
      interval_cases k <;> rfl
    · rw [htrip, hstore]
      interval_cases k <;> rfl

end Sys2Proof.Machine
end

section
/-! PROOFS. RESTART (R40, R62, R177). -/

namespace Sys2Proof.Machine

variable {n : Net} {s t u v : State}

/-! ### What is queued and held since a frame name (R43, R45)

A RESTART is taken with a link side whose frames no hypothesis ties together, so the names in the queues and the buffer
are followed by themselves: every queue entry is of a name from `k` on, and a held frame with an older name is one of `A`. -/

/-- The queues of `n` hold names from `k` on alone, and its buffer, of the older ones, those of `A`. -/
structure Net.AllSince (k : Nat) (A : Nat → Prop) (n : Net) : Prop where
  next : k ≤ n.nextId
  queues : ∀ p, ∀ id ∈ (n.port p).queue, k ≤ id
  frames : ∀ h ∈ n.frames, h.id < k → A h.id

section
variable {k : Nat} {A : Nat → Prop}

theorem Net.AllSince.hold (h : n.AllSince k A) (f : Frame) (tags : List BlockTag) : (n.hold f tags).AllSince k A where
  next := Nat.le_succ_of_le h.next
  queues := h.queues
  frames g hg hid := by
    rcases List.mem_append.1 hg with hg | hg
    · exact h.frames g hg hid
    · rw [List.mem_singleton.1 hg] at hid
      exact absurd h.next (Nat.not_le.2 hid)

/-- A change of references that invents no name. -/
theorem Net.AllSince.of_ids {m : Net} (h : n.AllSince k A) (hp : ∀ p, (m.port p).queue = (n.port p).queue)
    (hn : m.nextId = n.nextId) (hf : ∀ g ∈ m.frames, ∃ g' ∈ n.frames, g'.id = g.id) : m.AllSince k A where
  next := hn ▸ h.next
  queues p id hid := h.queues p id (hp p ▸ hid)
  frames g hg hid := by
    obtain ⟨g', hg', he⟩ := hf g hg
    exact he ▸ h.frames g' hg' (he ▸ hid)

theorem Net.AllSince.addRef (h : n.AllSince k A) (id : Nat) : (n.addRef id).AllSince k A :=
  h.of_ids (fun _ => rfl) rfl fun g hg => by
    obtain ⟨g', hg', rfl⟩ := List.mem_map.1 hg
    exact ⟨g', hg', by split <;> rfl⟩

theorem Net.AllSince.release (h : n.AllSince k A) (id : Nat) : (n.release id).AllSince k A :=
  h.of_ids (fun _ => rfl) rfl fun g hg => by
    obtain ⟨g', hg', rfl⟩ := List.mem_map.1 (List.mem_filter.1 hg).1
    exact ⟨g', hg', by split <;> rfl⟩

theorem Net.AllSince.enqueue (h : n.AllSince k A) {id : Nat} (hid : k ≤ id) (p : Nat) : (n.enqueue p id).1.AllSince k A := by
  unfold Net.enqueue
  split
  · refine Net.AllSince.addRef (n := n.modPort p fun P => { P with queue := P.queue ++ [id] })
      ⟨h.next, fun q j hj => ?_, h.frames⟩ id
    rw [Net.port_modPort] at hj
    split at hj
    case isTrue hq =>
      rcases List.mem_append.1 hj with hj | hj
      · exact h.queues p j hj
      · exact List.mem_singleton.1 hj ▸ hid
    case isFalse => exact h.queues q j hj
  · refine h.of_ids (fun q => ?_) rfl fun g hg => ⟨g, hg, rfl⟩
    unfold Net.count
    rw [Net.port_modPort]
    split
    case isTrue hq => rw [hq.1]
    case isFalse => rfl

theorem Net.AllSince.copies (h : n.AllSince k A) {id : Nat} (hid : k ≤ id) (ps : List Nat) : (n.copies id ps).1.AllSince k A := by
  induction ps generalizing n with
  | nil => exact h
  | cons p ps ih => exact ih (h.enqueue hid p)

theorem Net.AllSince.originate (h : n.AllSince k A) (f : Frame) (ps : List Nat) : (n.originate f ps).AllSince k A := by
  unfold Net.originate Net.build
  by_cases hb : blocksOf f ≤ n.sharedFree
  · have hsent := ((h.hold f (List.replicate (blocksOf f) .shared)).copies h.next ps).release n.nextId
    simp only [hb, if_true]
    split
    · exact hsent.of_ids (fun _ => rfl) rfl fun g hg => ⟨g, hg, rfl⟩
    · exact hsent
  · simp only [hb, if_false]
    exact h.of_ids (fun _ => rfl) rfl fun g hg => ⟨g, hg, rfl⟩

theorem Net.AllSince.notice (h : s.net.AllSince k A) (kind : NoticeKind) (x : Nat) (l : List Byte) :
    (s.notice kind x l).net.AllSince k A := h.originate _ _

theorem Net.AllSince.condNotice (h : s.net.AllSince k A) (c : CondId) : (s.condNotice c).net.AllSince k A := by
  unfold State.condNotice
  split
  · exact h
  · exact h.notice _ _ _

theorem Net.AllSince.restartEvents (h : s.net.AllSince k A) (b : State) : (s.restartEvents b).net.AllSince k A := by
  unfold State.restartEvents
  generalize allConditions.filter _ = l
  induction l generalizing s with
  | nil => exact h
  | cons c l ih => exact ih (h.condNotice c)

theorem Net.AllSince.fire (h : s.net.AllSince k A) (hout : s.AllOut) (e : Nat) (cls : Option Severity) (mask : Byte) (cause : Cause) :
    (s.fire e cls mask cause).net.AllSince k A := by
  cases cls with
  | none => exact Net.AllSince.originate h _ _
  | some c =>
    have hstop := (hout.of_stands (t := { s with trip := { s.trip with firings := bump s.trip.firings } }) rfl).fireStop e c mask cause
    have hnet : (s.fire e (some c) mask cause).net = s.net := (congrArg State.net hstop :)
    rw [hnet]
    exact h

theorem Net.AllSince.fireEntries (h : s.net.AllSince k A) (hout : s.AllOut) (l : List Nat) :
    (l.foldl (fun s e => s.fireEntry e) s).net.AllSince k A := by
  induction l generalizing s with
  | nil => exact h
  | cons e l ih =>
    obtain ⟨hlog, -⟩ := hout.fire e (s.entry e).record.cls (s.entry e).record.mask (.cond (s.entry e).record.cond)
    exact ih (h.fire hout _ _ _ _) (hout.of_stands hlog.stands)

theorem Net.AllSince.matrixInForce (h : s.net.AllSince k A) (hout : s.AllOut) : s.matrixInForce.net.AllSince k A := by
  unfold State.matrixInForce
  rw [State.proceed_eq]
  have hkeep : ∀ es, (s.startEntries es).net = s.net ∧ (s.startEntries es).stands = s.stands := fun es => by
    unfold State.startEntries
    generalize s = w
    induction es generalizing w with
    | nil => exact ⟨rfl, rfl⟩
    | cons e es ih => exact ih (w.modEntry e TripEntry.start)
  exact Net.AllSince.fireEntries ((hkeep _).1.symm ▸ h) (hout.of_stands (hkeep _).2) _

end

/-! ### A port over a RESTART (R40, R62) -/

/-- Under a role other than DISABLED, what of the line's state a RESTART spares. -/
theorem Port.restarted_eq (r : PortRecord) (P : Port) : P.restarted r = { Port.cold r P.energy with
    link := if r.role = .disabled then .disabled else if P.link = .up then .up else if P.energy then .sync else .down
    idleRun := (P.restarted r).idleRun
    sending := P.sending
    rateLeft := P.rateLeft
    rateSpoiled := P.rateSpoiled || !P.energy || P.link == .disabled || r.role == .disabled
    silenceTimer := if r.role = .disabled then none else some r.silenceTime } := by
  unfold Port.restarted
  by_cases hrole : r.role = .disabled
  · rw [if_pos hrole, if_pos hrole, if_pos hrole]
    rfl
  · rw [if_neg hrole, if_neg hrole, if_neg hrole]
    by_cases hup : P.link = .up
    · rw [if_pos hup, if_pos hup]
    · rw [if_neg hup, if_neg hup]
      obtain ⟨_, _, energy⟩ := P
      cases energy <;> rfl

/-! ### A RESTART taken (R177) -/

/-- The frames that a RESTART leaves in the buffer are those on the line and the request's. -/
theorem State.restarting_since (k : Nat) (hk : k ≤ s.net.nextId) : (s.restarting k).net.AllSince k
    fun id => ∃ p, p < 12 ∧ (s.port p).sending.bind Sending.held = some id where
  next := hk
  queues p id hid := by
    by_cases hp : p < 12
    · have hport : (s.restarting k).net.port p = _ := Net.restarted_port _ k s.net hp
      rw [hport, Port.restarted_eq] at hid
      exact absurd hid List.not_mem_nil
    · rw [Net.port_outside _ hp] at hid
      exact absurd hid List.not_mem_nil
  frames h hh hid := by
    obtain ⟨hmap, hrefs⟩ := List.mem_filter.1 hh
    obtain ⟨g, -, rfl⟩ := List.mem_map.1 hmap
    have hne : s.net.refsKept k g.id ≠ 0 := bne_iff_ne.1 hrefs
    have hcount : (portNumbers.filter fun p => ((s.net.port p).sending.bind Sending.held) == some g.id).length ≠ 0 := by
      rwa [Net.refsKept, if_neg (Nat.ne_of_lt hid)] at hne
    obtain ⟨p, hp⟩ := List.exists_mem_of_length_pos (Nat.pos_of_ne_zero hcount)
    obtain ⟨hnum, hheld⟩ := List.mem_filter.1 hp
    exact ⟨p, (mem_portNumbers p).1 hnum, beq_iff_eq.1 hheld⟩

/-- The changed conditions over a RESTART are reported alone; no entry has moved yet (R155). -/
theorem State.restartEvents_quiet (b s : State) : QuietFrame s (s.restartEvents b) := by
  unfold State.restartEvents
  generalize allConditions.filter _ = l
  induction l generalizing s with
  | nil => exact .refl s
  | cons c l ih => exact (State.condNotice_quiet c s).trans (ih (s.condNotice c))

theorem State.loadSections_idle (s : State) (e : Nat) : (s.loadSections.entry e).state = .idle := by
  rw [State.loadSections_eq_checked]
  exact State.loadTrip_idle _ e

/-- A RESTART taken, as its notices and the matrix coming into force leave it. -/
theorem State.restart_inForce (k : Nat) (s : State) : ∃ w, QuietFrame (s.restarting k).loadSections w ∧
    State.InForce w (s.restart k) ∧ ∀ A, (s.restarting k).net.AllSince k A → (s.restart k).net.AllSince k A := by
  have hloaded := State.loadSections_allOut (s.restarting k)
  have hstill := State.loadSections_idle (s.restarting k)
  have hnet := State.loadSections_net (s.restarting k)
  rw [State.restart_eq]
  generalize (s.restarting k).loadSections = v at hloaded hstill hnet
  have hquiet := State.restartEvents_quiet s v
  have hout : (v.restartEvents s).AllOut := hloaded.of_stands hquiet.stands
  have hidle : ∀ e, ((v.restartEvents s).entry e).state = .idle := fun e => by
    rw [hquiet.entry]
    exact hstill e
  refine ⟨_, hquiet, hout.matrixInForce hidle, fun A h => ?_⟩
  rw [← hnet] at h
  exact (h.restartEvents s).matrixInForce hout

/-- What a taken RESTART, and frames of the part's own making after it, leave of the units and of the ports. -/
theorem State.restart_spec {k : Nat} (hq : QuietFrame (s.restart k) u) (ht : t = { u with net := t.net })
    (hp : ∀ p, (t.port p).unqueued = (u.port p).unqueued) :
    s.LoadedFrom t ∧ t.phase = s.phase ∧ t.time = s.time ∧ t.pending = s.pending ∧ t.resetInput = s.resetInput ∧
      t.supplyLow = s.supplyLow ∧ t.store.latch = false ∧ t.store.op = s.store.op ∧
      ∀ p, p < 12 → (t.port p).unqueued = ((s.port p).restarted (getAt s.store.portsIn.ports (builtInPort .disabled) p)).unqueued := by
  obtain ⟨w, hw, hx, -⟩ := s.restart_inForce k
  have hports : ∀ p, (t.port p).unqueued = ((s.restarting k).port p).unqueued := fun p => by
    have hload : (s.restarting k).loadSections.port p = (s.restarting k).port p :=
      congrArg (fun m => Net.port m p) (State.loadSections_net _)
    exact (hp p).trans ((hq.net.ports p).trans ((hx.net.ports p).trans ((hw.net.ports p).trans (congrArg Port.unqueued hload))))
  have hat : ∀ p, p < 12 → (s.restarting k).port p =
      (s.port p).restarted (getAt s.store.portsIn.ports (builtInPort .disabled) p) := fun p hp => Net.restarted_port _ k s.net hp
  have hrest : t = { s.restart k with net := t.net } := by rw [ht, hq.rest]
  have hrecord : ∀ p, (t.port p).record = ((s.restarting k).port p).record := fun p =>
    (congrArg Port.record (hports p) :)
  have hloaded : (s.restarting k).LoadedFrom t := State.loadedFrom hw hx (by rw [hrest]) hrecord (fun c =>
      State.level_congr (fun p => (hp p).trans (hq.net.ports p)) (by rw [hrest]) (by rw [hrest]) (by rw [hrest]) c)
    fun p hp => by
      rw [hat p hp, Port.restarted_eq]
      rfl
  have hstart := State.loadSections_rest (s.restarting k)
  refine ⟨⟨hloaded.part, hloaded.ports, hloaded.listed, hloaded.unlisted, hloaded.channels, hloaded.spans, hloaded.stands,
    hloaded.group, hloaded.matrix, hloaded.entries, hloaded.log, hloaded.firings, hloaded.counts, hloaded.sections,
    hloaded.sources, hloaded.modified⟩, ?_, ?_, ?_, ?_, ?_, ?_, ?_, fun p hp => (hports p).trans (congrArg _ (hat p hp))⟩
  all_goals
    rw [hrest, hx.rest, hw.rest, hstart]
    rfl

theorem reqRestart_taken (k : Nat) (hop : s.store.op = none) (hstop : s.lineStopped = true) :
    reqRestart k s = (s.restart k, .done (s.restart k).identifyBody) :=
  (if_neg (by rw [hop]; decide)).trans (if_neg (by rw [hstop]; decide))

theorem reqRestart_moving (k : Nat) (hop : s.store.op = none) (hmoves : s.lineStopped = false) :
    reqRestart k s = (s, .refused .state []) :=
  (if_neg (by rw [hop]; decide)).trans (if_pos (by rw [hmoves]; rfl))

theorem serve_restart (k : Nat) (a : Arrival) (hop : s.store.op = none) (hstop : s.lineStopped = true) :
    s.serve k a 0x60 (.ok .restart) = ((s.restart k).reply a 0x60 (.done (s.restart k).identifyBody)).release k := by
  have hcarry : s.carryOut k a .restart = (s.restart k, .done (s.restart k).identifyBody) := reqRestart_taken k hop hstop
  rw [State.serve_eq, hcarry]

/-- A RESTART taken at its arrival port. -/
theorem restart_taken {a : Arrival} (hs : s.Hears a) (hop : s.store.op = none) (hstop : s.lineStopped = true) :
    ∃ f tags ans, s.ask a .restart =
      ((((s.taken a.port).hold f tags).restart s.net.nextId).reply a 0x60 ans).release s.net.nextId :=
  ⟨_, _, _, (State.ask_eq a .restart s hs).trans (serve_restart s.net.nextId a hop hstop)⟩

/-- The frames left after a RESTART is answered. -/
theorem State.restart_since (a : Arrival) (ans : Answer) {k : Nat} (hk : k ≤ s.net.nextId) :
    (((s.restart k).reply a 0x60 ans).release k).net.AllSince k
      fun id => ∃ p, p < 12 ∧ (s.port p).sending.bind Sending.held = some id := by
  obtain ⟨-, -, -, hsince⟩ := s.restart_inForce k
  exact ((hsince _ (State.restarting_since k hk)).originate _ _).release k

theorem State.release_aside (k : Nat) (s : State) : s.release k = { s with net := (s.release k).net } ∧
    ∀ p, (s.release k).port p = s.port p := ⟨rfl, fun _ => rfl⟩

/-- `State.restart_spec` for a RESTART as it is answered. -/
theorem State.restart_answered {a : Arrival} {ans : Answer} {k : Nat} (ht : t = ((s.restart k).reply a 0x60 ans).release k) :
    s.LoadedFrom t ∧ t.phase = s.phase ∧ t.time = s.time ∧ t.pending = s.pending ∧ t.resetInput = s.resetInput ∧
      t.supplyLow = s.supplyLow ∧ t.store.latch = false ∧ t.store.op = s.store.op ∧
      ∀ p, p < 12 → (t.port p).unqueued = ((s.port p).restarted (getAt s.store.portsIn.ports (builtInPort .disabled) p)).unqueued := by
  have hquiet := State.reply_quiet a 0x60 ans (s.restart k)
  generalize (s.restart k).reply a 0x60 ans = u at ht hquiet
  obtain ⟨hrest, hports⟩ := State.release_aside k u
  rw [← ht] at hrest hports
  exact State.restart_spec hquiet hrest fun p => congrArg Port.unqueued (hports p)

theorem Port.restarted_burst (r : PortRecord) (P : Port) : ({ P with burst := none } : Port).restarted r = P.restarted r := rfl

/-- Settles O55: `State.loadedFrom` gives the blocks, `Port.restarted_eq` the ports, and `State.restarting_since` the frames. -/
theorem restartReloadsEveryBlock : Obligations.RestartReloadsEveryBlock := by
  unfold Obligations.RestartReloadsEveryBlock
  intro s a hs
  refine ⟨fun hr hop => ?busy, fun hr hop hmoving => ?state, fun hop hstands hspans => ?taken⟩
  case busy =>
    exact ⟨_, rfl, State.ask_refused (r := .restart) hr fun u _ _ _ hu _ => if_pos (by rw [hu]; exact hop)⟩
  case state =>
    obtain ⟨hquiet, hreply, -⟩ := State.ask_answered (r := .restart) (ans := .refused .state []) (v := s.taken a.port) hr
      (fun f tags => reqRestart_moving (s := (s.taken a.port).hold f tags) _ hop (State.lineStopped_false (s := s) hmoving)) (.refl _ _)
    exact ⟨_, rfl, hquiet, hreply⟩
  case taken =>
    obtain ⟨f, tags, ans, hask⟩ := restart_taken hs hop (State.lineStopped_iff.2 ⟨hstands, hspans⟩)
    obtain ⟨hloaded, hphase, htime, hpending, hreset, hsupply, hlatch, hfree, hports⟩ := State.restart_answered hask
    have hsince := State.restart_since (s := (s.taken a.port).hold f tags) a ans (Nat.le_succ s.net.nextId)
    rw [← hask] at hsince
    refine ⟨_, rfl, ?_⟩
    generalize s.ask a .restart = t at *
    refine ⟨hphase.trans hs.running, htime, hpending, hreset, hsupply, hlatch, hfree.trans hop, ?_, fun p hp => ⟨_, rfl, ?_⟩,
      fun h hh hid => ?_⟩
    · exact ⟨hloaded.part, hloaded.ports, hloaded.listed, hloaded.unlisted, hloaded.channels, hloaded.spans, hloaded.stands,
        hloaded.group, hloaded.matrix, hloaded.entries, hloaded.log, hloaded.firings, hloaded.counts, hloaded.sections,
        hloaded.sources, hloaded.modified⟩
    · have hport := (hports p hp).trans (congrArg Port.unqueued (s.port_held a f tags (Port.restarted _) (fun P => P.restarted_burst _) p))
      rw [Port.restarted_eq] at hport
      have hat := fun {α : Type} (π : Port → α) (hπ : ∀ P : Port, π P.unqueued = π P) =>
        ((hπ (t.port p)).symm.trans (congrArg π hport)).trans (hπ _)
      rw [show (t.port p).record = _ from hat Port.record fun _ => rfl]
      refine ⟨hat Port.energy fun _ => rfl, hat Port.sending fun _ => rfl, hat Port.link fun _ => rfl, hat Port.mode fun _ => rfl,
        hat Port.burst fun _ => rfl, hat Port.loop fun _ => rfl, hat Port.silent fun _ => rfl, hat Port.rate fun _ => rfl,
        fun hrole => ?_, hat Port.limiting fun _ => rfl, hat Port.stormCount fun _ => rfl, hat Port.stormLeft fun _ => rfl,
        hat Port.panel fun _ => rfl, hat (fun P => P.checker.inSync) fun _ => rfl, hat Port.injection fun _ => rfl,
        hat Port.stopSlot fun _ => rfl, hat Port.commandSlot fun _ => rfl, hsince.queues p,
        hat (fun P => { P.counters with queueFull := 0 }) fun _ => rfl, hat Port.silenceTimer fun _ => rfl⟩
      refine (hat Port.rateSpoiled fun _ => rfl).trans ?_
      have hoff : (getAt s.store.portsIn.ports (builtInPort .disabled) p).role = .disabled := hrole
      show (_ || (getAt s.store.portsIn.ports (builtInPort .disabled) p).role == .disabled) = true
      rw [hoff]
      exact Bool.or_true _
    · obtain ⟨q, hq, hheld⟩ := hsince.frames h hh hid
      exact ⟨q, hq, (s.port_held a f tags (fun P => P.sending.bind Sending.held) (fun _ => rfl) q).symm.trans hheld⟩

end Sys2Proof.Machine
end

section
/-! PROOFS. LOAD PORT: the record, a role changed, and a reservation lowered (R17, R18, R41, R44). -/

namespace Sys2Proof.Machine

variable {n m : Net} {s t u v : State}

/-! ### Blocks retagged (R44, log 14) -/

/-- Up to `k` blocks of the port's reservation become shared ones, and `k` less them is left to retag. -/
theorem retagTags_spec (p k : Nat) (l : List BlockTag) :
    (retagTags p k l).1 = k - min k (l.count (.reserved p)) ∧
    (retagTags p k l).2.count (.reserved p) = l.count (.reserved p) - min k (l.count (.reserved p)) ∧
    (retagTags p k l).2.count .shared = l.count .shared + min k (l.count (.reserved p)) ∧
    ∀ q, q ≠ p → (retagTags p k l).2.count (.reserved q) = l.count (.reserved q) := by
  induction l generalizing k with
  | nil => cases k <;> simp [retagTags]
  | cons t l ih =>
    cases k with
    | zero => simp [retagTags]
    | succ k =>
      by_cases h : t = .reserved p
      · subst h
        obtain ⟨h1, h2, h3, h4⟩ := ih k
        have hstep : retagTags p (k + 1) (.reserved p :: l) = ((retagTags p k l).1, .shared :: (retagTags p k l).2) := if_pos rfl
        rw [hstep, List.count_cons_self, List.count_cons_of_ne (by simp), List.count_cons_self, List.count_cons_of_ne (by simp)]
        refine ⟨?_, ?_, ?_, fun q hq => ?_⟩
        · dsimp only; omega
        · omega
        · omega
        · rw [List.count_cons_of_ne (by simp), List.count_cons_of_ne (by simpa using fun h => hq h.symm), h4 q hq]
      · obtain ⟨h1, h2, h3, h4⟩ := ih (k + 1)
        have hstep : retagTags p (k + 1) (t :: l) = ((retagTags p (k + 1) l).1, t :: (retagTags p (k + 1) l).2) := if_neg h
        rw [hstep, List.count_cons_of_ne h, List.count_cons_of_ne h]
        refine ⟨h1, h2, ?_, fun q hq => ?_⟩
        · rw [List.count_cons, List.count_cons, h3]
          omega
        · rw [List.count_cons, List.count_cons, h4 q hq]

theorem retagFrames_spec (p k : Nat) (l : List HeldFrame) :
    (retagFrames p k l).1 = k - min k ((l.flatMap HeldFrame.tags).count (.reserved p)) ∧
    ((retagFrames p k l).2.flatMap HeldFrame.tags).count (.reserved p) =
      (l.flatMap HeldFrame.tags).count (.reserved p) - min k ((l.flatMap HeldFrame.tags).count (.reserved p)) ∧
    ((retagFrames p k l).2.flatMap HeldFrame.tags).count .shared =
      (l.flatMap HeldFrame.tags).count .shared + min k ((l.flatMap HeldFrame.tags).count (.reserved p)) ∧
    ∀ q, q ≠ p → ((retagFrames p k l).2.flatMap HeldFrame.tags).count (.reserved q) =
      (l.flatMap HeldFrame.tags).count (.reserved q) := by
  induction l generalizing k with
  | nil => simp [retagFrames]
  | cons h l ih =>
    obtain ⟨h1, h2, h3, h4⟩ := retagTags_spec p k h.tags
    obtain ⟨g1, g2, g3, g4⟩ := ih (retagTags p k h.tags).1
    have hstep : retagFrames p k (h :: l) = ((retagFrames p (retagTags p k h.tags).1 l).1,
      { h with tags := (retagTags p k h.tags).2 } :: (retagFrames p (retagTags p k h.tags).1 l).2) := rfl
    rw [hstep]
    simp only [List.flatMap_cons, List.count_append]
    refine ⟨by omega, by omega, by omega, fun q hq => ?_⟩
    rw [h4 q hq, g4 q hq]

/-- The blocks of port `p`'s reservation that no other port holds are those of the frames and of its own receiver. -/
theorem Net.used_alone {p : Nat} (hp : p < 12) (h : ∀ q, q ≠ p → .reserved p ∉ (n.port q).heldTags) :
    n.used p = n.frameTags (.reserved p) + (n.port p).heldTags.count (.reserved p) := by
  have h1 := n.count_tags_modPort p (fun P => { P with burst := none, loop := none }) (.reserved p) hp
  have h2 := (n.modPort p fun P => { P with burst := none, loop := none }).count_tags (.reserved p)
  have hzero : (portNumbers.map fun q =>
      ((n.modPort p fun P => { P with burst := none, loop := none }).port q).heldTags.count (.reserved p)).sum = 0 := by
    refine List.sum_eq_zero fun x hx => ?_
    obtain ⟨q, -, rfl⟩ := List.mem_map.1 hx
    rw [Net.port_modPort]
    split
    · rfl
    · rename_i hpq
      exact List.count_eq_zero.2 (h q fun hq => hpq ⟨hq.symm, hp⟩)
  have hempty : ({ n.port p with burst := none, loop := none } : Port).heldTags.count (.reserved p) = 0 := rfl
  have hframes : ((n.modPort p fun P => { P with burst := none, loop := none }).frames.flatMap HeldFrame.tags).count (.reserved p) =
      n.frameTags (.reserved p) := rfl
  rw [hzero, hframes] at h2
  rw [hempty, h2] at h1
  unfold Net.used
  omega

/-- A port whose receiver's blocks are retagged, `k` of the burst from the line and what is left over of the loop. -/
def Port.retagged (p k : Nat) (P : Port) : Port :=
  { P with
    burst := P.burst.map fun b => { b with tags := (retagTags p k (burstTags P.burst)).2 }
    loop := P.loop.map fun b => { b with tags := (retagTags p (retagTags p k (burstTags P.burst)).1 b.tags).2 } }

theorem Port.heldTags_retagged (p k : Nat) (P : Port) (t : BlockTag) : (P.retagged p k).heldTags.count t =
    (retagTags p k (burstTags P.burst)).2.count t +
      (retagTags p (retagTags p k (burstTags P.burst)).1 (burstTags P.loop)).2.count t := by
  have hnil : ∀ j, (retagTags p j []).2 = [] := fun j => by cases j <;> rfl
  unfold Port.heldTags Port.retagged
  rw [List.count_append]
  cases P.burst <;> cases P.loop <;> simp only [Option.map_none, Option.map_some, burstTags, hnil]

theorem Net.retag_eq (p k : Nat) (n : Net) : n.retag p k =
    ({ n with frames := (retagFrames p k n.frames).2 } : Net).modPort p
      (fun P => { P with
        burst := P.burst.map fun b =>
          { b with tags := (retagTags p (retagFrames p k n.frames).1 (burstTags (n.port p).burst)).2 }
        loop := P.loop.map fun b =>
          { b with tags := (retagTags p (retagTags p (retagFrames p k n.frames).1 (burstTags (n.port p).burst)).1 b.tags).2 } }) :=
  rfl

/-- The blocks held once `k` of them are retagged. -/
theorem Net.retag_counts {p k : Nat} (hp : p < 12) (h : ∀ q, q ≠ p → .reserved p ∉ (n.port q).heldTags) (hk : k ≤ n.used p) :
    (n.retag p k).used p = n.used p - k ∧ (n.retag p k).sharedUsed = n.sharedUsed + k ∧
      ∀ q, q ≠ p → (n.retag p k).used q = n.used q := by
  obtain ⟨f1, f2, f3, f4⟩ := retagFrames_spec p k n.frames
  generalize hj : (retagFrames p k n.frames).1 = j at f1
  obtain ⟨b1, b2, b3, b4⟩ := retagTags_spec p j (burstTags (n.port p).burst)
  obtain ⟨l1, l2, l3, l4⟩ := retagTags_spec p (retagTags p j (burstTags (n.port p).burst)).1 (burstTags (n.port p).loop)
  have hused := Net.used_alone hp h
  have hheld : ∀ t, (n.port p).heldTags.count t = (burstTags (n.port p).burst).count t + (burstTags (n.port p).loop).count t :=
    fun t => List.count_append
  have hcount : ∀ t, (n.retag p k).tags.count t + (n.frames.flatMap HeldFrame.tags).count t + (n.port p).heldTags.count t =
      n.tags.count t + ((retagFrames p k n.frames).2.flatMap HeldFrame.tags).count t + ((n.port p).retagged p j).heldTags.count t :=
    fun t => by
      have h1 := Net.count_tags_modPort { n with frames := (retagFrames p k n.frames).2 } p (fun _ => (n.port p).retagged p j) t hp
      have h2 := Net.count_tags { n with frames := (retagFrames p k n.frames).2 } t
      have h3 := n.count_tags t
      have heq : n.retag p k =
          ({ n with frames := (retagFrames p k n.frames).2 } : Net).modPort p fun _ => (n.port p).retagged p j := by
        rw [Net.retag_eq, hj]
        exact Net.modPort_congr rfl
      rw [heq]
      have hports : (portNumbers.map fun q => (({ n with frames := (retagFrames p k n.frames).2 } : Net).port q).heldTags.count t) =
          portNumbers.map fun q => (n.port q).heldTags.count t := rfl
      rw [hports] at h2
      change _ + (n.port p).heldTags.count t = _ at h1
      change _ = _ + ((retagFrames p k n.frames).2.flatMap HeldFrame.tags).count t at h2
      omega
  refine ⟨?_, ?_, fun q hq => ?_⟩
  · have hc := hcount (.reserved p)
    rw [Port.heldTags_retagged, hheld] at hc
    rw [hheld] at hused
    unfold Net.used Net.frameTags at *
    omega
  · have hc := hcount .shared
    rw [Port.heldTags_retagged, hheld] at hc
    rw [hheld] at hused
    unfold Net.used Net.sharedUsed Net.frameTags at *
    omega
  · have hc := hcount (.reserved q)
    rw [Port.heldTags_retagged, hheld, f4 q hq, b4 q hq, l4 q hq] at hc
    unfold Net.used
    omega

/-- A reservation that is not lowered, or that covers the blocks held, keeps every tag (R44, R62). -/
theorem Net.lowerReservation_keep {p r : Nat} (h : n.used p ≤ r ∨ n.reservation p ≤ r) : n.lowerReservation p r = n :=
  if_neg (by omega)

theorem Net.lowerReservation_counts {p r : Nat} (hp : p < 12) (h : ∀ q, q ≠ p → .reserved p ∉ (n.port q).heldTags)
    (hr : r < n.reservation p) : (n.lowerReservation p r).used p = min (n.used p) r ∧
      (n.lowerReservation p r).sharedUsed = n.sharedUsed + (n.used p - r) ∧
      ∀ q, q ≠ p → (n.lowerReservation p r).used q = n.used q := by
  by_cases hu : r < n.used p
  · obtain ⟨h1, h2, h3⟩ := Net.retag_counts hp h (k := n.used p - r) (by omega)
    rw [Net.lowerReservation, if_pos ⟨hr, hu⟩]
    exact ⟨by omega, h2, h3⟩
  · rw [Net.lowerReservation_keep (.inl (by omega))]
    exact ⟨by omega, by omega, fun _ _ => rfl⟩

end Sys2Proof.Machine
end

section
/-! PROOFS. LOAD PORT answered (R17, R18, R41, R44). -/

namespace Sys2Proof.Machine

variable {n m : Net} {s t u v : State}

/-! ### A port under a new record (R18, R26, R29) -/

/-- The port of a kept role. -/
theorem Port.loaded_same {r : PortRecord} {P : Port} (h : P.record.role = r.role) : P.loaded r = { P with
    record := r
    silenceTimer := if P.record.silenceTime = r.silenceTime ∨ r.role = .disabled then P.silenceTimer else some r.silenceTime
    stormCount := if P.record.stormWindow = r.stormWindow ∧ P.record.rising = r.rising ∧ P.record.falling = r.falling
      then P.stormCount else 0
    stormLeft := if P.record.stormWindow = r.stormWindow ∧ P.record.rising = r.rising ∧ P.record.falling = r.falling
      then P.stormLeft else r.stormWindow } := by
  unfold Port.loaded
  rw [if_pos h, h]
  split <;> split <;> rfl

/-- A port out of any test mode. -/
def Port.outOfTest (P : Port) : Port := if P.mode = .none then P else P.leaveTest

theorem Port.outOfTest_eq (P : Port) : P.outOfTest = { P with
    mode := .none
    burst := if P.mode ≠ .none then none else P.burst
    checker := if P.mode = .none then P.checker else { P.checker with inSync := false, goodRun := 0, badRun := 0 }
    injection := if P.mode = .none then P.injection else false } := by
  unfold Port.outOfTest
  by_cases h : P.mode = .none
  · rw [if_pos h, if_pos h, if_pos h, if_neg (not_not.2 h), ← h]
  · rw [if_neg h, if_neg h, if_neg h, if_pos h]
    rfl

/-- The port of a changed role. -/
theorem Port.loaded_changed {r : PortRecord} {P : Port} (h : P.record.role ≠ r.role) : P.loaded r = { P with
    record := r, mode := .none, stormCount := 0, stormLeft := r.stormWindow
    link := if r.role = .disabled then .disabled
      else if P.record.role = .disabled then (if P.energy then .sync else .down) else P.link
    idleRun := if r.role ≠ .disabled ∧ P.record.role = .disabled ∧ P.energy = true then 0 else P.idleRun
    burst := if P.mode ≠ .none ∨ r.role = .disabled ∨ P.record.role = .disabled then none else P.burst
    loop := if r.role = .disabled then none else P.loop
    checker := if P.mode = .none then P.checker else { P.checker with inSync := false, goodRun := 0, badRun := 0 }
    injection := if P.mode = .none then P.injection else false
    silenceTimer := if r.role = .disabled then none
      else if P.record.silenceTime = r.silenceTime ∧ P.record.role ≠ .disabled then P.silenceTimer else some r.silenceTime
    silent := if r.role = .disabled then false else P.silent
    rate := if r.role = .disabled then false else P.rate
    rateSpoiled := if r.role = .disabled then true else P.rateSpoiled
    limiting := if r.role = .disabled then false else P.limiting
    stopSlot := if r.role = .disabled then none else P.stopSlot
    commandSlot := if r.role = .disabled then none else P.commandSlot } := by
  have htimers : P.loaded r = ({ P with
      record := r
      silenceTimer := if P.record.silenceTime = r.silenceTime ∨ P.record.role = .disabled then P.silenceTimer else some r.silenceTime
      stormCount := if P.record.stormWindow = r.stormWindow ∧ P.record.rising = r.rising ∧ P.record.falling = r.falling
        then P.stormCount else 0
      stormLeft := if P.record.stormWindow = r.stormWindow ∧ P.record.rising = r.rising ∧ P.record.falling = r.falling
        then P.stormLeft else r.stormWindow } : Port).changeRole P.record.role r.role := by
    unfold Port.loaded
    rw [if_neg h]
    split <;> split <;> rfl
  rw [htimers]
  show (if r.role = .disabled then ({ Port.outOfTest _ with stormCount := 0, stormLeft := (Port.outOfTest _).record.stormWindow } : Port).disable
    else if P.record.role = .disabled then
      ({ Port.outOfTest _ with stormCount := 0, stormLeft := (Port.outOfTest _).record.stormWindow } : Port).enable
    else { Port.outOfTest _ with stormCount := 0, stormLeft := (Port.outOfTest _).record.stormWindow }) = _
  rw [Port.outOfTest_eq]
  by_cases hnew : r.role = .disabled
  · simp [hnew, Port.disable, Port.toLink]
  · by_cases hold : P.record.role = .disabled
    · cases P.energy <;> simp [hnew, hold, Port.enable, Port.toLink]
    · simp [hnew, hold]

/-! ### The blocks held while a request is served (R41, R43) -/

section
variable {a : Arrival} {r : Request}

/-- `State.ask_event` for an owner whose work depends on the blocks held. -/
theorem State.ask_event_held (hs : s.Hears a)
    (h : ∀ f tags, tags = burstTags (s.port a.port).burst →
      EventFrame (v.hold f tags) (((s.taken a.port).hold f tags).carryOut s.net.nextId a r).1)
    (hv : v.net.nextId = s.net.nextId) : EventFrame v (s.ask a r) := by
  rw [State.ask_eq a r s hs, State.serve_eq, ← hv]
  rw [← hv] at h
  exact ((h _ _ rfl).trans (State.reply_quiet a (requestCode r) _ _).event).release_hold

/-- `State.ask_quiet` for an owner whose work depends on the blocks held. -/
theorem State.ask_quiet_held (hs : s.Hears a)
    (h : ∀ f tags, tags = burstTags (s.port a.port).burst →
      QuietFrame (v.hold f tags) (((s.taken a.port).hold f tags).carryOut s.net.nextId a r).1)
    (hv : v.net.nextId = s.net.nextId) : QuietFrame v (s.ask a r) := by
  rw [State.ask_eq a r s hs, State.serve_eq, ← hv]
  rw [← hv] at h
  exact ((h _ _ rfl).trans (State.reply_quiet a (requestCode r) _ _)).release_hold

end

theorem Net.used_keep (n : Net) {p q : Nat} (hp : p < 12) (f : Frame) :
    ((n.dropBurst p).hold f (burstTags (n.port p).burst)).used q = n.used q := n.count_tags_keep p hp f _

theorem Net.used_release (n : Net) (id p : Nat) : (n.release id).used p ≤ n.used p := by
  refine List.Sublist.count_le _ ((List.Sublist.refl _).append ?_)
  change (((n.frames.map fun h => if h.id = id then { h with refs := h.refs - 1 } else h).filter fun h => h.refs != 0).flatMap
    HeldFrame.tags).Sublist (n.frames.flatMap HeldFrame.tags)
  have hmap : (n.frames.map fun h => if h.id = id then { h with refs := h.refs - 1 } else h).flatMap HeldFrame.tags =
      n.frames.flatMap HeldFrame.tags := by
    rw [List.flatMap_map]
    congr 1
    funext h
    split <;> rfl
  rw [← hmap]
  exact List.filter_sublist.flatMap _

theorem Net.used_emptyQueue (n : Net) {p : Nat} (hp : p < 12) (q : Nat) : (n.emptyQueue p).used q ≤ n.used q := by
  have hfold : ∀ (l : List Nat) (m : Net), (l.foldl (fun m id => m.release id) m).used q ≤ m.used q := fun l => by
    induction l with
    | nil => exact fun m => le_refl _
    | cons id l ih => exact fun m => (ih (m.release id)).trans (m.used_release id q)
  have hport := n.count_tags_modPort p (fun P => { P with queue := [] }) (.reserved q) hp
  have hqueue : (n.modPort p fun P => { P with queue := [] }).used q = n.used q := Nat.add_right_cancel hport
  rw [Net.emptyQueue_eq, ← hqueue]
  exact hfold _ _

theorem Net.reservation_emptyQueue (n : Net) (p q : Nat) : (n.emptyQueue p).reservation q = n.reservation q := by
  unfold Net.reservation
  rw [Net.port_emptyQueue]
  exact Net.port_modPort_keep (fun P => P.record.reservation) n p q _ fun _ => rfl

/-- A queue that does not name the frame of a request is emptied alongside it. -/
theorem Net.emptyQueue_hold {p : Nat} {f : Frame} {tags : List BlockTag} (h : ∀ id ∈ (n.port p).queue, id ≠ n.nextId) :
    (n.hold f tags).emptyQueue p = (n.emptyQueue p).hold f tags := by
  have hone : ∀ (m : Net) (id : Nat), id ≠ m.nextId → (m.hold f tags).release id = (m.release id).hold f tags := fun m id hid => by
    have hframe : ¬ m.nextId = id := fun he => hid he.symm
    unfold Net.hold Net.release
    rw [List.map_append, List.filter_append]
    simp [hframe]
  have hfold : ∀ (l : List Nat) (m : Net), (∀ id ∈ l, id ≠ m.nextId) →
      l.foldl (fun m id => m.release id) (m.hold f tags) = (l.foldl (fun m id => m.release id) m).hold f tags := fun l => by
    induction l with
    | nil => exact fun _ _ => rfl
    | cons id l ih =>
      intro m hl
      rw [List.foldl_cons, List.foldl_cons, hone m id (hl id List.mem_cons_self)]
      exact ih (m.release id) fun j hj => hl j (List.mem_cons_of_mem id hj)
  unfold Net.emptyQueue
  rw [show (n.hold f tags).port p = n.port p from rfl, hfold _ n h]
  rfl

/-- With exact references no queue names a frame to come (R43). -/
theorem Net.Exact.queue_old (h : n.Exact []) {p : Nat} (hp : p < 12) : ∀ id ∈ (n.port p).queue, id ≠ n.nextId := fun id hid => by
  have hrefs : (n.port p).refsTo id ≠ 0 := by
    have := List.count_pos_iff.2 hid
    unfold Port.refsTo
    omega
  have hge := n.refsTo_ge hp id
  obtain ⟨g, hg, rfl⟩ := List.mem_map.1 (h.named id (by omega))
  exact Nat.ne_of_lt (h.ids g hg)

theorem Net.nextId_emptyQueue (n : Net) (p : Nat) : (n.emptyQueue p).nextId = n.nextId := by
  have hfold : ∀ (l : List Nat) (m : Net), (l.foldl (fun m id => m.release id) m).nextId = m.nextId := fun l => by
    induction l with
    | nil => exact fun _ => rfl
    | cons id l ih => exact fun m => ih (m.release id)
  exact hfold _ n

/-! ### LOAD PORT carried out (R17, R18, R41, R44) -/

section
variable {a : Arrival} {p : Nat} {r : PortRecord}

/-- The link side once a port that becomes DISABLED has lost its queue. -/
def State.unqueuedFor (p : Nat) (r : PortRecord) (s : State) : Net :=
  if r.role = .disabled ∧ (s.port p).record.role ≠ .disabled then s.net.emptyQueue p else s.net

/-- The grounds on which a LOAD PORT is not refused (R17, R18). -/
structure State.LoadAllowed (s : State) (k p : Nat) (r : PortRecord) : Prop where
  number : p < 12
  range : PortRecord.inRange r = true
  lines : s.linesFit p r = true
  reservations : s.reservationsFit p r = true
  role : (s.port p).record.role = r.role ∨ s.roleHeld k p = false

theorem reqLoadPort_allowed {k : Nat} (h : s.LoadAllowed k p r) : reqLoadPort k p r s =
    if (s.port p).record.reservation < r.reservation ∧ s.net.sharedFree < r.reservation - (s.port p).record.reservation then (s, .busy)
    else ((({ s with net := (s.unqueuedFor p r).lowerReservation p r.reservation }).setPort p fun P => P.loaded r).setModified secPorts,
      .done []) := by
  have hrange : ¬ (12 ≤ p || !PortRecord.inRange r || !s.linesFit p r || !s.reservationsFit p r) = true := by
    rw [h.range, h.lines, h.reservations]
    simpa using h.number
  have hstate : ¬ ((s.port p).record.role != r.role && s.roleHeld k p) = true := by
    rcases h.role with hr | hr
    · rw [hr]
      simp
    · rw [hr]
      simp
  unfold reqLoadPort
  dsimp only
  rw [if_neg hrange, if_neg hstate]
  exact if_congr (by simp) rfl rfl

theorem reqLoadPort_busy {k : Nat} (h : s.LoadAllowed k p r) (hfull : (s.port p).record.reservation + s.net.sharedFree < r.reservation) :
    reqLoadPort k p r s = (s, .busy) :=
  (reqLoadPort_allowed h).trans (if_pos (by omega))

/-- A load that changes the tags of no block. -/
theorem reqLoadPort_loaded {k : Nat} (h : s.LoadAllowed k p r)
    (hkeep : s.net.used p ≤ r.reservation ∨ (s.port p).record.reservation ≤ r.reservation)
    (hroom : r.reservation ≤ (s.port p).record.reservation + s.net.sharedFree) : reqLoadPort k p r s =
      ((({ s with net := s.unqueuedFor p r }).setPort p fun P => P.loaded r).setModified secPorts, .done []) := by
  have hnot : ¬ ((s.port p).record.reservation < r.reservation ∧ s.net.sharedFree < r.reservation - (s.port p).record.reservation) := by
    omega
  have htags : (s.unqueuedFor p r).lowerReservation p r.reservation = s.unqueuedFor p r := by
    refine Net.lowerReservation_keep ?_
    unfold State.unqueuedFor
    split
    · rw [Net.reservation_emptyQueue]
      exact hkeep.imp_left (s.net.used_emptyQueue h.number p).trans
    · exact hkeep
  rw [reqLoadPort_allowed h, if_neg hnot, htags]

variable (f : Frame) (tags : List BlockTag)

theorem State.LoadAllowed.held {k : Nat} (h : s.LoadAllowed k p r) : (s.held a f tags).LoadAllowed k p r where
  number := h.number
  range := h.range
  lines := by
    have hrole := fun q => s.port_held a f tags (fun P => P.hasRole .line) (fun _ => rfl) q
    unfold State.linesFit
    simp only [hrole]
    exact h.lines
  reservations := by
    have hres := fun q => s.port_held a f tags (fun P => P.record.reservation) (fun _ => rfl) q
    unfold State.reservationsFit Net.reservation
    simp only [show ∀ q, ((s.held a f tags).net.port q).record.reservation = _ from hres]
    exact h.reservations
  role := by
    have hpanel := s.port_held a f tags (fun P => P.hasRole .panel && P.panel) (fun _ => rfl) p
    have hrole := s.port_held a f tags (fun P => P.record.role) (fun _ => rfl) p
    unfold State.roleHeld
    rw [hpanel, hrole]
    exact h.role

end

/-! ### LOAD PORT answered -/

section
variable {a : Arrival} {p : Nat} {r : PortRecord}

theorem State.sharedFree_held (f : Frame) {tags : List BlockTag} (h : tags = burstTags (s.port a.port).burst) :
    (s.held a f tags).net.sharedFree = s.net.sharedFree := by
  subst h
  exact s.net.sharedFree_keep a.port a.port.isLt f

theorem State.used_held (f : Frame) {tags : List BlockTag} (h : tags = burstTags (s.port a.port).burst) :
    (s.held a f tags).net.used p = s.net.used p := by
  subst h
  exact s.net.used_keep a.port.isLt f

theorem loadPort_busy (hs : s.CanReply a) (h : s.LoadAllowed a.port p r)
    (hfull : (s.port p).record.reservation + s.net.sharedFree < r.reservation) :
    QuietFrame (s.taken a.port) (s.ask a (.loadPort p r)) ∧ s.Replied (s.ask a (.loadPort p r)) a 0x20 .busy := by
  obtain ⟨hquiet, hreply, -⟩ := State.request_answered (code := 0x20) (l := encodeRequest (.loadPort p r)) (d := .ok (.loadPort p r))
    (ans := .busy) (v := s.taken a.port) hs (fun f tags htags => by
      have hrecord := s.port_held a f tags Port.record (fun _ => rfl) p
      have hfree := State.sharedFree_held f htags
      exact reqLoadPort_busy (h.held f tags) (by rw [hrecord, hfree]; exact hfull)) (.refl _ _)
  exact ⟨hquiet, hreply⟩

/-- A load that changes the tags of no block, with its request held. -/
theorem reqLoadPort_held (h : s.LoadAllowed a.port p r)
    (hkeep : s.net.used p ≤ r.reservation ∨ (s.port p).record.reservation ≤ r.reservation)
    (hroom : r.reservation ≤ (s.port p).record.reservation + s.net.sharedFree) (f : Frame) {tags : List BlockTag}
    (htags : tags = burstTags (s.port a.port).burst) : reqLoadPort a.port p r (s.held a f tags) =
      ((({ s.held a f tags with net := (s.held a f tags).unqueuedFor p r }).setPort p fun P => P.loaded r).setModified secPorts,
        .done []) := by
  have hrecord := s.port_held a f tags Port.record (fun _ => rfl) p
  exact reqLoadPort_loaded (h.held f tags) (by rw [hrecord, State.used_held f htags]; exact hkeep)
    (by rw [hrecord, State.sharedFree_held f htags]; exact hroom)

/-- A load that keeps the role moves no level. -/
theorem State.setPort_loaded (h : (s.port p).record.role = r.role) :
    s.setPort p (fun P => P.loaded r) = s.modPort p fun P => P.loaded r := by
  refine State.setPort_steady ?_ ?_
  all_goals rw [Port.loaded_same h]
  exact ⟨rfl, rfl, rfl, rfl⟩

theorem State.unqueuedFor_kept (h : ¬ (r.role = .disabled ∧ (s.port p).record.role ≠ .disabled)) :
    ({ s with net := s.unqueuedFor p r } : State) = s := by
  rw [State.unqueuedFor, if_neg h]

theorem loadPort_sameRole (hs : s.Hears a) (h : s.LoadAllowed a.port p r)
    (hkeep : s.net.used p ≤ r.reservation ∨ (s.port p).record.reservation ≤ r.reservation)
    (hroom : r.reservation ≤ (s.port p).record.reservation + s.net.sharedFree) (hrole : (s.port p).record.role = r.role)
    {g : Port → Port} (hg : ∀ P : Port, P.record.role = r.role → P.loaded r = g P) :
    QuietFrame (((s.taken a.port).modPort p g).setModified secPorts) (s.ask a (.loadPort p r)) :=
  State.ask_quiet_held hs (fun f tags htags => by
    have hheld : ((s.held a f tags).port p).record.role = r.role :=
      (s.port_held a f tags (fun P => P.record.role) (fun _ => rfl) p).trans hrole
    have hcarry : (s.held a f tags).carryOut s.net.nextId a (.loadPort p r) =
        (((s.held a f tags).modPort p g).setModified secPorts, .done []) := by
      refine (reqLoadPort_held h hkeep hroom f htags).trans ?_
      rw [State.unqueuedFor_kept (by rw [hheld]; exact fun hc => hc.2 hc.1), State.setPort_loaded hheld,
        State.modPort_congr (hg _ hheld)]
    rw [show ((s.taken a.port).hold f tags).carryOut s.net.nextId a (.loadPort p r) = _ from hcarry]
    exact .refl _) rfl

/-- The part once a port that becomes DISABLED has lost its queue. -/
def State.emptiedFor (p : Nat) (r : PortRecord) (s : State) : State :=
  if r.role = .disabled then { s with net := s.net.emptyQueue p } else s

theorem State.emptiedFor_hold {f : Frame} {tags : List BlockTag} (h : ∀ id ∈ (s.port p).queue, id ≠ s.net.nextId)
    (hrole : (s.port p).record.role ≠ r.role) :
    ({ s.hold f tags with net := (s.hold f tags).unqueuedFor p r } : State) = (s.emptiedFor p r).hold f tags := by
  unfold State.unqueuedFor State.emptiedFor
  by_cases hr : r.role = .disabled
  · have hold : (s.port p).record.role ≠ .disabled := hr ▸ hrole
    rw [if_pos (c := r.role = .disabled ∧ ((s.hold f tags).port p).record.role ≠ .disabled) ⟨hr, hold⟩, if_pos hr]
    exact congrArg (fun m => ({ s with net := m } : State)) (Net.emptyQueue_hold h)
  · rw [if_neg (c := r.role = .disabled ∧ ((s.hold f tags).port p).record.role ≠ .disabled) fun hc => hr hc.1, if_neg hr]

theorem State.emptiedFor_record (s : State) (q : Nat) : ((s.emptiedFor p r).port q).record = (s.port q).record := by
  unfold State.emptiedFor
  split
  · change ((s.net.emptyQueue p).port q).record = _
    rw [Net.port_emptyQueue]
    exact Net.port_modPort_keep Port.record s.net p q _ fun _ => rfl
  · rfl

theorem State.nextId_emptiedFor (s : State) : (s.emptiedFor p r).net.nextId = s.net.nextId := by
  unfold State.emptiedFor
  split
  · exact s.net.nextId_emptyQueue p
  · rfl

theorem loadPort_newRole (hs : s.Hears a) (h : s.LoadAllowed a.port p r)
    (hkeep : s.net.used p ≤ r.reservation ∨ (s.port p).record.reservation ≤ r.reservation)
    (hroom : r.reservation ≤ (s.port p).record.reservation + s.net.sharedFree) (hrole : (s.port p).record.role ≠ r.role)
    (hexact : s.net.Exact []) {g : Port → Port} (hg : ∀ P : Port, P.record.role ≠ r.role → P.loaded r = g P) :
    EventFrame ((((s.taken a.port).emptiedFor p r).modPort p g).setModified secPorts) (s.ask a (.loadPort p r)) :=
  State.ask_event_held hs (fun f tags htags => by
    have hqueue : ∀ id ∈ ((s.taken a.port).port p).queue, id ≠ (s.taken a.port).net.nextId := fun id hid =>
      hexact.queue_old h.number id (by
        rw [show ((s.taken a.port).port p).queue = _ from s.port_held a f tags Port.queue (fun _ => rfl) p] at hid
        exact hid)
    have htaken : ((s.taken a.port).port p).record.role ≠ r.role := by
      rw [show ((s.taken a.port).port p).record.role = _ from s.port_held a f tags (fun P => P.record.role) (fun _ => rfl) p]
      exact hrole
    have hcarry : (s.held a f tags).carryOut s.net.nextId a (.loadPort p r) =
        (((((s.taken a.port).emptiedFor p r).hold f tags).setPort p fun P => P.loaded r).setModified secPorts, .done []) := by
      refine (reqLoadPort_held h hkeep hroom f htags).trans ?_
      rw [State.emptiedFor_hold hqueue htaken]
    rw [show ((s.taken a.port).hold f tags).carryOut s.net.nextId a (.loadPort p r) = _ from hcarry]
    have hafter : ((((s.taken a.port).emptiedFor p r).hold f tags).port p).record.role ≠ r.role :=
      (congrArg PortRecord.role (State.emptiedFor_record (s.taken a.port) p)).trans_ne htaken
    exact (State.setPort_frame (f := fun P => P.loaded r) (g := g) (hg _ hafter)).setModified secPorts) ((s.taken a.port).nextId_emptiedFor)

end

/-- Settles O14: the port under its new record (`Port.loaded_same`, `Port.loaded_changed`), and the blocks retagged. -/
theorem loadPortTakesTheRecord : Obligations.LoadPortTakesTheRecord := by
  unfold Obligations.LoadPortTakesTheRecord
  refine ⟨fun s a p r hs hp hrange hlines hres => ⟨fun hr hrole hfull => ?busy, fun hkeep hroom =>
    ⟨fun hrole => ?sameRole, fun hrole hheld hexact => ?newRole⟩⟩, fun n p units hx hp => ?emptied, fun n p r hp h => ?lowered⟩
  case busy =>
    obtain ⟨hquiet, hreply⟩ := loadPort_busy hr ⟨hp, hrange, hlines, hres, .inl hrole⟩ hfull
    exact ⟨_, rfl, hquiet, hreply⟩
  case sameRole =>
    exact ⟨_, rfl, loadPort_sameRole hs ⟨hp, hrange, hlines, hres, .inl hrole⟩ hkeep hroom hrole fun _ => Port.loaded_same⟩
  case newRole =>
    exact ⟨_, _, rfl, rfl,
      loadPort_newRole hs ⟨hp, hrange, hlines, hres, .inr hheld⟩ hkeep hroom hrole hexact fun _ => Port.loaded_changed⟩
  case emptied =>
    refine ⟨Net.emptyQueue_exact p hp n hx, ?_, fun q hq => ?_⟩
    · rw [Net.port_emptyQueue, Net.port_modPort_in n hp, if_pos rfl]
    · rw [Net.port_emptyQueue, Net.port_modPort_in n hp, if_neg hq]
  case lowered =>
    exact ⟨fun hr => Net.lowerReservation_keep (.inr hr), fun hr => Net.lowerReservation_counts hp h hr⟩

end Sys2Proof.Machine
end
